-- ==== Sys2Proof/Word.lean ====
section
/-!
DEFINITION. The word type of the device and its plainest types: registers are 64 bits (R8), memory is held in
bytes (R6), a register field is a bit range [hi:lo] that includes both ends (R5).
-/

namespace Sys2Proof

/-- A register or general word, 64 bits (R8). -/
abbrev Word := BitVec 64

/-- A byte of memory (R6). -/
abbrev Byte := BitVec 8

/-- A bit range [hi:lo], both ends included, bit 0 least significant (R5). -/
structure Fld where
  hi : Nat
  lo : Nat
deriving DecidableEq, Repr

/-- A finite map from numbers to values in one canonical form: keys strictly rising, and no entry equal to what
an unlisted key reads as. -/
abbrev SMap (α : Type) := List (Nat × α)

end Sys2Proof
end

