-- ==== Sys2Proof/Syntax.lean ====
section
/-!
DEFINITION. The commands of the block: one constructor of `Instr` for each row of spec/opcode_table.json, with the
row's operands.  A command that names an instance (a core, a tile, a link, a window) carries its number; what a
command carries from outside the device (a frame, a measured temperature, whether training succeeded) is an operand.
-/

set_option maxRecDepth 20000

namespace Sys2Proof

/-- The requester of an access (R39, R332, Q_PROD.REQUESTER). -/
inductive Who where
  | core (c : Nat)                       -- a logical core of this device
  | svc (i : Nat)                        -- a service core
  | remote (device : Nat) (requester : Nat)   -- a core of another device, through the router
  | pcie
  | jtag
  | engine                               -- a collective or couch engine
deriving DecidableEq, Repr

/-- The handshake windows (R49), by block and instance. -/
inductive Window where
  | tile (p : Nat)
  | die (d : Nat)
  | mc (d : Nat)
  | link (n : Nat)
  | slice (s : Nat)
  | time
  | svc
  | pcie
deriving DecidableEq, Repr

/-- A register number field of a syllable, as encoded (R64). -/
abbrev RegNo := BitVec 6

/-- A B operand: a register, or the immediate of the I form (R70). -/
inductive Src where
  | reg (r : RegNo)
  | imm (i : BitVec 10)
deriving DecidableEq, Repr

/-- Where a syllable stands: the core, whether it goes to the odd unit of a pair (I1, M1, V1), and its stop bit. -/
structure Slot where
  core : Nat
  odd : Bool
  stop : Bool
deriving DecidableEq, Repr

/-- The floating-point lane types. -/
inductive FTy where
  | fp64 | fp32 | fp16 | bf16
deriving DecidableEq, Repr

/-- A 64-bit word with its poison mark (R66). -/
structure PW where
  val : Word
  poison : Bool
deriving DecidableEq, Repr

/-- A unit with repair registers: a tile or a memory controller. -/
inductive RUnit where
  | tile (p : Nat)
  | mc (d : Nat)
deriving DecidableEq, Repr

/-- A packet (R332 to R334): the header fields, the operation body from byte 16 to where the data starts, the data,
and one poison bit for each check word the data touches. -/
structure Packet where
  dest : Nat
  src : Nat
  op : Nat
  resp : Bool
  oversize : Bool
  len : Nat
  tag : Nat
  hops : Nat
  status : Nat
  srcid : Nat
  epb : Bool
  body : List Byte
  data : List Byte
  mask : List Bool
deriving DecidableEq, Repr

/-- What the Reed-Solomon decoder makes of a received codeword (R296). -/
inductive FecResult where
  | clean | corrected | uncorrectable
deriving DecidableEq, Repr

/-- A received codeword: the decoder's result and the SYNC and CWSEQ fields of its header (R295). -/
structure Codeword where
  fec : FecResult
  sync : BitVec 8
  seq : BitVec 4
deriving DecidableEq, Repr

/-- The content of an LCTL INIT message (R302). -/
structure InitMsg where
  device : Nat
  link : Nat
  side : Bool
  fresh : Bool
  rate100 : Bool
  txNext : Nat
  alloc : List Nat
  avail : List Nat
deriving DecidableEq, Repr

/-- A chain ENUM_DONE: its SRC, SEQ and count (R391, R392). -/
structure EnumDone where
  src : Nat
  seq : Nat
  count : Nat
deriving DecidableEq, Repr

/-- The straps as sampled at reset release (R481). -/
structure Straps where
  chainRole : Nat
  bootSrc : Nat
  buddySide : Bool
  endpoint : Bool
  testEn : Bool
deriving DecidableEq, Repr

/-- What a flash device answers at device reset (R444): nothing, a capacity that cannot be read, or the log2 of its
capacity in bytes. -/
inductive FlashAnswer where
  | absent | unreadable | log2 (n : Nat)
deriving DecidableEq, Repr

/-- An SMBus transaction: the target address it names, and whether a PEC came with it and was good (R492). -/
structure SmbReq where
  addr : Nat
  pec : Option Bool
deriving DecidableEq, Repr

/-- An inbound PCIe memory request (R488): to BAR2 or not, its address (the offset into the BAR in endpoint mode), the
length of a read, the data of a write and whether that data came poisoned. -/
structure PcieReq where
  bar2 : Bool
  write : Bool
  addr : Nat
  len : Nat
  data : List Byte
  poison : Bool
deriving DecidableEq, Repr



/-- The commands, one constructor per row of spec/opcode_table.json, in the table's order. -/
inductive Instr where
  /-- REGISTER_WRITE (R11). A write to a register that has no row of its own stores, sets, clears or subtracts its fields by their access codes and aliases. -/
  | registerWrite (who : Who) (addr : Nat) (value : Word)
  /-- TILE_MAP_UPDATE (R220). A write of TILE_MAP_k changes which physical position serves a slot, or marks it absent, as one update. -/
  | tileMapUpdate (die slot : Nat) (value : Word)
  /-- CAL_INTERVAL_EXPIRY (R45). CAL_CTL.INTERVAL microseconds pass with ENABLE set and FREEZE clear, and the calibration engine runs one pass over the domain's lines. -/
  | calIntervalExpiry (w : Window)
  /-- CAL_STEP (R45). A write of 1 to CAL_CTL.STEP starts one calibration pass. -/
  | calStep (w : Window)
  /-- CAL_TRIM_WRITE (R46). Software writes the selected line's trim, stored no lower than FLOOR and taking effect between handshakes. -/
  | calTrimWrite (w : Window) (value : Word)
  /-- NEAR_MISS (R44). A shadow sampler disagrees with its main latch, which counts a near-miss on the line and sets NEAR_MISS_SEEN. -/
  | nearMiss (w : Window) (line : Nat)
  /-- HFR_OFFER (R54). A source offers a new value to a hold-and-flag register, which holds it, queues it as pending or replaces the pending value with OVERRUN. -/
  | hfrOffer (w : Window) (x : Nat) (value : Word)
  /-- HFR_ACK (R54). The destination's acknowledgement of a held value arrives, and any pending value becomes held and is offered. -/
  | hfrAck (w : Window) (x : Nat)
  /-- PULSE_EVENT (R55). An event arrives at a pulse crossing and adds to its 4-bit counter, or saturates it and sets OVERRUN. -/
  | pulseEvent (w : Window) (x : Nat)
  /-- PULSE_HANDSHAKE_DONE (R55). A pulse crossing's four-phase handshake completes, and a non-zero counter raises the next request with its count. -/
  | pulseHandshakeDone (w : Window) (x : Nat)
  /-- PULSE_COUNT_DELIVERY (R55). The destination takes a pulse count, adds it to its event source and raises the acknowledge. -/
  | pulseCountDelivery (w : Window) (x : Nat)
  /-- QUEUE_CROSSING_WRITE (R53). A producer writes a word into an HCQ or DCQ, or is held while the queue is full. -/
  | queueCrossingWrite (w : Window) (x : Nat) (value : Word)
  /-- QUEUE_CROSSING_READ (R53). A consumer takes the oldest word of an HCQ or DCQ, freeing a slot for a held producer. -/
  | queueCrossingRead (w : Window) (x : Nat)
  /-- DST_STOPPED (R57). No destination clock edge is seen for 1 µs, so the crossing sets DST_STOPPED and holds its data. -/
  | dstStopped (w : Window) (x : Nat)
  /-- DST_CLOCK_RETURN (R57). A stopped destination clock returns, DST_STOPPED clears and delivery resumes in order. -/
  | dstClockReturn (w : Window) (x : Nat)
  /-- CROSSING_SIDE_RESET (R58). A reset on either side of a crossing puts it into RESYNC and discards its contents. -/
  | crossingSideReset (w : Window) (x : Nat) (powerOn : Bool)
  /-- XCTL_RESYNC (R58). A write of 1 to XCTL.RESYNC starts the resynchronisation sequence with no reset. -/
  | xctlResync (w : Window) (x : Nat)
  /-- RESYNC_COMPLETE (R58). Both sides have zeroed their pointers by handshake, the crossing becomes READY and RESYNCS increases. -/
  | resyncComplete (w : Window) (x : Nat)
  /-- RESYNC_HOLD_TIMEOUT (R60). A clockless request held at a crossing in RESYNC for 50 µs is answered as by a deckle gate, and TIMEOUT is set. -/
  | resyncHoldTimeout (w : Window) (x : Nat)
  /-- ADD (R97). ADD writes a + b modulo 2^64 to gD. -/
  | add (sl : Slot) (d a : RegNo) (b : Src)
  /-- SUB (R97). SUB writes a − b modulo 2^64 to gD. -/
  | sub (sl : Slot) (d a : RegNo) (b : Src)
  /-- AND (R97). AND writes the bitwise AND of a and b. -/
  | and (sl : Slot) (d a : RegNo) (b : Src)
  /-- OR (R97). OR writes the bitwise OR of a and b. -/
  | or (sl : Slot) (d a : RegNo) (b : Src)
  /-- XOR (R97). XOR writes the bitwise XOR of a and b. -/
  | xor (sl : Slot) (d a : RegNo) (b : Src)
  /-- ANDN (R97). ANDN writes a AND NOT b. -/
  | andn (sl : Slot) (d a : RegNo) (b : Src)
  /-- MIN (R97). MIN writes the signed smaller of a and b. -/
  | min (sl : Slot) (d a : RegNo) (b : Src)
  /-- MAX (R97). MAX writes the signed larger of a and b. -/
  | max (sl : Slot) (d a : RegNo) (b : Src)
  /-- MINU (R97). MINU writes the unsigned smaller of a and b. -/
  | minu (sl : Slot) (d a : RegNo) (b : Src)
  /-- MAXU (R97). MAXU writes the unsigned larger of a and b. -/
  | maxu (sl : Slot) (d a : RegNo) (b : Src)
  /-- SHL (R98). SHL shifts a left by b[7:0], giving 0 for amounts of 64 and above. -/
  | shl (sl : Slot) (d a : RegNo) (b : Src)
  /-- SHR (R98). SHR shifts a right logically by b[7:0]. -/
  | shr (sl : Slot) (d a : RegNo) (b : Src)
  /-- SAR (R98). SAR shifts a right arithmetically by b[7:0]. -/
  | sar (sl : Slot) (d a : RegNo) (b : Src)
  /-- ROL (R98). ROL rotates a left by b[7:0] mod 64. -/
  | rol (sl : Slot) (d a : RegNo) (b : Src)
  /-- CMPEQ (R99). CMPEQ writes 1 when a equals b, else 0. -/
  | cmpeq (sl : Slot) (d a : RegNo) (b : Src)
  /-- CMPNE (R99). CMPNE writes 1 when a differs from b, else 0. -/
  | cmpne (sl : Slot) (d a : RegNo) (b : Src)
  /-- CMPLT (R99). CMPLT writes 1 when a is signed-less than b. -/
  | cmplt (sl : Slot) (d a : RegNo) (b : Src)
  /-- CMPLTU (R99). CMPLTU writes 1 when a is unsigned-less than b. -/
  | cmpltu (sl : Slot) (d a : RegNo) (b : Src)
  /-- CMPLE (R99). CMPLE writes 1 when a is signed-less than or equal to b. -/
  | cmple (sl : Slot) (d a : RegNo) (b : Src)
  /-- CMPLEU (R99). CMPLEU writes 1 when a is unsigned-less than or equal to b. -/
  | cmpleu (sl : Slot) (d a : RegNo) (b : Src)
  /-- CSEL (R100). CSEL writes b when a is non-zero and keeps d otherwise, with a biting as a condition. -/
  | csel (sl : Slot) (d a : RegNo) (b : Src)
  /-- BFX (R101). BFX extracts a sign-extended bit field of a. -/
  | bfx (sl : Slot) (d a b : RegNo)
  /-- BFXU (R101). BFXU extracts a zero-extended bit field of a. -/
  | bfxu (sl : Slot) (d a b : RegNo)
  /-- BFI (R101). BFI inserts the low bits of a into a field of d. -/
  | bfi (sl : Slot) (d a b : RegNo)
  /-- CLZ (R102). CLZ counts the leading zero bits of a. -/
  | clz (sl : Slot) (d a : RegNo)
  /-- CTZ (R102). CTZ counts the trailing zero bits of a. -/
  | ctz (sl : Slot) (d a : RegNo)
  /-- POPC (R102). POPC counts the one bits of a. -/
  | popc (sl : Slot) (d a : RegNo)
  /-- BPERM (R103). BPERM builds each result byte from a byte of a or d chosen by a selector nibble of b. -/
  | bperm (sl : Slot) (d a b : RegNo)
  /-- LDIL (R104). LDIL writes the sign-extended 16-bit immediate to gD. -/
  | ldil (sl : Slot) (d : RegNo) (imm : BitVec 16)
  /-- LDIH (R104). LDIH shifts d left by 16 and inserts the 16-bit immediate below it. -/
  | ldih (sl : Slot) (d : RegNo) (imm : BitVec 16)
  /-- MUL (R105). MUL writes the low 64 bits of a × b. -/
  | mul (sl : Slot) (d a b : RegNo)
  /-- MULH (R105). MULH writes the upper 64 bits of the signed 128-bit product. -/
  | mulh (sl : Slot) (d a b : RegNo)
  /-- MULHU (R105). MULHU writes the upper 64 bits of the unsigned 128-bit product. -/
  | mulhu (sl : Slot) (d a b : RegNo)
  /-- DIV (R106). DIV writes the signed quotient rounded toward zero, with fixed results at the edges. -/
  | div (sl : Slot) (d a b : RegNo)
  /-- DIVU (R106). DIVU writes the unsigned quotient. -/
  | divu (sl : Slot) (d a b : RegNo)
  /-- REM (R106). REM writes the signed remainder, with the sign of the dividend. -/
  | rem (sl : Slot) (d a b : RegNo)
  /-- REMU (R106). REMU writes the unsigned remainder. -/
  | remu (sl : Slot) (d a b : RegNo)
  /-- LD8 (R108). LD8 loads one byte, sign-extended, from ea. -/
  | ld8 (sl : Slot) (d a : RegNo) (b : Src)
  /-- LD8U (R108). LD8U loads one byte, zero-extended, from ea. -/
  | ld8u (sl : Slot) (d a : RegNo) (b : Src)
  /-- LD16 (R108). LD16 loads two bytes, sign-extended, from ea. -/
  | ld16 (sl : Slot) (d a : RegNo) (b : Src)
  /-- LD16U (R108). LD16U loads two bytes, zero-extended, from ea. -/
  | ld16u (sl : Slot) (d a : RegNo) (b : Src)
  /-- LD32 (R108). LD32 loads four bytes, sign-extended, from ea. -/
  | ld32 (sl : Slot) (d a : RegNo) (b : Src)
  /-- LD32U (R108). LD32U loads four bytes, zero-extended, from ea. -/
  | ld32u (sl : Slot) (d a : RegNo) (b : Src)
  /-- LD64 (R108). LD64 loads eight bytes from ea, including control-space and queue-window reads. -/
  | ld64 (sl : Slot) (d a : RegNo) (b : Src)
  /-- ST8 (R108). ST8 stores the low byte of d at ea through the store buffer. -/
  | st8 (sl : Slot) (d a : RegNo) (b : Src)
  /-- ST16 (R108). ST16 stores the low two bytes of d at ea. -/
  | st16 (sl : Slot) (d a : RegNo) (b : Src)
  /-- ST32 (R108). ST32 stores the low four bytes of d at ea. -/
  | st32 (sl : Slot) (d a : RegNo) (b : Src)
  /-- ST64 (R108). ST64 stores the eight bytes of d at ea. -/
  | st64 (sl : Slot) (d a : RegNo) (b : Src)
  /-- VLD (R108). VLD loads eight 64-bit elements from ea into vD. -/
  | vld (sl : Slot) (d a : RegNo) (b : Src)
  /-- VST (R108). VST stores the eight elements of vD at ea. -/
  | vst (sl : Slot) (d a : RegNo) (b : Src)
  /-- PREF (R110). PREF hints a line into L1D and its home slice, or the home slice only, and never traps. -/
  | pref (sl : Slot) (hint a : RegNo) (b : Src)
  /-- AMOADD (R111). AMOADD adds b to the 8 bytes at a indivisibly and returns the old value. -/
  | amoadd (sl : Slot) (d a b : RegNo)
  /-- AMOSWAP (R111). AMOSWAP replaces the 8 bytes at a with b indivisibly and returns the old value. -/
  | amoswap (sl : Slot) (d a b : RegNo)
  /-- AMOCAS (R111). AMOCAS stores b at a when the old value equals d, and returns the old value. -/
  | amocas (sl : Slot) (d a b : RegNo)
  /-- FENCE_REL (R115). FENCE.REL waits until every older store, atomic and remote store of the core is performed and answered. -/
  | fenceRel (sl : Slot)
  /-- FENCE_ACQ (R115). FENCE.ACQ invalidates every non-private L1D line and orders younger loads after it. -/
  | fenceAcq (sl : Slot)
  /-- FENCE_FULL (R115). FENCE.FULL does both fences and orders every younger access after every older one. -/
  | fenceFull (sl : Slot)
  /-- JR (R116). JR transfers control to the address in gA. -/
  | jr (sl : Slot) (a : RegNo)
  /-- CALLR (R116). CALLR writes the return address to gD and jumps to the old gA. -/
  | callr (sl : Slot) (d a : RegNo)
  /-- RET (R116). RET jumps to gA, predicted by the return stack. -/
  | ret (sl : Slot) (a : RegNo)
  /-- BR (R116). BR branches by a signed 22-bit displacement. -/
  | br (sl : Slot) (disp : BitVec 22)
  /-- CALL (R116). CALL writes the return address to g63 and branches by a 22-bit displacement. -/
  | call (sl : Slot) (disp : BitVec 22)
  /-- BZ (R116). BZ branches when the tested register is zero. -/
  | bz (sl : Slot) (d : RegNo) (disp : BitVec 16)
  /-- BNZ (R116). BNZ branches when the tested register is non-zero. -/
  | bnz (sl : Slot) (d : RegNo) (disp : BitVec 16)
  /-- VFMA (R122). VFMA computes ±d ± a × b per lane with one rounding. -/
  | vfma (sl : Slot) (d a b : RegNo) (na np : Bool) (ty : FTy)
  /-- VFADD (R122). VFADD adds lane by lane with IEEE rounding and flags. -/
  | vfadd (sl : Slot) (d a b : RegNo) (ty : FTy)
  /-- VFSUB (R122). VFSUB subtracts lane by lane. -/
  | vfsub (sl : Slot) (d a b : RegNo) (ty : FTy)
  /-- VFMUL (R122). VFMUL multiplies lane by lane. -/
  | vfmul (sl : Slot) (d a b : RegNo) (ty : FTy)
  /-- VFMIN (R125). VFMIN computes minimumNumber per lane. -/
  | vfmin (sl : Slot) (d a b : RegNo) (ty : FTy)
  /-- VFMAX (R125). VFMAX computes maximumNumber per lane. -/
  | vfmax (sl : Slot) (d a b : RegNo) (ty : FTy)
  /-- VCVT (R127). VCVT converts lanes between floating-point and integer formats, zeroing unconverted lanes. -/
  | vcvt (sl : Slot) (d a src : RegNo) (f : BitVec 4)
  /-- VCMP (R126). VCMP writes all-ones or all-zero lane masks by the selected predicate. -/
  | vcmp (sl : Slot) (d a b : RegNo) (p : BitVec 2) (ty : FTy)
  /-- VIADD (R131). VIADD adds integer lanes modulo 2^w. -/
  | viadd (sl : Slot) (d a b : RegNo) (w : BitVec 2)
  /-- VISUB (R131). VISUB subtracts integer lanes modulo 2^w. -/
  | visub (sl : Slot) (d a b : RegNo) (w : BitVec 2)
  /-- VIMUL (R131). VIMUL multiplies integer lanes, keeping the low w bits. -/
  | vimul (sl : Slot) (d a b : RegNo) (w : BitVec 2)
  /-- VPERMB (R132). VPERMB permutes the 64 bytes of vA by selector bytes, zeroing where selector bit 7 is set. -/
  | vpermb (sl : Slot) (d a b : RegNo)
  /-- VBCAST (R133). VBCAST copies gA's low bits into every lane of vD. -/
  | vbcast (sl : Slot) (d a : RegNo) (ty : FTy)
  /-- VMOVG (R133). VMOVG copies one lane of vA, zero-extended, to gD. -/
  | vmovg (sl : Slot) (d a lane : RegNo) (ty : FTy)
  /-- VMOVV (R133). VMOVV copies vA to vD. -/
  | vmovv (sl : Slot) (d a : RegNo)
  /-- NOP (R134). NOP does nothing. -/
  | nop (sl : Slot)
  /-- SYS_MF (R134). SYS.MF reads a system register into gD. -/
  | sysMf (sl : Slot) (d : RegNo) (n : BitVec 12)
  /-- SYS_MT (R134). SYS.MT writes d to a system register that has no row of its own, under the level rules. -/
  | sysMt (sl : Slot) (d : RegNo) (n : BitVec 12)
  /-- SYSCALL (R135). TRAP with F = 0 raises SYSCALL with its code in the syllable. -/
  | syscall (sl : Slot) (code : BitVec 12)
  /-- BREAKPOINT (R135). TRAP with F = 1 raises BREAKPOINT. -/
  | breakpoint (sl : Slot) (code : BitVec 12)
  /-- MTRAP (R135). MTRAP raises SYSCALL at monitor level. -/
  | mtrap (sl : Slot) (code : BitVec 12)
  /-- ERET (R90). ERET restores level and interrupt enable and returns to EPC or MEPC. -/
  | eret (sl : Slot)
  /-- IFLUSH_ALL (R182). IFLUSH with F = 0 drains the store buffer, invalidates all of L1I, the line buffer and the bundle queue, and refetches. -/
  | iflushAll (sl : Slot)
  /-- IFLUSH_RANGE (R182). IFLUSH with F = 1 invalidates the executable L1I lines of a range after draining the store buffer. -/
  | iflushRange (sl : Slot) (a b : RegNo)
  /-- SPECBAR (R176). SPECBAR commits only after all older bundles and holds younger issue until it commits. -/
  | specbar (sl : Slot)
  /-- WAIT (R136). WAIT holds its bundle until an interrupt is pending or the tile leaves NAP. -/
  | wait (sl : Slot)
  /-- SLEEP_QUERY (R413). SLEEP with request QUERY returns code 0 at once. -/
  | sleepQuery (sl : Slot) (d a : RegNo)
  /-- SLEEP_NAP (R413). SLEEP with request NAP holds the bundle toward NAP entry and returns a code once it resolves. -/
  | sleepNap (sl : Slot) (d a : RegNo)
  /-- SLEEP_RESERVED (R413). SLEEP with a reserved request returns code 4. -/
  | sleepReserved (sl : Slot) (d a : RegNo)
  /-- EPOCH_QUERY (R373). EPOCH with request QUERY returns the epoch state. -/
  | epochQuery (sl : Slot) (d a : RegNo)
  /-- EPOCH_MARK (R373). EPOCH with request MARK waits for older stores and then requests a mirror mark. -/
  | epochMark (sl : Slot) (d a : RegNo)
  /-- EPOCH_RESERVED (R373). EPOCH with a reserved request returns code 4. -/
  | epochReserved (sl : Slot) (d a : RegNo)
  /-- RM_CLR (R143). RM.CLR sets an accumulator, its flags and poison to zero. -/
  | rmClr (sl : Slot) (d : RegNo)
  /-- RM_NEG (R143). RM.NEG negates an accumulator and swaps its sign-dependent flags. -/
  | rmNeg (sl : Slot) (d : RegNo)
  /-- RM_STAT (R152). RM.STAT writes an accumulator's status word to gD. -/
  | rmStat (sl : Slot) (d a : RegNo)
  /-- RM_ADDV (R144). RM.ADDV adds the eight FP64 lanes of vA exactly into an accumulator. -/
  | rmAddv (sl : Slot) (d a : RegNo)
  /-- RM_FMA4 (R145). RM.FMA4 adds four exact lane products into an accumulator. -/
  | rmFma4 (sl : Slot) (d a b : RegNo) (hi : Bool)
  /-- RM_MERGE (R146). RM.MERGE adds aA into aD and ORs its flags and poison. -/
  | rmMerge (sl : Slot) (d a : RegNo)
  /-- RM_RND (R149). RM.RND rounds an accumulator once to FP64 or FP32 by its flags and value. -/
  | rmRnd (sl : Slot) (d a : RegNo) (f : BitVec 4)
  /-- RM_ST (R154). RM.ST stores the canonical compressed form of an accumulator. -/
  | rmSt (sl : Slot) (d a : RegNo)
  /-- RM_LD (R155). RM.LD loads an accumulator from a compressed form. -/
  | rmLd (sl : Slot) (d a : RegNo)
  /-- COP_ABSENT (R81). An X syllable in the coprocessor block with no coprocessor raises COP_ABSENT. -/
  | copAbsent (sl : Slot) (k : BitVec 3) (rest : BitVec 22)
  /-- ILLEGAL_BUNDLE (R72). A bundle with an illegal opcode, reserved field or bad unit order raises ILLEGAL_BUNDLE before any syllable commits. -/
  | illegalBundle (core : Nat) (words : List (BitVec 32))
  /-- INTERRUPT_ENTRY (R88). A pending, enabled interrupt is taken between bundles, abandoning a stalled bundle where R91 permits. -/
  | interruptEntry (core : Nat)
  /-- ETLB_READ (R201). ETLB command READ copies entry INDEX into ETLB_HI and ETLB_LO. -/
  | etlbRead (sl : Slot) (d : RegNo)
  /-- ETLB_WRITE (R201). ETLB command WRITE installs an entry, invalidating overlaps and advancing NEXT. -/
  | etlbWrite (sl : Slot) (d : RegNo)
  /-- ETLB_PROBE (R201). ETLB command PROBE searches for a matching entry and sets INDEX or MISS. -/
  | etlbProbe (sl : Slot) (d : RegNo)
  /-- ETLB_INVAL (R201). ETLB command INVAL clears V of entry INDEX. -/
  | etlbInval (sl : Slot) (d : RegNo)
  /-- ETLB_INVAL_ALL (R201). ETLB command INVAL_ALL clears V of every entry. -/
  | etlbInvalAll (sl : Slot) (d : RegNo)
  /-- ETLB_INVAL_ASID (R201). ETLB command INVAL_ASID clears non-global entries of the current ASID. -/
  | etlbInvalAsid (sl : Slot) (d : RegNo)
  /-- DROP_PRIVATE (R201). ETLB command DROP_PRIVATE invalidates every private L1D line of the core. -/
  | dropPrivate (sl : Slot) (d : RegNo)
  /-- PRED_FLUSH (R171). A write of 1 to CORE_CTL.PRED_FLUSH clears all prediction state. -/
  | predFlush (sl : Slot) (d : RegNo)
  /-- BUNDLE_ALIGN (R165). The front end forms a bundle from the line buffer and checks its fetch causes. -/
  | bundleAlign (core : Nat)
  /-- L1I_FILL (R163). An L1I line fill returns from a home slice, segment or the xSPI controller and is installed. -/
  | l1iFill (core addr : Nat)
  /-- BRANCH_MISPREDICT (R179). A branch resolves differently from its prediction and the younger path is discarded and refetched. -/
  | branchMispredict (core : Nat)
  /-- L1D_FILL (R205). A load's fill returns and is installed in L1D, or held and dropped under SPEC_FILL_HOLD. -/
  | l1dFill (core bundle : Nat) (va : Word)
  /-- STORE_DRAIN (R186). A committed store buffer entry drains to L1D and its home slice, segment or remote destination. -/
  | storeDrain (core k : Nat)
  /-- HOME_SLICE_EVICT (R213). A home slice evicts a changed line and writes it to DRAM, discarding it if the controller is OFF or FAILED. -/
  | homeSliceEvict (ptile seg slot : Nat)
  /-- REHOME (R216). A write to REHOME with START = 1 begins re-homing an entry, or is refused. -/
  | rehome (value : Word)
  /-- REHOME_SWITCH (R216). Once the old slice's walk and granted accesses complete, all replicas switch to the new entry together. -/
  | rehomeSwitch
  /-- SEG_MODE_WRITE (R209). A MODE write to SEG_CTL is refused or accepted, an accepted change erasing the segment. -/
  | segModeWrite (ptile seg : Nat) (mode : BitVec 2)
  /-- SEG_ERASE (R210). A write of 1 to SEG_CTL.ERASE clears every valid bit of the segment. -/
  | segErase (ptile seg : Nat)
  /-- MC_TRAINING_DONE (R224). A memory controller's full training ends in READY or FAILED. -/
  | mcTrainingDone (d : Nat) (ok : Bool)
  /-- MEM_LEVEL_CHANGE (R407). A memory level change holds accesses, changes voltage and clock, retrains and releases them. -/
  | memLevelChange (d : Nat)
  /-- SELF_REFRESH_ENTRY (R407). IDLE_LIMIT µs without an access put a memory controller in SELF_REFRESH. -/
  | selfRefreshEntry (d : Nat)
  /-- SELF_REFRESH_EXIT (R407). A controller leaves self-refresh and performs the access that woke it. -/
  | selfRefreshExit (d : Nat)
  /-- SEG_CODE_CHANGE (R246). A write of SEG_REPAIR.LIGHT changes segment codes, refused for named CACHE segments and erasing others. -/
  | segCodeChange (ptile : Nat) (light : BitVec 16)
  /-- DRAM_CODE_CONVERT (R247). A write that changes DRAM_CODE_g.LIGHT starts a conversion of the granule, or is refused while one runs. -/
  | dramCodeConvert (g : Nat) (light : Bool)
  /-- CONVERSION_LINE (R247). A controller rewrites one line of the granule in the new code as one indivisible step. -/
  | conversionLine (d : Nat)
  /-- CONVERSION_PART_DONE (R247). A controller completes its part of a conversion and raises its completion event. -/
  | conversionPartDone (d : Nat)
  /-- MEM_FILL (R251). A write of 1 to FILL_CTL.GO starts the controller's fill of a range of stack addresses. -/
  | memFill (d : Nat)
  /-- MEM_FILL_DONE (R251). A fill completes, sets DONE and raises its event. -/
  | memFillDone (d : Nat)
  /-- BEATER_REWRITE (R252). The beater rewrites a word whose recurrence count reached REWRITE_AT. -/
  | beaterRewrite (u : RUnit) (loc : Nat)
  /-- SPARE_ROW_MAP (R254). A tile copies a segment row to its lowest free spare and writes SPARE_MAP. -/
  | spareRowMap (ptile loc : Nat)
  /-- DRAM_BLOCK_REMAP (R255). A controller copies a 1 KiB block to a free remap entry. -/
  | dramBlockRemap (d loc : Nat)
  /-- SPARE_MAP_WRITE (R256). A write of VALID = 1 to a free SPARE_MAP entry maps the named row by the spare steps. -/
  | spareMapWrite (ptile seg r : Nat) (row : BitVec 10)
  /-- DRAM_REMAP_WRITE (R256). A write of VALID = 1 to a free DRAM_REMAP entry maps the named block. -/
  | dramRemapWrite (d i : Nat) (block : BitVec 26)
  /-- REC_ENTRY_FREE (R253). A write of VALID = 0 to REC_ENTRY_i frees the recurrence entry. -/
  | recEntryFree (u : RUnit) (i : Nat)
  /-- REC_DECAY_EXPIRY (R253). Every DECAY seconds each counting or rewritten entry has its COUNT halved and zero entries are freed. -/
  | recDecayExpiry (u : RUnit)
  /-- BEAT_PASS (R258). A write of 1 to BEAT_CTL.PASS starts one beater pass. -/
  | beatPass (u : RUnit)
  /-- BEATER_VISIT (R258). The beater visits one word, rewriting it corrected or counting and logging its error. -/
  | beaterVisit (u : RUnit) (loc : Nat)
  /-- BEATER_PASS_END (R258). A beater pass ends, PASSES increases, LATE is judged and the beater event arrives. -/
  | beaterPassEnd (u : RUnit) (late : Bool)
  /-- READ_RAW (R259). DIAG_CMD OP 0 reads a check word raw with its syndrome and class. -/
  | readRaw (u : RUnit) (loc : Nat)
  /-- WRITE_RAW (R259). DIAG_CMD OP 1 writes a check word raw. -/
  | writeRaw (u : RUnit) (loc : Nat) (raw : BitVec 39)
  /-- QPUSH (R265). A store to QPUSH pushes an uncommitted word of the open packet, or is held or absorbed. -/
  | qpush (who : Who) (lt q : Nat) (w : PW)
  /-- QPUSH_LAST (R265). A store to QPUSH_LAST pushes a word and commits the packet. -/
  | qpushLast (who : Who) (lt q : Nat) (w : PW)
  /-- QABORT (R265). A store to QABORT rewinds the owner's open packet. -/
  | qabort (who : Who) (lt q : Nat)
  /-- HELD_PUSH_ACCEPT (R267). A push held for a slot is accepted once a slot frees. -/
  | heldPushAccept (lt q : Nat)
  /-- STALE (R268). OPEN_LIMIT µs of owner silence rewind an open packet, or end ABSORBING. -/
  | stale (lt q : Nat)
  /-- QPOP (R269). A load of QPOP returns the oldest committed word, or the last value with UNDERRUN. -/
  | qpop (who : Who) (lt q : Nat)
  /-- QUEUE_FLUSH (R270). A write of 1 to QCTL.FLUSH discards every word of the queue. -/
  | queueFlush (lt q : Nat)
  /-- EVMODE_WRITE (R273). A write of QCTL.EVMODE changes the queue source's reporting, clearing its count across kinds. -/
  | evmodeWrite (lt q : Nat) (mode : BitVec 2)
  /-- QWM_WRITE (R272). A write of QWM re-evaluates the live watermark bits without counting a crossing. -/
  | qwmWrite (lt q : Nat) (value : Word)
  /-- EVENT_ARRIVAL (R277). An arrival at a counting source adds to COUNT and ARRIVED, or sets EV_SAT at saturation. -/
  | eventArrival (src : Nat)
  /-- LEVEL_CHANGE (R278). A level source's input rises or falls, changing its pending state. -/
  | levelChange (src : Nat) (high : Bool)
  /-- EV_PEND_SET (R279). A write through the EV_PEND SET alias adds one arrival to each selected counting source. -/
  | evPendSet (w : Nat) (mask : Word)
  /-- EV_PEND_CLR (R279). A write through the EV_PEND CLR alias subtracts each selected source's whole COUNT into ACKED. -/
  | evPendClr (w : Nat) (mask : Word)
  /-- EV_CLAIM (R280). A read of EV_CLAIM_c claims the best claimable source for core c and returns its count snapshot. -/
  | evClaim (c : Nat)
  /-- EV_EOI (R281). A write of EV_EOI_c acknowledges an amount of a source in service and takes it out of service. -/
  | evEoi (c : Nat) (value : Word)
  /-- EV_RING (R284). A write of EV_RING adds one arrival to a doorbell, or discards it for an absent target. -/
  | evRing (value : Word)
  /-- AON_SETTING_WRITE (R290). A write of a watcher slot, AON_ALARM or BRD_SMB enters crossing 10, holding the writer when full. -/
  | aonSettingWrite (who : Who) (addr : Nat) (value : Word)
  /-- AON_SETTING_TAKEN (R290). The AON domain takes a value from crossing 10 and confirms it. -/
  | aonSettingTaken
  /-- DETECT_PROBE (R304). Every 1 ms in DETECT the transmitter tests for the far receiver's termination. -/
  | detectProbe (n : Nat) (present : Bool)
  /-- RX_LOCK (R304). A training receiver recovers clock lock and the link proceeds to ALIGN. -/
  | rxLock (n : Nat)
  /-- FALLBACK (R305). RX_LOCK has not risen 45 ms after training starts at 200 Gb/s, so the side changes to 100 Gb/s. -/
  | fallback (n : Nat)
  /-- TRAINING_FAILURE (R307). A fast or full training fails and the link escalates to full training, DETECT or DOWN. -/
  | trainingFailure (n : Nat) (partner : Bool)
  /-- CODEWORD_RECEIVE (R296). A receiver decodes a codeword, counts corrections or uncorrectables, and judges codeword lock. -/
  | codewordReceive (n : Nat) (cw : Codeword)
  /-- FLIT_RECEIVE (R308). A flit arrives and is accepted, discarded or NAKed by its CRC and sequence. -/
  | flitReceive (n : Nat) (flit : List Byte)
  /-- FLIT_SEND (R312). A transmitter sends a credit-consuming flit once a credit and a replay buffer entry are available. -/
  | flitSend (n : Nat)
  /-- FLIT_DEQUEUE (R314). The router slice takes a flit from the receive buffer and a credit becomes pending. -/
  | flitDequeue (n : Nat)
  /-- CRD (R303). A CRD flit returns credits for all virtual channels. -/
  | crd (n cvc ccount : Nat) (credits : List Nat)
  /-- ACK (R308). An LCTL ACK arrives, freeing replay entries, or as a NAK triggers a replay. -/
  | ack (n exp : Nat) (nak : Bool)
  /-- REPLAY (R310). An LCTL REPLAY arrives and the receiver renumbers from START. -/
  | replay (n exp start : Nat)
  /-- INIT (R306). An LCTL INIT arrives and is checked for identity, rate and allocation, setting credits. -/
  | init (n exp : Nat) (msg : InitMsg)
  /-- INIT_DONE (R304). An LCTL INIT_DONE completes CREDIT_INIT and the link becomes ACTIVE. -/
  | initDone (n exp : Nat)
  /-- QUIET_REQ (R318). An LCTL QUIET_REQ is answered with QUIET_ACK or QUIET_NAK. -/
  | quietReq (n exp : Nat)
  /-- QUIET_ACK (R318). An LCTL QUIET_ACK takes the link into QUIET. -/
  | quietAck (n exp : Nat)
  /-- QUIET_NAK (R318). An LCTL QUIET_NAK refuses QUIET and delays the next request. -/
  | quietNak (n exp : Nat)
  /-- OFF_REQ (R321). An LCTL OFF_REQ is answered with OFF_ACK and the side switches off. -/
  | offReq (n exp : Nat)
  /-- OFF_ACK (R321). An LCTL OFF_ACK lets both sides switch their link domains OFF. -/
  | offAck (n exp : Nat)
  /-- RETRAIN (R307). An LCTL RETRAIN from the far side starts a retraining. -/
  | retrain (n exp : Nat)
  /-- RETIRE (R324). An LCTL RETIRE from the far side takes the port out of service and the link DOWN. -/
  | retire (n exp : Nat)
  /-- LCTL_RESERVED (R302). An LCTL with a reserved code is ignored and sets PROTO. -/
  | lctlReserved (n exp : Nat)
  /-- LCTL_RESEND (R302). An unanswered LCTL message is sent again after 1 µs, up to 8 times. -/
  | lctlResend (n : Nat)
  /-- ACK_TIME_EXPIRY (R308). ACK_TIME passes with accepted flits unreported, so an ACK is sent. -/
  | ackTimeExpiry (n : Nat)
  /-- REPLAY_TIMEOUT (R310). REPLAY_TIMEOUT passes with the oldest flit unacknowledged, so a replay is sent or the limit triggers retraining. -/
  | replayTimeout (n : Nat)
  /-- CRD_TIME_EXPIRY (R314). CRD_TIME passes with pending credits, so a CRD flit is sent. -/
  | crdTimeExpiry (n : Nat)
  /-- QUIET_IDLE_EXPIRY (R318). QUIET_IDLE µs without sequenced flits make a side with AUTO_QUIET send QUIET_REQ. -/
  | quietIdleExpiry (n : Nat)
  /-- WAKE_SEEN (R319). The energy detector recognises the wake pattern, counts an arrival and wakes the link. -/
  | wakeSeen (n : Nat)
  /-- WAKE_COMPLETE (R319). A waking side finishes its 2 µs wake pattern and resumes codewords. -/
  | wakeComplete (n : Nat)
  /-- LINK_RETRAIN_CMD (R307). A write of 1 to LNK_CTL.RETRAIN starts a retraining. -/
  | linkRetrainCmd (n : Nat)
  /-- FULL_TRAIN (R307). A write of 1 to LNK_CTL.FULL_TRAIN starts a full training from DETECT. -/
  | fullTrain (n : Nat)
  /-- LINK_RETIRE_CMD (R324). A write of 1 to LNK_CTL.RETIRE retires the link; a write of 0 starts a full training. -/
  | linkRetireCmd (n : Nat) (on : Bool)
  /-- LINK_ENABLE (R321). A write of ENABLE powers, restores and trains an OFF link, or a write of 0 takes it OFF. -/
  | linkEnable (n : Nat) (on : Bool)
  /-- PWR_REQ (R318). A write of LNK_CTL.PWR_REQ asks for ACTIVE, QUIET or OFF. -/
  | pwrReq (n : Nat) (req : BitVec 2)
  /-- LINK_TEST (R326). A write of LNK_CTL.TEST starts a test mode, or 0 ends it with a full training. -/
  | linkTest (n : Nat) (mode : BitVec 3)
  /-- HEALTH_WINDOW_EXPIRY (R323). A WINDOW_MS window ends and RETIRE_CAND is judged on its counts. -/
  | healthWindowExpiry (n : Nat)
  /-- PACKET_ROUTE (R338). A slice routes a packet's HEAD to an adaptive or escape candidate, or answers NO_RESPONDER. -/
  | packetRoute (i vc : Nat) (p : Packet)
  /-- PUT (R343). A PUT request is performed at the target and answered. -/
  | put (i : Nat) (p : Packet)
  /-- GET (R343). A GET request is performed at the target and answered with GET_RESP. -/
  | get (i : Nat) (p : Packet)
  /-- AMO (R343). An AMO request is performed at its point of order and returns the old value. -/
  | amo (i : Nat) (p : Packet)
  /-- CTRL (R347). A CTRL request is admitted by the filter and performed, or refused. -/
  | ctrl (i : Nat) (p : Packet)
  /-- QMSG (R349). A QMSG request is delivered, held, answered RETRY, or sets OVERSIZE at the target queue. -/
  | qmsg (i : Nat) (p : Packet)
  /-- QMSG_HOLD_DELIVER (R349). A held QMSG packet is committed once its queue can take it. -/
  | qmsgHoldDeliver (t q : Nat)
  /-- RESPONSE_RECEIVE (R345). A response reaches its requester, completing, failing or retrying the request, or is discarded as late. -/
  | responseReceive (i : Nat) (p : Packet)
  /-- REQ_TIMEOUT (R345). An outstanding request's timer expires and it is treated as STATUS 0x0C. -/
  | reqTimeout (tag : Nat)
  /-- RETRY_DELAY_EXPIRY (R349). RETRY_DELAY after a RETRY response, the source sends the QMSG again. -/
  | retryDelayExpiry (tag : Nat)
  /-- GATHER_QPUSH (R348). A QPUSH to a remote queue appends a word to the core's gather buffer. -/
  | gatherQpush (c device t q : Nat) (w : PW)
  /-- GATHER_QPUSH_LAST (R348). A QPUSH_LAST to a remote queue appends a word and sends the gather as one QMSG when permitted. -/
  | gatherQpushLast (c device t q : Nat) (w : PW)
  /-- GATHER_QABORT (R348). A QABORT to a remote queue discards the gathered words. -/
  | gatherQabort (c device t q : Nat)
  /-- OLD_PKTS_DRAINED (R340). A slice's count of old-bank packets reaches 0 and its epoch event arrives. -/
  | oldPktsDrained (i : Nat)
  /-- COLL_ENABLE (R351). A write of COLL_CFG.ENABLE = 1 checks the configuration and enters COLLECT or CFG_ERR. -/
  | collEnable (c : Nat) (value : Word)
  /-- COLL_DISABLE (R351). A write of COLL_CFG.ENABLE = 0 ends the operation in progress as abandoned. -/
  | collDisable (c : Nat)
  /-- COLL_SUBMIT (R352). A write to COLL_SUBMIT counts, holds or refuses a local contribution. -/
  | collSubmit (c : Nat) (value : Word)
  /-- COLL_UP (R354). A COLL UP from a child arrives and is counted toward combination. -/
  | collUp (link : Nat) (p : Packet)
  /-- COLL_DOWN (R354). A COLL DOWN arrives with the result, is forwarded to children and written as the record. -/
  | collDown (link : Nat) (p : Packet)
  /-- COLL_COMBINE (R354). All contributions for a SEQ have arrived, so the context sends UP or forms and distributes the result. -/
  | collCombine (c : Nat)
  /-- COLL_TIMEOUT (R356). COLL_TIMEOUT.LIMIT µs pass without completion and the context fails. -/
  | collTimeout (c : Nat)
  /-- TIME_EXCHANGE_START (R357). Every PERIOD µs a non-master device sends a TIME REQ to its parent. -/
  | timeExchangeStart (t1 : Word)
  /-- TIME_REQ (R357). A TIME REQ arrives and is answered with stamped T2 and T3. -/
  | timeReq (link : Nat) (p : Packet) (t2 t3 : Word)
  /-- TIME_RESP (R357). A TIME RESP arrives, the offset and delay are computed and applied, and lock is judged. -/
  | timeResp (link : Nat) (p : Packet) (t4 : Word)
  /-- CE_MARK (R372). A write of 1 to CE_CMD.MARK requests a mirror mark, performed only when enabled, idle and with the buddy up. -/
  | ceMark
  /-- CE_ABORT (R378). A write of 1 to CE_CMD.ABORT fails the epoch in progress. -/
  | ceAbort
  /-- EXTENT_FULL (R371). A write of 1 to CE_EXT_SRC_i.FULL marks every granule of the extent dirty. -/
  | extentFull (i : Nat)
  /-- GRANULE_READ (R375). The sender reads a pending or pre-imaged granule and sends its 16 DATA packets. -/
  | granuleRead
  /-- PREIMAGE_COPY (R376). A write to a PENDING granule is held while the granule is copied into a pre-image slot, then performed. -/
  | preimageCopy (g : Nat)
  /-- COUCH_RESPONSE (R374). A response to BEGIN, DATA or END arrives and advances or fails the epoch. -/
  | couchResponse (link : Nat) (p : Packet)
  /-- COUCH_RESEND (R381). ACK_TIMEOUT passes without an answer and the COUCH request is sent again or the epoch fails. -/
  | couchResend (tag : Nat)
  /-- BEGIN (R383). A COUCH BEGIN is checked and opens a receive log for its epoch. -/
  | couchBegin (link : Nat) (p : Packet)
  /-- DATA (R383). A COUCH DATA writes a chunk into the receive log. -/
  | couchData (link : Nat) (p : Packet)
  /-- END (R383). A COUCH END is checked and starts the apply of the epoch. -/
  | couchEnd (link : Nat) (p : Packet)
  /-- ABORT (R385). A COUCH ABORT discards a receiving log. -/
  | couchAbort (link : Nat) (p : Packet)
  /-- HB (R386). A heartbeat arrives, zeroing MISSED and recording the buddy's committed epoch. -/
  | couchHb (link : Nat) (p : Packet)
  /-- APPLY_DONE (R384). Every apply write has been performed, COMMITTED advances and the END is answered OK. -/
  | applyDone
  /-- REAPPLY (R384). A write of 1 to RX_CTL.REAPPLY runs the apply of a complete log again. -/
  | reapply
  /-- DISCARD (R385). A write of 1 to RX_CTL.DISCARD discards a receiving log. -/
  | discard
  /-- HB_PERIOD_EXPIRY (R386). Each HB_PERIOD a heartbeat is sent and a period without one adds to MISSED. -/
  | hbPeriodExpiry
  /-- CHAIN_IN_CONNECT (R390). CHAIN_IN changes connection, setting the device's chain role or demoting a master. -/
  | chainInConnect (conn : Bool)
  /-- CHAIN_FRAME_RECEIVE (R393). A chain firmware frame arrives and is passed on, or delivered and answered with ACK. -/
  | chainFrameReceive (fromUp : Bool) (frame : List Byte)
  /-- ENUM (R392). A chain ENUM arrives and the member takes a position and forwards or answers ENUM_DONE. -/
  | chainEnum (p : Nat)
  /-- ENUM_DONE (R392). A chain ENUM_DONE reaches the master, which records the member count. -/
  | chainEnumDone (done : EnumDone)
  /-- CHAIN_ACK (R393). A chain ACK ends a SEND. -/
  | chainAck (fromUp : Bool) (dest src seq : Nat)
  /-- CHAIN_ENUM_CMD (R392). A write of 1 to CHAIN_CMD.ENUM at the master sends ENUM. -/
  | chainEnumCmd
  /-- CHAIN_SEND (R393). A write of 1 to CHAIN_CMD.SEND sends the frame in CHAIN_TX. -/
  | chainSend
  /-- CHAIN_RELEASE (R393). A write of 1 to CHAIN_CMD.RELEASE clears RX_FULL. -/
  | chainRelease
  /-- CHAIN_RESEND (R393). No ACK 100 µs after a frame, the frame is sent again, failing after 8. -/
  | chainResend
  /-- PWRGD_MAIN_FALL (R398). PWRGD_MAIN falls and every switched domain goes OFF at once. -/
  | pwrgdMainFall
  /-- RETENTION_SHED (R401). A tile regulator in low-power mode reaches its limit and releases retained segments. -/
  | retentionShed (p n : Nat)
  /-- LEVEL_RAMP_START (R404). A domain's effective level changes and its calender ramps toward it, upward ramps waiting for a slot. -/
  | levelRampStart (k : Nat)
  /-- LEVEL_RAMP_END (R404). A calender ramp reaches the effective level, freeing an upward ramp slot. -/
  | levelRampEnd (k : Nat)
  /-- NAP_ENTRY_START (R412). A tile's NAP entry conditions hold, or a SLEEP NAP applies, and entry starts. -/
  | napEntryStart (p : Nat)
  /-- NAP_NOW (R412). A write of 1 to DOM_CTL.NAP_NOW starts NAP entry from RUN. -/
  | napNow (p : Nat)
  /-- NAP_ENTRY_COMPLETE (R414). After draining and saving state, the tile passes its abort points to PNR and reaches NAP. -/
  | napEntryComplete (p : Nat)
  /-- NAP_WAKE (R415). A wake reaches a napping or entering tile, abandoning entry or starting exit. -/
  | napWake (p cause : Nat) (afterPnr : Bool)
  /-- NAP_EXIT_COMPLETE (R415). The tile's state is restored and its cores resume in RUN. -/
  | napExitComplete (p : Nat)
  /-- DOMAIN_OFF_REQUEST (R417). A write of DOM_CTL.OFF = 1 switches a domain off, or is refused. -/
  | domainOffRequest (k : Nat)
  /-- DOMAIN_POWER_UP (R417). A write of DOM_CTL.OFF = 0 powers a domain from OFF. -/
  | domainPowerUp (k : Nat)
  /-- DOMAIN_POWER_UP_DONE (R417). A powering domain reaches its voltage, runs its calibration pass and opens its deckle gate. -/
  | domainPowerUpDone (k : Nat)
  /-- DEV_REQ_ON (R418). PWR_DEV_CMD with REQ = ON wakes the device. -/
  | devReqOn
  /-- DEV_REQ_HOLD (R419). PWR_DEV_CMD with REQ = HOLD starts HOLD entry, or is refused. -/
  | devReqHold
  /-- DEV_REQ_DORMANT (R419). PWR_DEV_CMD with REQ = DORMANT starts DORMANT entry, or is refused. -/
  | devReqDormant
  /-- DEV_REQ_OFF (R419). PWR_DEV_CMD with REQ = OFF switches every domain off at once. -/
  | devReqOff
  /-- DEV_ENTRY_POINT (R420). Device entry passes its next B point once the previous step's domains have quiesced. -/
  | devEntryPoint
  /-- DEV_ENTRY_COMPLETE (R420). The device reaches HOLD or DORMANT. -/
  | devEntryComplete
  /-- DEVICE_WAKE (R421). A device wake fires, abandoning entry or starting HOLD or DORMANT exit. -/
  | deviceWake (slot : Nat) (afterPnr : Bool)
  /-- DORMANT_EXIT_COMPLETE (R421). The time base, service complex and other domains are back and the device is ON. -/
  | dormantExitComplete
  /-- GATE_HOLD_TIMEOUT (R424). An access held at a domain in transition for 50 µs is answered as by a deckle gate. -/
  | gateHoldTimeout (k : Nat)
  /-- PCAP_XFER (R426). A write with GO = 1 to PCAP_XFER debits the source, or is refused. -/
  | pcapXfer (value : Word)
  /-- PCAP_XFER_COMPLETE (R426). After the source's downward ramp ends, the destination is credited. -/
  | pcapXferComplete
  /-- PKG_POWER_WINDOW (R427). Each 100 µs the summed energy is compared with LIMIT_W and the package limit moves. -/
  | pkgPowerWindow (watts : Nat)
  /-- THERMAL_STEP (R428). Each throttle period a die's thermal limit drops or rises by its sensors. -/
  | thermalStep (die : Nat) (temps : List (BitVec 16)) (ms : Bool)
  /-- THERMAL_TRIP (R429). A sensor reaches 115 °C, THERMTRIP_N is asserted, a record written and the device goes OFF. -/
  | thermalTrip (sensor : Nat)
  /-- REG_FAULT (R437). A regulator exceeds its normal-mode rating and switches its domain OFF. -/
  | regFault (k : Nat)
  /-- TIME_ADJ (R432). A write of TIME_ADJ steps time forward or starts a slew. -/
  | timeAdj (value : Word)
  /-- AON_PERIOD_MEASURE (R433). Every 65,536 AON ticks the time base updates AON_PERIOD. -/
  | aonPeriodMeasure (period : BitVec 40)
  /-- XTAL_ABSENT (R433). No crystal edge for 1 ms switches the AON counter to the internal oscillator. -/
  | xtalAbsent
  /-- XTAL_RETURN (R433). 1,024 good crystal edges switch the AON counter back to the crystal. -/
  | xtalReturn
  /-- TIME_ALARM (R435). Global time reaches TIME_ALARM and gives one arrival. -/
  | timeAlarm
  /-- AON_ALARM (R435). The AON count reaches AON_ALARM and gives one arrival at AON source 7,041. -/
  | aonAlarm
  /-- COLD_RESET (R440). PWRGD_AON rising or an AON brown-out resets every domain and reloads the fuses. -/
  | coldReset (brownOut fusesOk : Bool) (damage : List (Nat × List Byte)) (wptr : List Nat)
  /-- DEVICE_RESET (R440). RST_N low, PWRGD_MAIN low or a thermal trip resets every switched domain. -/
  | deviceReset (cause : Nat)
  /-- DEVICE_RESET_RELEASE (R448). RST_N and PWRGD_MAIN are high, straps are sampled and the boot ROM starts. -/
  | deviceResetRelease (pins : Straps) (flash0 flash1 : FlashAnswer)
  /-- ROLLBACK_ADV (R442). FUSE_CMD ROLLBACK_ADV burns the rollback counter to a level. -/
  | rollbackAdv
  /-- REVOKE (R442). FUSE_CMD REVOKE burns a key slot's revoke bit. -/
  | revoke
  /-- KEY_PROG (R442). FUSE_CMD KEY_PROG burns a key hash and the slot's programmed bit. -/
  | keyProg
  /-- CLOSE_DEBUG (R459). FUSE_CMD CLOSE_DEBUG burns DEBUG_CLOSE. -/
  | closeDebug
  /-- CLOSE_UPDATE (R459). FUSE_CMD CLOSE_UPDATE burns CLOSED_DIGEST and UPDATE_CLOSE. -/
  | closeUpdate
  /-- FUSE_CMD_INVALID (R442). A FUSE_CMD with an undefined command or bad CONFIRM is refused. -/
  | fuseCmdInvalid (value : Word)
  /-- FUSE_CMD_DONE (R442). A fuse command ends, BUSY falls, its event arrives and a record is written. -/
  | fuseCmdDone
  /-- BOOT_SELECT (R447). The boot ROM checks the four flash candidates and boots the first with code 0. -/
  | bootSelect
  /-- RECOVERY_IMAGE (R449). A recovery image arrives on the UART and is checked and loaded. -/
  | recoveryImage (image : List Byte)
  /-- RECOVERY_RECHECK (R449). Every 10 s in recovery the boot ROM checks the flash candidates again. -/
  | recoveryRecheck
  /-- BOOT_REQ_RESEND (R450). A chain member sends BOOT_REQ again every 1 s until answered. -/
  | bootReqResend
  /-- BOOT_GO (R450). A BOOT_GO frame makes the member set its number and route and enable its boot link. -/
  | bootGo (device master link : Nat) (offset : Nat) (image : List Byte)
  /-- VERIFY (R457). SIG_CMD VERIFY checks an image including its body digest. -/
  | verify (remote : List Byte)
  /-- SIG_LOAD (R457). SIG_CMD LOAD copies and hashes a section, extending LOAD_CHAIN on success. -/
  | sigLoad (kind : Nat) (remote : List Byte)
  /-- ATTEST (R458). SIG_CMD ATTEST writes a signed attestation report. -/
  | attest
  /-- SIG_DONE (R457). A signature engine operation ends, CODE is set and its event arrives. -/
  | sigDone
  /-- XSPI_READ (R444). XSPI_CMD OP 1 reads flash into service SRAM. -/
  | xspiRead (second : Bool)
  /-- XSPI_PROGRAM (R444). XSPI_CMD OP 2 programs flash from service SRAM, or is refused for closed image slots. -/
  | xspiProgram (second : Bool)
  /-- XSPI_ERASE (R444). XSPI_CMD OP 3 erases the 64 KiB sectors of a range. -/
  | xspiErase (second : Bool)
  /-- XSPI_DONE (R444). An xSPI command ends, RESULT is set and held window reads proceed. -/
  | xspiDone (ok : Bool)
  /-- HANDOVER (R455). A write of SVC_CTL.HANDOVER passes control to the standby service core. -/
  | handover
  /-- WATCHDOG_EXPIRY (R456). SVC_WDOG.PERIOD ms pass without a KICK, and the active core is reset and handed over. -/
  | watchdogExpiry
  /-- KICK (R456). A write of SVC_WDOG.KICK restarts the watchdog period. -/
  | kick
  /-- STANDBY_RUN (R455). A write of SVC_CTL.STANDBY_RUN = 1 starts the former active core as standby. -/
  | standbyRun
  /-- SVC_XREL (R454). A write of SVC_XREL makes service SRAM pages writable and not executable. -/
  | svcXrel (page count : Nat)
  /-- TILE_MOVE (R462). A write with GO = 1 to TILE_MOVE moves a slot to a new position, or is refused. -/
  | tileMove (value : Word)
  /-- TILE_CORE_START (R469). A TILE_BOOT_RUN bit going 0 to 1 starts a core at TILE_BOOT_START. -/
  | tileCoreStart (p c : Nat)
  /-- TILE_CORE_RESET (R469). A TILE_BOOT_RUN bit going 1 to 0 stops, drains and resets a core. -/
  | tileCoreReset (p c : Nat)
  /-- BB_WR_GO (R465). A write of BB_WR_GO writes a firmware black-box record, or counts a drop under FREEZE. -/
  | bbWrGo
  /-- MGMT_FRAME_RECEIVE (R464). A management frame arrives and is written to an owned receive descriptor or dropped. -/
  | mgmtFrameReceive (frame : List Byte) (fcsOk : Bool)
  /-- TX_KICK (R464). A write of MGMT_IDX.TX_KICK sends the owned transmit descriptors in ring order. -/
  | txKick
  /-- MGMT_FRAME_SENT (R464). A management frame has been sent and its descriptor returned. -/
  | mgmtFrameSent
  /-- WAKE_IN (R483). A rising WAKE_IN held high for 1 µs adds an arrival at AON source 7,040. -/
  | wakeIn
  /-- STATUS (R492). SMBus command STATUS returns the device state word. -/
  | smbStatus (q : SmbReq)
  /-- TEMP (R492). SMBus command TEMP returns the hottest sensor reading. -/
  | smbTemp (q : SmbReq)
  /-- WAKE (R492). SMBus command WAKE with 0xA5 adds an arrival at source 7,042. -/
  | smbWake (q : SmbReq) (value : Byte)
  /-- ID (R492). SMBus command ID returns FUSE_ID_0 and FUSE_ID_1. -/
  | smbId (q : SmbReq)
  /-- MAILBOX_WRITE (R492). SMBus MAILBOX block write stores BRD_MBOX.VALUE and sets VALID. -/
  | smbMailboxWrite (q : SmbReq) (bytes : List Byte)
  /-- MAILBOX_READ (R492). SMBus MAILBOX block read returns BRD_MBOX.VALUE. -/
  | smbMailboxRead (q : SmbReq)
  /-- BB_INDEX_WRITE (R492). SMBus BB_INDEX write sets the record index. -/
  | smbIndexWrite (q : SmbReq) (index : BitVec 16)
  /-- BB_INDEX_READ (R492). SMBus BB_INDEX read returns the record index. -/
  | smbIndexRead (q : SmbReq)
  /-- BB_READ (R492). SMBus BB_READ returns a black-box record and advances BB_INDEX. -/
  | smbRecord (q : SmbReq)
  /-- BB_STAT (R492). SMBus BB_STAT returns the BB_STAT value. -/
  | smbBbStat (q : SmbReq)
  /-- ADDR (R492). SMBus ADDR sets the target address from the next STOP. -/
  | smbAddr (q : SmbReq) (value : Byte)
  /-- SMBUS_CLOCK_TIMEOUT (R492). SMB clock held low for 30 ms resets the target's interface. -/
  | smbusClockTimeout
  /-- PMB_SEND_BYTE (R493). PMB_CMD PROTO 0 runs a PMBus send byte transaction. -/
  | pmbSendByte (value : Word)
  /-- PMB_WRITE_BYTE (R493). PMB_CMD PROTO 1 runs a write byte transaction. -/
  | pmbWriteByte (value : Word)
  /-- PMB_WRITE_WORD (R493). PMB_CMD PROTO 2 runs a write word transaction. -/
  | pmbWriteWord (value : Word)
  /-- PMB_READ_BYTE (R493). PMB_CMD PROTO 3 runs a read byte transaction. -/
  | pmbReadByte (value : Word)
  /-- PMB_READ_WORD (R493). PMB_CMD PROTO 4 runs a read word transaction. -/
  | pmbReadWord (value : Word)
  /-- PMB_BLOCK_READ (R493). PMB_CMD PROTO 5 runs a block read transaction. -/
  | pmbBlockRead (value : Word)
  /-- PMB_BLOCK_WRITE (R493). PMB_CMD PROTO 6 runs a block write transaction. -/
  | pmbBlockWrite (value : Word)
  /-- PMB_REFUSED (R491). PMB_CMD with PROTO 7 to 15 is refused with STATUS 5. -/
  | pmbRefused (value : Word)
  /-- PMB_DONE (R491). A PMBus transaction ends and its STATUS is set. -/
  | pmbDone (status : Nat) (data : Word)
  /-- MSI_WRITE (R488). An inbound write to PCIE_MSI.ADDR adds an arrival at a vector source, or sets MSI_BAD. -/
  | msiWrite (data : BitVec 32)
  /-- PCIE_INBOUND (R488). An inbound PCIe request is matched against the windows and performed or completed as UR. -/
  | pcieInbound (r : PcieReq)
  /-- PCIE_OUT_WINDOW (R489). An LD64 or ST64 in the outbound window, at this offset in the PCIe block, becomes an 8-byte PCIe memory request. -/
  | pcieOutWindow (who : Who) (offset : Nat) (write : Bool) (value : PW)
  /-- PCIE_MEM_READ (R489). PCIE_OUT_CMD KIND 0 issues a memory read. -/
  | pcieMemRead (size : BitVec 2)
  /-- PCIE_MEM_WRITE (R489). PCIE_OUT_CMD KIND 1 issues a memory write. -/
  | pcieMemWrite (size : BitVec 2)
  /-- PCIE_CFG_READ (R489). PCIE_OUT_CMD KIND 2 issues a configuration read, refused in endpoint mode. -/
  | pcieCfgRead (size : BitVec 2)
  /-- PCIE_CFG_WRITE (R489). PCIE_OUT_CMD KIND 3 issues a configuration write, refused in endpoint mode. -/
  | pcieCfgWrite (size : BitVec 2)
  /-- PCIE_OUT_COMPLETE (R489). An outbound request completes, fails or times out after 50 ms. -/
  | pcieOutComplete (status : Nat) (data : PW)
  /-- HOT_RESET (R490). A write of PCIE_CTL.HOT_RESET sends a hot reset in root port mode. -/
  | hotReset
  /-- PCIE_MSIX_SEND (R490). A write of PCIE_MSIX_SEND sends an MSI-X vector in endpoint mode. -/
  | pcieMsixSend (vector : BitVec 6)
  /-- PERST_ASSERT (R496). PCIE_PERST_N is asserted and requests in flight are discarded. -/
  | perstAssert
  /-- PCIE_LINK_CHANGE (R490). The PCIe link state changes, setting a PCIE_EVT bit and its event. -/
  | pcieLinkChange (ltssm width rate : Nat) (flit : Bool)
  /-- EXTEST (R494). JTAG instruction EXTEST drives and captures the boundary register. -/
  | extest (pins shift : List Bool)
  /-- IDCODE (R494). JTAG instruction IDCODE selects the identification register. -/
  | idcode
  /-- SAMPLE_PRELOAD (R494). JTAG instruction SAMPLE/PRELOAD samples the boundary register. -/
  | samplePreload (pins shift : List Bool)
  /-- EXTEST_PULSE (R494). JTAG instruction EXTEST_PULSE tests AC-coupled links. -/
  | extestPulse (pins shift : List Bool)
  /-- EXTEST_TRAIN (R494). JTAG instruction EXTEST_TRAIN tests AC-coupled links with a pulse train. -/
  | extestTrain (pins shift : List Bool)
  /-- DEBUG_ACCESS (R494). JTAG Kyxawa debug access instructions, closed to bypass by DEBUG_CLOSE. -/
  | debugAccess (code : BitVec 8) (word : Word)
  /-- BYPASS (R494). JTAG instruction BYPASS, or any other code, selects the bypass register. -/
  | bypass (code : BitVec 8)
  /-- CODEWORD_LOCK (R304). In ALIGN the receiver finds the codeword boundary from SYNC, synchronises its scrambler and the link moves to CREDIT_INIT. -/
  | codewordLock (n : Nat)
  /-- RETIRE_WAIT_EXPIRY (R324). A retiring link's 100 µs wait for its replay buffer to empty runs out and it sends RETIRE anyway. -/
  | retireWaitExpiry (n : Nat)
  /-- CHAIN_OUT_CONNECT (R390). The CHAIN_OUT input changes between connected and unconnected, updating CHAIN_STAT.DOWN_CONN. -/
  | chainOutConnect (conn : Bool)
  /-- MGMT_LINK_CHANGE (R464). The 10GBASE-KR management lane trains up or goes down, giving an arrival at source 7,656. -/
  | mgmtLinkChange (up : Bool)
  /-- PLL_LOCK_LOSS (R62). An I/O die's transmit PLL loses lock, signalled by pulse crossing 2 to the slice's link status logic. -/
  | pllLockLoss (i : Nat)
  /-- SLEW_END (R432). SLEW_LEFT reaches 0, the time base returns to TB_INCR and SLEWING clears. -/
  | slewEnd
  /-- PWRGD_AON_FALL (R482). PWRGD_AON falls or VAON is lost, and the device becomes unpowered with the AON domain stopped. -/
  | pwrgdAonFall
deriving DecidableEq, Repr

end Sys2Proof
end

