-- ==== Sys2Proof/Decode.lean ====
section
/-!
DEFINITION. Commands spelt by bits. spec/opcode_table.json gives no row any bits, so no word spells a command
(assumption log entry 28). The syllables of a core, which the spec does encode, are decoded in Machine/Syllable.lean.
-/

namespace Sys2Proof

/-- The command that a word spells by the table's bits: none, for the table gives no row any. -/
def decodeTableWord (_nbits _w : Nat) : Option Instr := none

end Sys2Proof
end

