-- ==== Sys2Proof/Config.lean ====
section
/-!
DEFINITION. What the spec leaves free: constants without a body, so that no proof can see a value of them.
Assumption log entry 3 names each of them.
-/

namespace Sys2Proof

/-- The raw 39-bit content of a DRAM word that nothing has written since power-up (R250): one free value for
each read, numbered by the state's counter of free values. -/
opaque Config.freeRaw : Nat → BitVec 39

/-- CORE_ID.LOGICAL_CORE of a core whose position serves no slot (R28, R92): the spec numbers only the cores of slots
(assumption log entry 73). -/
opaque Config.spareLogical : (core : Nat) → BitVec 11

/-- The hash of a bundle address and branch history that indexes a tagged direction table (R168); the spec names
the hash and gives no formula. -/
opaque Config.predIndex : (table : Nat) → (address : BitVec 64) → (history : List Bool) → Nat

/-- The tag hash of a tagged direction table (R168). -/
opaque Config.predTag : (table : Nat) → (address : BitVec 64) → (history : List Bool) → Nat

/-- SHA-512 of a byte string, as eight 64-bit words, word 0 first (R446, R457): the algorithm is named, not
given, by the spec. -/
opaque Config.sha512 : List (BitVec 8) → List (BitVec 64)

/-- Whether an RSA-4096 signature is good for a digest under a public key (R446): the algorithm is named, not
given, by the spec. -/
opaque Config.rsaGood : (key : List (BitVec 8)) → (digest : List (BitVec 64)) → (signature : List (BitVec 8)) → Bool

/-- The RSA-4096 signature the device identity key makes of a digest (R458). -/
opaque Config.identitySign : (digest : List (BitVec 64)) → List (BitVec 8)

/-- The bytes of the boot ROM (R453): the spec gives its size and place, not its content. -/
opaque Config.bootRom : Nat → BitVec 8

/-- A 64-bit value the spec leaves open, one for each use, numbered by the state's counter of free values. -/
opaque Config.freeWord : Nat → BitVec 64

end Sys2Proof
end

