-- ==== Sys2Proof/Machine/Bits.lean ====
section
/-!
DEFINITION. Bit-field, extension and byte-order helpers (R5, R6), and the sparse maps the state is made of.
-/

namespace Sys2Proof

/-- What a sparse map holds at `k`, `d` where it lists nothing. -/
def SMap.get {α : Type} : SMap α → α → Nat → α
  | [], d, _ => d
  | (k', v) :: r, d, k => if k = k' then v else SMap.get r d k

/-- The map with an entry `v` at `k`, in the place its key has. -/
def SMap.insert {α : Type} : SMap α → Nat → α → SMap α
  | [], k, v => [(k, v)]
  | (k', v') :: r, k, v =>
    if k < k' then (k, v) :: (k', v') :: r
    else if k = k' then (k, v) :: r
    else (k', v') :: SMap.insert r k v

/-- The map with `v` at `k`; storing the unlisted value `d` removes the entry, so the form stays canonical. -/
def SMap.put {α : Type} [DecidableEq α] (m : SMap α) (d : α) (k : Nat) (v : α) : SMap α :=
  if v = d then m.filter fun p => p.1 != k else m.insert k v

/-- The map without its keys from `lo` to `hi - 1`. -/
def SMap.eraseRange {α : Type} (m : SMap α) (lo hi : Nat) : SMap α :=
  m.filter fun p => !(lo ≤ p.1 && p.1 < hi)

/-- Keys strictly rise from above `lo`, and no entry equals the unlisted value `d`. -/
def SMap.wfFrom {α : Type} [DecidableEq α] (d : α) : Option Nat → SMap α → Bool
  | _, [] => true
  | lo, (k, v) :: r => (match lo with | none => true | some l => decide (l < k)) && decide (v ≠ d) && SMap.wfFrom d (some k) r

/-- The canonical form of a sparse map. -/
def SMap.wf {α : Type} [DecidableEq α] (d : α) (m : SMap α) : Bool := SMap.wfFrom d none m

end Sys2Proof

namespace Sys2Proof.Machine

/-- The value of field `f` of `w` (R5). -/
def fget (f : Fld) (w : Word) : Nat := w.toNat / 2 ^ f.lo % 2 ^ (f.hi - f.lo + 1)

/-- The ones of field `f`. -/
def fmask (f : Fld) : Word := BitVec.ofNat 64 ((2 ^ (f.hi - f.lo + 1) - 1) * 2 ^ f.lo)

/-- `w` with field `f` holding `v` modulo its width. -/
def fput (f : Fld) (v : Nat) (w : Word) : Word :=
  (w &&& ~~~ fmask f) ||| (BitVec.ofNat 64 (v * 2 ^ f.lo) &&& fmask f)

/-- Whether field `f` is non-zero. -/
def fset? (f : Fld) (w : Word) : Bool := fget f w != 0

/-- A truth value as a number. -/
def b2n (b : Bool) : Nat := if b then 1 else 0

/-- Saturating addition with ceiling `top`. -/
def satAdd (top a b : Nat) : Nat := min top (a + b)

/-- Bits [hi:lo] of a number. -/
def nbits (hi lo n : Nat) : Nat := n / 2 ^ lo % 2 ^ (hi - lo + 1)

/-- Bit `i` of a number. -/
def nbit (i n : Nat) : Bool := n / 2 ^ i % 2 == 1

/-- The `n` bytes of `v`, least significant first (R6). -/
def toBytes : Nat → Nat → List Byte
  | 0, _ => []
  | n + 1, v => BitVec.ofNat 8 v :: toBytes n (v / 256)

/-- The number whose bytes are `bs`, least significant first (R6). -/
def ofBytes : List Byte → Nat
  | [] => 0
  | b :: bs => b.toNat + 256 * ofBytes bs

/-- The low `n` bits of `v`, sign-extended to 64. -/
def sextN (n v : Nat) : Word :=
  if n = 0 then 0
  else if v % 2 ^ n < 2 ^ (n - 1) then BitVec.ofNat 64 (v % 2 ^ n)
  else BitVec.ofNat 64 (2 ^ 64 - 2 ^ n + v % 2 ^ n)

/-- Insert a number into a strictly rising list. -/
def nset : List Nat → Nat → List Nat
  | [], k => [k]
  | k' :: r, k => if k < k' then k :: k' :: r else if k = k' then k' :: r else k' :: nset r k

/-- Whether every listed condition holds. -/
def allOf (l : List Bool) : Bool := l.all id

/-- The numbers `lo, lo+1, …, lo+n-1`. -/
def numsFrom (lo : Nat) : Nat → List Nat
  | 0 => []
  | n + 1 => lo :: numsFrom (lo + 1) n

end Sys2Proof.Machine
end

