-- ==== Sys2Proof/Machine/Regs.lean ====
section
/-!
DEFINITION. The registers of control space and the system registers, by name: the address of each
(`NAME.adr`, from the block map R37 and the owning chapter's table) and its bit fields (`NAME.FIELD`).
Transcribed from the register tables of spec/ 02 to 15.
-/

namespace Sys2Proof.Machine

/-- CAL_CTL: address in the handshake window at `w` (spec/02, R50). -/
def CAL_CTL.adr (w : Nat) : Nat := w + 0
def CAL_CTL.INTERVAL : Fld := ⟨31, 16⟩
def CAL_CTL.GUARD : Fld := ⟨15, 8⟩
def CAL_CTL.FREEZE : Fld := ⟨3, 3⟩
def CAL_CTL.STEP : Fld := ⟨1, 1⟩
def CAL_CTL.ENABLE : Fld := ⟨0, 0⟩

/-- CAL_SEL: address in the handshake window at `w` (spec/02, R50). -/
def CAL_SEL.adr (w : Nat) : Nat := w + 8
def CAL_SEL.LINE : Fld := ⟨15, 0⟩

/-- CAL_TRIM: address in the handshake window at `w` (spec/02, R50). -/
def CAL_TRIM.adr (w : Nat) : Nat := w + 0x10
def CAL_TRIM.FLOOR : Fld := ⟨29, 24⟩
def CAL_TRIM.FUSED : Fld := ⟨21, 16⟩
def CAL_TRIM.TRIM : Fld := ⟨5, 0⟩

/-- CAL_MARGIN: address in the handshake window at `w` (spec/02, R50). -/
def CAL_MARGIN.adr (w : Nat) : Nat := w + 0x18
def CAL_MARGIN.NEAR_MISS : Fld := ⟨31, 0⟩

/-- CAL_STAT: address in the handshake window at `w` (spec/02, R50). -/
def CAL_STAT.adr (w : Nat) : Nat := w + 0x20
def CAL_STAT.AT_LIMIT : Fld := ⟨31, 16⟩
def CAL_STAT.PASS_BUSY : Fld := ⟨3, 3⟩
def CAL_STAT.LIMIT : Fld := ⟨2, 2⟩
def CAL_STAT.NEAR_MISS_SEEN : Fld := ⟨1, 1⟩
def CAL_STAT.PASS_DONE : Fld := ⟨0, 0⟩

/-- CAL_COUNT: address in the handshake window at `w` (spec/02, R50). -/
def CAL_COUNT.adr (w : Nat) : Nat := w + 0x38
def CAL_COUNT.PASSES : Fld := ⟨63, 32⟩
def CAL_COUNT.ADJUSTS : Fld := ⟨31, 0⟩

/-- CAL_LINES: address in the handshake window at `w` (spec/02, R50). -/
def CAL_LINES.adr (w : Nat) : Nat := w + 0x40
def CAL_LINES.COUNT : Fld := ⟨15, 0⟩

/-- XSUM: address in the handshake window at `w` (spec/02, R50). -/
def XSUM.adr (w : Nat) : Nat := w + 0x48
def XSUM.FLAGGED : Fld := ⟨31, 0⟩

/-- XSTAT: address in the handshake window at `w` (spec/02, R61). -/
def XSTAT.adr (w n : Nat) : Nat := w + 0x800 + n * 0x40
def XSTAT.KIND : Fld := ⟨23, 20⟩
def XSTAT.STATE : Fld := ⟨19, 16⟩
def XSTAT.LEVEL : Fld := ⟨15, 8⟩
def XSTAT.DST_STOPPED : Fld := ⟨3, 3⟩
def XSTAT.OVERRUN : Fld := ⟨2, 2⟩
def XSTAT.RESYNC_SEEN : Fld := ⟨1, 1⟩
def XSTAT.TIMEOUT : Fld := ⟨0, 0⟩

/-- XCNT: address in the handshake window at `w` (spec/02, R61). -/
def XCNT.adr (w n : Nat) : Nat := w + 0x818 + n * 0x40
def XCNT.DISCARD : Fld := ⟨63, 32⟩
def XCNT.RESYNCS : Fld := ⟨31, 16⟩

/-- XCTL: address in the handshake window at `w` (spec/02, R61). -/
def XCTL.adr (w n : Nat) : Nat := w + 0x820 + n * 0x40
def XCTL.RESYNC : Fld := ⟨0, 0⟩

/-- CORE_ID: system register number (spec/03, R93). -/
def CORE_ID.num : Nat := 0
def CORE_ID.DEVICE : Fld := ⟨63, 48⟩
def CORE_ID.PHYS_CORE : Fld := ⟨43, 32⟩
def CORE_ID.LOGICAL_CORE : Fld := ⟨10, 0⟩

/-- FEAT_0: system register number (spec/03, R93). -/
def FEAT_0.num : Nat := 1
def FEAT_0.ARCH_REV : Fld := ⟨63, 56⟩
def FEAT_0.COP_MASK : Fld := ⟨47, 40⟩
def FEAT_0.UNITS : Fld := ⟨31, 24⟩
def FEAT_0.VLEN : Fld := ⟨23, 16⟩
def FEAT_0.REAM_ACC : Fld := ⟨15, 12⟩
def FEAT_0.REAM : Fld := ⟨7, 7⟩
def FEAT_0.HALF : Fld := ⟨6, 6⟩
def FEAT_0.MULDIV : Fld := ⟨5, 5⟩

/-- FEAT_1: system register number (spec/03, R93). -/
def FEAT_1.num : Nat := 2
def FEAT_1.L1I_KIB : Fld := ⟨63, 56⟩
def FEAT_1.L1I_WAYS : Fld := ⟨55, 52⟩
def FEAT_1.LINE_LOG2 : Fld := ⟨51, 48⟩
def FEAT_1.L1D_KIB : Fld := ⟨47, 40⟩
def FEAT_1.L1D_WAYS : Fld := ⟨39, 36⟩
def FEAT_1.LB_LINES : Fld := ⟨35, 32⟩
def FEAT_1.SB_ENTRIES : Fld := ⟨31, 24⟩
def FEAT_1.RS_ENTRIES : Fld := ⟨23, 16⟩
def FEAT_1.ETLB_ENTRIES : Fld := ⟨15, 8⟩

/-- FEAT_2: system register number (spec/03, R93). -/
def FEAT_2.num : Nat := 3
def FEAT_2.VA_BITS : Fld := ⟨63, 56⟩
def FEAT_2.PA_BITS : Fld := ⟨55, 48⟩
def FEAT_2.LOCAL_BITS : Fld := ⟨47, 40⟩
def FEAT_2.PAGE_SIZES : Fld := ⟨12, 0⟩

/-- FEAT_3: system register number (spec/03, R93). -/
def FEAT_3.num : Nat := 4
def FEAT_3.PART : Fld := ⟨63, 48⟩
def FEAT_3.STEPPING : Fld := ⟨47, 40⟩
def FEAT_3.TILES_PHYS : Fld := ⟨31, 24⟩
def FEAT_3.TILES_LOG : Fld := ⟨23, 16⟩
def FEAT_3.CORES_PER_TILE : Fld := ⟨15, 8⟩
def FEAT_3.DIES : Fld := ⟨7, 0⟩

/-- STATUS: system register number (spec/03, R93). -/
def STATUS.num : Nat := 0x10
def STATUS.RDIRTY : Fld := ⟨15, 15⟩
def STATUS.VDIRTY : Fld := ⟨14, 14⟩
def STATUS.XLATE : Fld := ⟨11, 11⟩
def STATUS.MPPL : Fld := ⟨10, 9⟩
def STATUS.MPIE : Fld := ⟨8, 8⟩
def STATUS.SPPL : Fld := ⟨5, 5⟩
def STATUS.SPIE : Fld := ⟨4, 4⟩
def STATUS.IE : Fld := ⟨2, 2⟩
def STATUS.PL : Fld := ⟨1, 0⟩

/-- EPC: system register number (spec/03, R93). -/
def EPC.num : Nat := 0x11
def EPC.ADDR : Fld := ⟨63, 2⟩

/-- CAUSE: system register number (spec/03, R93). -/
def CAUSE.num : Nat := 0x12
def CAUSE.INT : Fld := ⟨63, 63⟩
def CAUSE.SLOT : Fld := ⟨14, 12⟩
def CAUSE.BLEN : Fld := ⟨11, 8⟩
def CAUSE.CODE : Fld := ⟨7, 0⟩

/-- BADADDR: system register number (spec/03, R93). -/
def BADADDR.num : Nat := 0x13
def BADADDR.ADDR : Fld := ⟨63, 0⟩

/-- BADSYL: system register number (spec/03, R93). -/
def BADSYL.num : Nat := 0x14
def BADSYL.SYL : Fld := ⟨31, 0⟩

/-- TVEC: system register number (spec/03, R93). -/
def TVEC.num : Nat := 0x15
def TVEC.BASE : Fld := ⟨63, 11⟩

/-- SCRATCH_S: system register number (spec/03, R93). -/
def SCRATCH_S.num : Nat := 0x16
def SCRATCH_S.VALUE : Fld := ⟨63, 0⟩

/-- WATCH: system register number (spec/03, R93). -/
def WATCH.num : Nat := 0x17
def WATCH.LINE : Fld := ⟨63, 6⟩
def WATCH.FETCH : Fld := ⟨2, 2⟩
def WATCH.STORE : Fld := ⟨1, 1⟩
def WATCH.LOAD : Fld := ⟨0, 0⟩

/-- TRAP_ROUTE: system register number (spec/03, R93). -/
def TRAP_ROUTE.num : Nat := 0x26
def TRAP_ROUTE.INT_PERF_OVF : Fld := ⟨17, 17⟩
def TRAP_ROUTE.INT_EVENT : Fld := ⟨16, 16⟩
def TRAP_ROUTE.CAUSE : Fld := ⟨15, 1⟩

/-- FPMODE: system register number (spec/04, R116). -/
def FPMODE.num : Nat := 0x30
def FPMODE.CVTZ : Fld := ⟨5, 5⟩
def FPMODE.DN : Fld := ⟨4, 4⟩
def FPMODE.RM : Fld := ⟨2, 0⟩

/-- FPSTAT: system register number (spec/04, R116). -/
def FPSTAT.num : Nat := 0x31
def FPSTAT.NV : Fld := ⟨4, 4⟩
def FPSTAT.DZ : Fld := ⟨3, 3⟩
def FPSTAT.OF : Fld := ⟨2, 2⟩
def FPSTAT.UF : Fld := ⟨1, 1⟩
def FPSTAT.NX : Fld := ⟨0, 0⟩

/-- CORE_CTL: system register number (spec/06, R178). -/
def CORE_CTL.num : Nat := 0x40
def CORE_CTL.PRED_FLUSH : Fld := ⟨4, 4⟩
def CORE_CTL.SPEC_OFF : Fld := ⟨2, 2⟩
def CORE_CTL.SPEC_FILL_HOLD : Fld := ⟨0, 0⟩

/-- PERF_CTL: system register number (spec/06, R189). -/
def PERF_CTL.num (n : Nat) : Nat := 0x70 + n
def PERF_CTL.OVF : Fld := ⟨31, 31⟩
def PERF_CTL.OVF_INT : Fld := ⟨30, 30⟩
def PERF_CTL.PATH : Fld := ⟨27, 26⟩
def PERF_CTL.MON : Fld := ⟨24, 24⟩
def PERF_CTL.SUP : Fld := ⟨23, 23⟩
def PERF_CTL.USR : Fld := ⟨22, 22⟩
def PERF_CTL.ENABLE : Fld := ⟨21, 21⟩
def PERF_CTL.EVENT : Fld := ⟨7, 0⟩

/-- PERF_CNT: system register number (spec/06, R189). -/
def PERF_CNT.num (n : Nat) : Nat := 0x78 + n
def PERF_CNT.COUNT : Fld := ⟨63, 0⟩

/-- ETLB_INDEX: system register number (spec/07, R204). -/
def ETLB_INDEX.num : Nat := 0x50
def ETLB_INDEX.MISS : Fld := ⟨63, 63⟩
def ETLB_INDEX.NEXT : Fld := ⟨29, 24⟩
def ETLB_INDEX.WIRED : Fld := ⟨21, 16⟩
def ETLB_INDEX.CMD : Fld := ⟨14, 12⟩
def ETLB_INDEX.INDEX : Fld := ⟨5, 0⟩

/-- ETLB_HI: system register number (spec/07, R204). -/
def ETLB_HI.num : Nat := 0x51
def ETLB_HI.VPN : Fld := ⟨55, 16⟩
def ETLB_HI.SIZE : Fld := ⟨15, 12⟩
def ETLB_HI.ASID : Fld := ⟨7, 0⟩

/-- ETLB_LO: system register number (spec/07, R204). -/
def ETLB_LO.num : Nat := 0x52
def ETLB_LO.PPN : Fld := ⟨55, 16⟩
def ETLB_LO.ATTR : Fld := ⟨11, 10⟩
def ETLB_LO.G : Fld := ⟨9, 9⟩
def ETLB_LO.V : Fld := ⟨8, 8⟩
def ETLB_LO.SX : Fld := ⟨6, 6⟩
def ETLB_LO.SW : Fld := ⟨5, 5⟩
def ETLB_LO.SR : Fld := ⟨4, 4⟩
def ETLB_LO.UX : Fld := ⟨2, 2⟩
def ETLB_LO.UW : Fld := ⟨1, 1⟩
def ETLB_LO.UR : Fld := ⟨0, 0⟩

/-- SEG_CTL: address (spec/07, R210). -/
def SEG_CTL.adr (n i : Nat) : Nat := 0xc000001000 + n * 0x100000 + i * 8
def SEG_CTL.VALID_LINES : Fld := ⟨28, 16⟩
def SEG_CTL.REFUSED : Fld := ⟨4, 4⟩
def SEG_CTL.ERASE : Fld := ⟨3, 3⟩
def SEG_CTL.MODE : Fld := ⟨1, 0⟩

/-- TILE_MAP: address (spec/07, R221). -/
def TILE_MAP.adr (n i : Nat) : Nat := 0xc010001000 + n * 0x1000000 + i * 8
def TILE_MAP.ABSENT : Fld := ⟨7, 7⟩
def TILE_MAP.POSITION : Fld := ⟨4, 0⟩

/-- FABRIC_ROUTE: address (spec/07, R221). -/
def FABRIC_ROUTE.adr (n : Nat) : Nat := 0xc010003000 + n * 0x1000000
def FABRIC_ROUTE.DIR : Fld := ⟨15, 0⟩

/-- HOME_CTL: address (spec/07, R221). -/
def HOME_CTL.adr : Nat := 0xc010002000
def HOME_CTL.REHOMES : Fld := ⟨47, 32⟩
def HOME_CTL.REFUSED : Fld := ⟨2, 2⟩
def HOME_CTL.LOCKED : Fld := ⟨0, 0⟩

/-- REHOME: address (spec/07, R221). -/
def REHOME.adr : Nat := 0xc010002018
def REHOME.START : Fld := ⟨63, 63⟩
def REHOME.ENTRY : Fld := ⟨41, 32⟩
def REHOME.SEG : Fld := ⟨19, 16⟩
def REHOME.LTILE : Fld := ⟨14, 8⟩
def REHOME.VALID : Fld := ⟨0, 0⟩

/-- DRAM_MAP: address (spec/07, R221). -/
def DRAM_MAP.adr : Nat := 0xc010002020
def DRAM_MAP.MODE : Fld := ⟨1, 0⟩

/-- HOME_MAP: address (spec/07, R221). -/
def HOME_MAP.adr (n : Nat) : Nat := 0xc010100000 + n * 8
def HOME_MAP.SEG : Fld := ⟨19, 16⟩
def HOME_MAP.LTILE : Fld := ⟨14, 8⟩
def HOME_MAP.MOVING : Fld := ⟨1, 1⟩
def HOME_MAP.VALID : Fld := ⟨0, 0⟩

/-- MC_STATE: address (spec/07, R224). -/
def MC_STATE.adr (n : Nat) : Nat := 0xc020000000 + n * 0x100000
def MC_STATE.STATE : Fld := ⟨3, 0⟩

/-- PSTORE_ERR: address (spec/07, R227). -/
def PSTORE_ERR.adr (n i : Nat) : Nat := 0xc000001100 + n * 0x100000 + i * 8
def PSTORE_ERR.LOST : Fld := ⟨63, 48⟩
def PSTORE_ERR.CODE : Fld := ⟨7, 0⟩

/-- SEG_REPAIR: address (spec/08, R247). -/
def SEG_REPAIR.adr (n : Nat) : Nat := 0xc000002200 + n * 0x100000
def SEG_REPAIR.RETIRED : Fld := ⟨47, 32⟩
def SEG_REPAIR.REFUSED : Fld := ⟨16, 16⟩
def SEG_REPAIR.LIGHT : Fld := ⟨15, 0⟩

/-- DRAM_CODE: address (spec/08, R247). -/
def DRAM_CODE.adr (n : Nat) : Nat := 0xc020006000 + n * 8
def DRAM_CODE.REFUSED : Fld := ⟨2, 2⟩
def DRAM_CODE.CONVERTING : Fld := ⟨1, 1⟩
def DRAM_CODE.LIGHT : Fld := ⟨0, 0⟩

/-- FILL_CTL: address (spec/08, R251). -/
def FILL_CTL.adr (n : Nat) : Nat := 0xc020002200 + n * 0x100000
def FILL_CTL.DONE : Fld := ⟨3, 3⟩
def FILL_CTL.POISON : Fld := ⟨1, 1⟩
def FILL_CTL.GO : Fld := ⟨0, 0⟩

/-- FILL_START: address (spec/08, R251). -/
def FILL_START.adr (n : Nat) : Nat := 0xc020002208 + n * 0x100000
def FILL_START.BLOCK : Fld := ⟨25, 0⟩

/-- FILL_END: address (spec/08, R251). -/
def FILL_END.adr (n : Nat) : Nat := 0xc020002210 + n * 0x100000
def FILL_END.BLOCK : Fld := ⟨25, 0⟩

/-- FILL_PATTERN: address (spec/08, R251). -/
def FILL_PATTERN.adr (n : Nat) : Nat := 0xc020002218 + n * 0x100000
def FILL_PATTERN.VALUE : Fld := ⟨63, 0⟩

/-- REC_CTL: address in the register group at `b` (spec/08, R253). -/
def REC_CTL.adr (b : Nat) : Nat := b + 0x2030
def REC_CTL.UNTRACKED : Fld := ⟨63, 48⟩
def REC_CTL.DECAY : Fld := ⟨47, 32⟩
def REC_CTL.HARD_AFTER : Fld := ⟨15, 8⟩
def REC_CTL.REWRITE_AT : Fld := ⟨7, 0⟩

/-- REC_ENTRY: address in the register group at `b` (spec/08, R253). -/
def REC_ENTRY.adr (b n : Nat) : Nat := b + 0x2100 + n * 8
def REC_ENTRY.VALID : Fld := ⟨63, 63⟩
def REC_ENTRY.STATE : Fld := ⟨62, 61⟩
def REC_ENTRY.COUNT : Fld := ⟨55, 48⟩
def REC_ENTRY.LOC : Fld := ⟨39, 0⟩

/-- SPARE_MAP: address (spec/08, R257). -/
def SPARE_MAP.adr (n i j : Nat) : Nat := 0xc000002400 + n * 0x100000 + i * 0x40 + j * 8
def SPARE_MAP.VALID : Fld := ⟨63, 63⟩
def SPARE_MAP.ROW : Fld := ⟨9, 0⟩

/-- DRAM_REMAP: address (spec/08, R257). -/
def DRAM_REMAP.adr (n i : Nat) : Nat := 0xc020003000 + n * 0x100000 + i * 8
def DRAM_REMAP.VALID : Fld := ⟨63, 63⟩
def DRAM_REMAP.BLOCK : Fld := ⟨25, 0⟩

/-- DRAM_RETIRE: address (spec/08, R257). -/
def DRAM_RETIRE.adr (n i : Nat) : Nat := 0xc020005000 + n * 0x100000 + i * 8
def DRAM_RETIRE.VALID : Fld := ⟨63, 63⟩
def DRAM_RETIRE.BLOCKED : Fld := ⟨62, 62⟩
def DRAM_RETIRE.UNIT : Fld := ⟨23, 0⟩

/-- BEAT_CTL: address in the register group at `b` (spec/08, R258). -/
def BEAT_CTL.adr (b : Nat) : Nat := b + 0x2038
def BEAT_CTL.PERIOD : Fld := ⟨63, 32⟩
def BEAT_CTL.PASS : Fld := ⟨1, 1⟩
def BEAT_CTL.ENABLE : Fld := ⟨0, 0⟩

/-- BEAT_STAT: address in the register group at `b` (spec/08, R258). -/
def BEAT_STAT.adr (b : Nat) : Nat := b + 0x2040
def BEAT_STAT.PASSES : Fld := ⟨63, 48⟩
def BEAT_STAT.LATE : Fld := ⟨47, 47⟩
def BEAT_STAT.POS : Fld := ⟨39, 0⟩

/-- DIAG_CMD: address in the register group at `b` (spec/08, R259). -/
def DIAG_CMD.adr (b : Nat) : Nat := b + 0x2048
def DIAG_CMD.GO : Fld := ⟨63, 63⟩
def DIAG_CMD.OP : Fld := ⟨59, 58⟩
def DIAG_CMD.LOC : Fld := ⟨39, 0⟩

/-- DIAG_WDATA: address in the register group at `b` (spec/08, R259). -/
def DIAG_WDATA.adr (b : Nat) : Nat := b + 0x2050
def DIAG_WDATA.CHECK : Fld := ⟨38, 32⟩
def DIAG_WDATA.DATA : Fld := ⟨31, 0⟩

/-- DIAG_RDATA: address in the register group at `b` (spec/08, R259). -/
def DIAG_RDATA.adr (b : Nat) : Nat := b + 0x2058
def DIAG_RDATA.CLASS : Fld := ⟨63, 61⟩
def DIAG_RDATA.SYNDROME : Fld := ⟨54, 48⟩
def DIAG_RDATA.CHECK : Fld := ⟨38, 32⟩
def DIAG_RDATA.DATA : Fld := ⟨31, 0⟩

/-- ERR_STAT: address in the register group at `b` (spec/08, R261). -/
def ERR_STAT.adr (b : Nat) : Nat := b + 0
def ERR_STAT.OVERFLOW : Fld := ⟨6, 6⟩
def ERR_STAT.SPARES_OUT : Fld := ⟨5, 5⟩
def ERR_STAT.RETIRED : Fld := ⟨4, 4⟩
def ERR_STAT.HARD : Fld := ⟨3, 3⟩
def ERR_STAT.UE : Fld := ⟨2, 2⟩
def ERR_STAT.CE : Fld := ⟨1, 1⟩
def ERR_STAT.FIRST : Fld := ⟨0, 0⟩

/-- ERR_COUNT: address in the register group at `b` (spec/08, R261). -/
def ERR_COUNT.adr (b : Nat) : Nat := b + 0x18
def ERR_COUNT.CE : Fld := ⟨63, 32⟩
def ERR_COUNT.UE : Fld := ⟨31, 16⟩
def ERR_COUNT.HARD : Fld := ⟨15, 0⟩

/-- ERR_ADDR: address in the register group at `b` (spec/08, R261). -/
def ERR_ADDR.adr (b : Nat) : Nat := b + 0x20
def ERR_ADDR.SOURCE : Fld := ⟨63, 61⟩
def ERR_ADDR.UNIT : Fld := ⟨60, 56⟩
def ERR_ADDR.LOC : Fld := ⟨39, 0⟩

def QSTAT.FREE : Fld := ⟨39, 32⟩
def QSTAT.UNCOMMITTED : Fld := ⟨31, 24⟩
def QSTAT.COMMITTED : Fld := ⟨23, 16⟩
def QSTAT.ABSORBING : Fld := ⟨15, 15⟩
def QSTAT.OPEN : Fld := ⟨14, 14⟩
def QSTAT.FLUSHING : Fld := ⟨13, 13⟩
def QSTAT.ABOVE_HIGH : Fld := ⟨12, 12⟩
def QSTAT.BELOW_LOW : Fld := ⟨11, 11⟩
def QSTAT.FLAGS : Fld := ⟨7, 0⟩

def QCTL.OPEN_LIMIT : Fld := ⟨47, 32⟩
def QCTL.EVMODE : Fld := ⟨5, 4⟩
def QCTL.FLUSH : Fld := ⟨0, 0⟩

def QWM.WM_HIGH : Fld := ⟨23, 16⟩
def QWM.WM_LOW : Fld := ⟨15, 8⟩
def QWM.ABOVE_HIGH : Fld := ⟨1, 1⟩
def QWM.BELOW_LOW : Fld := ⟨0, 0⟩

/-- Q_FLAGS: address (spec/09, R276). -/
def Q_FLAGS.adr (n i : Nat) : Nat := 0xc000004000 + n * 0x100000 + i * 0x40
def Q_FLAGS.LO_SEEN : Fld := ⟨6, 6⟩
def Q_FLAGS.HI_SEEN : Fld := ⟨5, 5⟩
def Q_FLAGS.STALE : Fld := ⟨4, 4⟩
def Q_FLAGS.BAD : Fld := ⟨3, 3⟩
def Q_FLAGS.OVERSIZE : Fld := ⟨2, 2⟩
def Q_FLAGS.UNDERRUN : Fld := ⟨1, 1⟩

/-- Q_COUNT: address (spec/09, R276). -/
def Q_COUNT.adr (n i : Nat) : Nat := 0xc000004018 + n * 0x100000 + i * 0x40
def Q_COUNT.HI_CROSS : Fld := ⟨63, 56⟩
def Q_COUNT.LO_CROSS : Fld := ⟨55, 48⟩
def Q_COUNT.REWINDS : Fld := ⟨47, 32⟩
def Q_COUNT.DISCARDED : Fld := ⟨31, 0⟩

/-- Q_PROD: address (spec/09, R276). -/
def Q_PROD.adr (n i : Nat) : Nat := 0xc000004020 + n * 0x100000 + i * 0x40
def Q_PROD.STATE : Fld := ⟨63, 62⟩
def Q_PROD.DEVICE : Fld := ⟨47, 32⟩
def Q_PROD.REQUESTER : Fld := ⟨15, 0⟩

/-- EV_HUB_STAT: address (spec/09, R286). -/
def EV_HUB_STAT.adr : Nat := 0xc050000000
def EV_HUB_STAT.DB_DROPPED : Fld := ⟨63, 32⟩

/-- EV_RING: address (spec/09, R286). -/
def EV_RING.adr : Nat := 0xc050000100
def EV_RING.DOORBELL : Fld := ⟨10, 0⟩

/-- EV_MASK: address (spec/09, R286). -/
def EV_MASK.adr (n : Nat) : Nat := 0xc050010000 + n * 0x20
def EV_MASK.MASK : Fld := ⟨63, 0⟩

/-- EV_PEND: address (spec/09, R286). -/
def EV_PEND.adr (n : Nat) : Nat := 0xc050020000 + n * 0x20
def EV_PEND.PEND : Fld := ⟨63, 0⟩

/-- EV_INSVC: address (spec/09, R286). -/
def EV_INSVC.adr (n : Nat) : Nat := 0xc050030000 + n * 8
def EV_INSVC.INSVC : Fld := ⟨63, 0⟩

/-- EV_SAT: address (spec/09, R286). -/
def EV_SAT.adr (n : Nat) : Nat := 0xc050040000 + n * 0x20
def EV_SAT.SAT : Fld := ⟨63, 0⟩

/-- EV_ACKOVER: address (spec/09, R286). -/
def EV_ACKOVER.adr (n : Nat) : Nat := 0xc050050000 + n * 0x20
def EV_ACKOVER.ACK_OVER : Fld := ⟨63, 0⟩

/-- EV_CFG: address (spec/09, R286). -/
def EV_CFG.adr (n : Nat) : Nat := 0xc050100000 + n * 0x20
def EV_CFG.KIND : Fld := ⟨31, 30⟩
def EV_CFG.PRIORITY : Fld := ⟨19, 16⟩
def EV_CFG.TARGET : Fld := ⟨10, 0⟩

/-- EV_COUNT: address (spec/09, R286). -/
def EV_COUNT.adr (n : Nat) : Nat := 0xc050100008 + n * 0x20
def EV_COUNT.SVC_CORE : Fld := ⟨42, 32⟩
def EV_COUNT.LEVEL : Fld := ⟨17, 17⟩
def EV_COUNT.INSVC : Fld := ⟨16, 16⟩
def EV_COUNT.COUNT : Fld := ⟨15, 0⟩

/-- EV_BOOK: address (spec/09, R286). -/
def EV_BOOK.adr (n : Nat) : Nat := 0xc050100010 + n * 0x20
def EV_BOOK.ARRIVED : Fld := ⟨63, 32⟩
def EV_BOOK.ACKED : Fld := ⟨31, 0⟩

/-- EV_CLAIM: address (spec/09, R286). -/
def EV_CLAIM.adr (n : Nat) : Nat := 0xc050200000 + n * 0x40
def EV_CLAIM.VALID : Fld := ⟨63, 63⟩
def EV_CLAIM.COUNT : Fld := ⟨47, 32⟩
def EV_CLAIM.LEVEL : Fld := ⟨28, 28⟩
def EV_CLAIM.PRIORITY : Fld := ⟨27, 24⟩
def EV_CLAIM.SOURCE : Fld := ⟨12, 0⟩

/-- EV_EOI: address (spec/09, R286). -/
def EV_EOI.adr (n : Nat) : Nat := 0xc050200008 + n * 0x40
def EV_EOI.AMOUNT : Fld := ⟨47, 32⟩
def EV_EOI.SOURCE : Fld := ⟨12, 0⟩

/-- EV_CORE_CTL: address (spec/09, R286). -/
def EV_CORE_CTL.adr (n : Nat) : Nat := 0xc050200010 + n * 0x40
def EV_CORE_CTL.THRESHOLD : Fld := ⟨3, 0⟩

/-- EV_CORE_STAT: address (spec/09, R286). -/
def EV_CORE_STAT.adr (n : Nat) : Nat := 0xc050200018 + n * 0x40
def EV_CORE_STAT.INSVC_COUNT : Fld := ⟨63, 48⟩
def EV_CORE_STAT.BAD_EOI : Fld := ⟨1, 1⟩
def EV_CORE_STAT.EVENT : Fld := ⟨0, 0⟩

/-- WW_SLOT: address (spec/09, R290). -/
def WW_SLOT.adr (n : Nat) : Nat := 0xc050300000 + n * 8
def WW_SLOT.ENABLE : Fld := ⟨63, 63⟩
def WW_SLOT.ACTION : Fld := ⟨59, 58⟩
def WW_SLOT.SOURCE : Fld := ⟨12, 0⟩

/-- WW_STAT: address (spec/09, R290). -/
def WW_STAT.adr : Nat := 0xc050300200
def WW_STAT.BUSY : Fld := ⟨0, 0⟩

/-- WW_FIRED: address (spec/09, R290). -/
def WW_FIRED.adr : Nat := 0xc050300208
def WW_FIRED.FIRED : Fld := ⟨63, 0⟩

/-- LNK_CTL: address (spec/10, R326). -/
def LNK_CTL.adr (n : Nat) : Nat := 0xc030000000 + n * 0x10000
def LNK_CTL.RETIRE : Fld := ⟨31, 31⟩
def LNK_CTL.FULL_TRAIN : Fld := ⟨28, 28⟩
def LNK_CTL.RETRAIN : Fld := ⟨27, 27⟩
def LNK_CTL.TEST : Fld := ⟨26, 24⟩
def LNK_CTL.PWR_REQ : Fld := ⟨17, 16⟩
def LNK_CTL.AUTO_QUIET : Fld := ⟨12, 12⟩
def LNK_CTL.WAKE_ANY : Fld := ⟨11, 11⟩
def LNK_CTL.ENERGY_DET : Fld := ⟨10, 10⟩
def LNK_CTL.MODE : Fld := ⟨9, 8⟩
def LNK_CTL.RATE : Fld := ⟨5, 4⟩
def LNK_CTL.ENABLE : Fld := ⟨0, 0⟩

/-- LNK_STAT: address (spec/10, R326). -/
def LNK_STAT.adr (n : Nat) : Nat := 0xc030000008 + n * 0x10000
def LNK_STAT.FAR_DEVICE : Fld := ⟨63, 48⟩
def LNK_STAT.FAR_LINK : Fld := ⟨47, 40⟩
def LNK_STAT.FAR_SIDE : Fld := ⟨39, 39⟩
def LNK_STAT.FAR_VALID : Fld := ⟨38, 38⟩
def LNK_STAT.TSTATE : Fld := ⟨19, 16⟩
def LNK_STAT.PSTATE : Fld := ⟨11, 10⟩
def LNK_STAT.RATE_NOW : Fld := ⟨9, 8⟩
def LNK_STAT.FAST : Fld := ⟨1, 1⟩
def LNK_STAT.RX_LOCK : Fld := ⟨0, 0⟩

/-- LNK_EVT: address (spec/10, R326). -/
def LNK_EVT.adr (n : Nat) : Nat := 0xc030000010 + n * 0x10000
def LNK_EVT.ALLOC_ERR : Fld := ⟨10, 10⟩
def LNK_EVT.PROTO : Fld := ⟨9, 9⟩
def LNK_EVT.ID_MISMATCH : Fld := ⟨8, 8⟩
def LNK_EVT.RETIRE_CAND : Fld := ⟨7, 7⟩
def LNK_EVT.FAR_RETIRED : Fld := ⟨6, 6⟩
def LNK_EVT.WAKE_SEEN : Fld := ⟨5, 5⟩
def LNK_EVT.FALLBACK : Fld := ⟨4, 4⟩
def LNK_EVT.REPLAY_LIMIT : Fld := ⟨3, 3⟩
def LNK_EVT.RETRAINED : Fld := ⟨2, 2⟩
def LNK_EVT.DOWN : Fld := ⟨1, 1⟩
def LNK_EVT.UP : Fld := ⟨0, 0⟩

/-- LNK_EXPECT: address (spec/10, R326). -/
def LNK_EXPECT.adr (n : Nat) : Nat := 0xc030000028 + n * 0x10000
def LNK_EXPECT.DEVICE : Fld := ⟨63, 48⟩
def LNK_EXPECT.LINK : Fld := ⟨47, 40⟩
def LNK_EXPECT.CHECK : Fld := ⟨0, 0⟩

/-- LNK_TIMING: address (spec/10, R326). -/
def LNK_TIMING.adr (n : Nat) : Nat := 0xc030000030 + n * 0x10000
def LNK_TIMING.QUIET_IDLE : Fld := ⟨63, 48⟩
def LNK_TIMING.REPLAY_TIMEOUT : Fld := ⟨47, 32⟩
def LNK_TIMING.ACK_EVERY : Fld := ⟨31, 24⟩
def LNK_TIMING.ACK_TIME : Fld := ⟨23, 16⟩
def LNK_TIMING.CRD_THRESH : Fld := ⟨15, 8⟩
def LNK_TIMING.CRD_TIME : Fld := ⟨7, 0⟩

/-- LNK_HEALTH: address (spec/10, R326). -/
def LNK_HEALTH.adr (n : Nat) : Nat := 0xc030000038 + n * 0x10000
def LNK_HEALTH.RETRAIN_LIMIT : Fld := ⟨55, 48⟩
def LNK_HEALTH.REPLAY_LIMIT : Fld := ⟨47, 40⟩
def LNK_HEALTH.RETRAIN_MAX : Fld := ⟨39, 32⟩
def LNK_HEALTH.UNCORR_MAX : Fld := ⟨31, 16⟩
def LNK_HEALTH.WINDOW_MS : Fld := ⟨15, 0⟩

/-- LNK_VC: address (spec/10, R326). -/
def LNK_VC.adr (n i : Nat) : Nat := 0xc030000040 + n * 0x10000 + i * 8
def LNK_VC.ALLOC : Fld := ⟨58, 48⟩
def LNK_VC.CRED : Fld := ⟨42, 32⟩
def LNK_VC.OCC : Fld := ⟨26, 16⟩
def LNK_VC.PEND : Fld := ⟨10, 0⟩

/-- LNK_SEQ: address (spec/10, R326). -/
def LNK_SEQ.adr (n : Nat) : Nat := 0xc030000080 + n * 0x10000
def LNK_SEQ.TX_NEXT : Fld := ⟨59, 48⟩
def LNK_SEQ.TX_OLDEST : Fld := ⟨43, 32⟩
def LNK_SEQ.RX_EXP : Fld := ⟨27, 16⟩
def LNK_SEQ.REPLAY_OCC : Fld := ⟨9, 0⟩

/-- LNK_ERRCNT: address (spec/10, R326). -/
def LNK_ERRCNT.adr (n : Nat) : Nat := 0xc030000088 + n * 0x10000
def LNK_ERRCNT.FEC_CORR : Fld := ⟨63, 32⟩
def LNK_ERRCNT.FEC_UNCORR : Fld := ⟨31, 16⟩
def LNK_ERRCNT.CRC_ERR : Fld := ⟨15, 0⟩

/-- LNK_LOSS: address (spec/10, R326). -/
def LNK_LOSS.adr (n : Nat) : Nat := 0xc030000090 + n * 0x10000
def LNK_LOSS.REPLAYS : Fld := ⟨63, 48⟩
def LNK_LOSS.RETRAINS : Fld := ⟨47, 32⟩
def LNK_LOSS.LOST_PKT : Fld := ⟨31, 16⟩
def LNK_LOSS.DUP : Fld := ⟨15, 0⟩

/-- LNK_PHYSTAT: address (spec/10, R326). -/
def LNK_PHYSTAT.adr (n : Nat) : Nat := 0xc030000098 + n * 0x10000
def LNK_PHYSTAT.EYE_MV : Fld := ⟨63, 56⟩
def LNK_PHYSTAT.BER_LOG : Fld := ⟨55, 48⟩
def LNK_PHYSTAT.PRBS_ERR : Fld := ⟨31, 0⟩

/-- RT_DEVICE: address (spec/11, R362). -/
def RT_DEVICE.adr : Nat := 0xc040000000
def RT_DEVICE.DEVICE : Fld := ⟨31, 16⟩
def RT_DEVICE.ACC_CTRL : Fld := ⟨5, 5⟩
def RT_DEVICE.ACC_QMSG : Fld := ⟨4, 4⟩
def RT_DEVICE.ACC_AMO : Fld := ⟨3, 3⟩
def RT_DEVICE.ACC_GET : Fld := ⟨2, 2⟩
def RT_DEVICE.ACC_PUT : Fld := ⟨1, 1⟩
def RT_DEVICE.VALID : Fld := ⟨0, 0⟩

/-- RT_EPOCH: address (spec/11, R362). -/
def RT_EPOCH.adr : Nat := 0xc040000008
def RT_EPOCH.INJ_BANK : Fld := ⟨0, 0⟩

/-- RT_TIMEOUT: address (spec/11, R362). -/
def RT_TIMEOUT.adr : Nat := 0xc040000010
def RT_TIMEOUT.RETRY_DELAY : Fld := ⟨47, 32⟩
def RT_TIMEOUT.REQ_TIMEOUT : Fld := ⟨31, 0⟩

/-- RT_STAT: address (spec/11, R362). -/
def RT_STAT.adr (n : Nat) : Nat := 0xc040000020 + n * 0x4000000
def RT_STAT.OLD_PKTS : Fld := ⟨63, 48⟩
def RT_STAT.INT_UP : Fld := ⟨7, 0⟩

/-- RT_EVT: address (spec/11, R362). -/
def RT_EVT.adr (n : Nat) : Nat := 0xc040000028 + n * 0x4000000
def RT_EVT.FILTERED : Fld := ⟨6, 6⟩
def RT_EVT.TIMEOUT : Fld := ⟨5, 5⟩
def RT_EVT.LATE_RESP : Fld := ⟨4, 4⟩
def RT_EVT.HDR_ERR : Fld := ⟨3, 3⟩
def RT_EVT.BADPKT : Fld := ⟨2, 2⟩
def RT_EVT.HOPLIMIT : Fld := ⟨1, 1⟩
def RT_EVT.NOROUTE : Fld := ⟨0, 0⟩

/-- RT_DISC: address (spec/11, R362). -/
def RT_DISC.adr (n : Nat) : Nat := 0xc040000040 + n * 0x4000000
def RT_DISC.NOROUTE : Fld := ⟨63, 48⟩
def RT_DISC.HOPLIMIT : Fld := ⟨47, 32⟩
def RT_DISC.BADPKT : Fld := ⟨31, 16⟩
def RT_DISC.LATE_RESP : Fld := ⟨15, 0⟩

/-- RT_LOSS: address (spec/11, R362). -/
def RT_LOSS.adr (n : Nat) : Nat := 0xc040000048 + n * 0x4000000
def RT_LOSS.TIMEOUTS : Fld := ⟨63, 32⟩
def RT_LOSS.FILTERED : Fld := ⟨31, 16⟩
def RT_LOSS.HDR_ERR : Fld := ⟨15, 0⟩

/-- RT_CTRLF: address (spec/11, R362). -/
def RT_CTRLF.adr (n : Nat) : Nat := 0xc040000100 + n * 8
def RT_CTRLF.VALID : Fld := ⟨63, 63⟩
def RT_CTRLF.WRITE : Fld := ⟨62, 62⟩
def RT_CTRLF.READ : Fld := ⟨61, 61⟩
def RT_CTRLF.DEVICE : Fld := ⟨31, 16⟩
def RT_CTRLF.MASK : Fld := ⟨15, 0⟩

/-- RT_ENTRY: address (spec/11, R362). -/
def RT_ENTRY.adr (n i j : Nat) : Nat := 0xc041000000 + n * 0x4000000 + i * 0x80000 + j * 8
def RT_ENTRY.CVALID : Fld := ⟨35, 32⟩
def RT_ENTRY.CAND_3 : Fld := ⟨31, 24⟩
def RT_ENTRY.CAND_2 : Fld := ⟨23, 16⟩
def RT_ENTRY.CAND_1 : Fld := ⟨15, 8⟩
def RT_ENTRY.CAND_0 : Fld := ⟨7, 0⟩

/-- COLL_CFG: address (spec/11, R362). -/
def COLL_CFG.adr (n i : Nat) : Nat := 0xc042000000 + n * 0x4000000 + i * 0x100
def COLL_CFG.ENABLE : Fld := ⟨63, 63⟩
def COLL_CFG.ROOT : Fld := ⟨62, 62⟩
def COLL_CFG.PARENT : Fld := ⟨55, 48⟩
def COLL_CFG.NLOCAL : Fld := ⟨43, 32⟩
def COLL_CFG.OP : Fld := ⟨31, 28⟩
def COLL_CFG.RND : Fld := ⟨27, 24⟩
def COLL_CFG.RAW : Fld := ⟨23, 23⟩
def COLL_CFG.COUNT : Fld := ⟨22, 16⟩

/-- COLL_CHILD_0: address (spec/11, R362). -/
def COLL_CHILD_0.adr (n i : Nat) : Nat := 0xc042000008 + n * 0x4000000 + i * 0x100
def COLL_CHILD_0.LINKS : Fld := ⟨63, 0⟩

/-- COLL_CHILD_1: address (spec/11, R362). -/
def COLL_CHILD_1.adr (n i : Nat) : Nat := 0xc042000010 + n * 0x4000000 + i * 0x100
def COLL_CHILD_1.LINKS : Fld := ⟨63, 0⟩

/-- COLL_CHILD_2: address (spec/11, R362). -/
def COLL_CHILD_2.adr (n i : Nat) : Nat := 0xc042000018 + n * 0x4000000 + i * 0x100
def COLL_CHILD_2.LINKS : Fld := ⟨15, 0⟩

/-- COLL_RESULT: address (spec/11, R362). -/
def COLL_RESULT.adr (n i : Nat) : Nat := 0xc042000020 + n * 0x4000000 + i * 0x100
def COLL_RESULT.ADDR : Fld := ⟨39, 0⟩

/-- COLL_SUBMIT: address (spec/11, R362). -/
def COLL_SUBMIT.adr (n i : Nat) : Nat := 0xc042000028 + n * 0x4000000 + i * 0x100
def COLL_SUBMIT.SEQ : Fld := ⟨63, 48⟩
def COLL_SUBMIT.ADDR : Fld := ⟨39, 0⟩

/-- COLL_TIMEOUT: address (spec/11, R362). -/
def COLL_TIMEOUT.adr (n i : Nat) : Nat := 0xc042000038 + n * 0x4000000 + i * 0x100
def COLL_TIMEOUT.LIMIT : Fld := ⟨31, 0⟩

/-- COLL_STAT: address (spec/11, R362). -/
def COLL_STAT.adr (n i : Nat) : Nat := 0xc042000030 + n * 0x4000000 + i * 0x100
def COLL_STAT.SEQ : Fld := ⟨63, 48⟩
def COLL_STAT.LOCAL_IN : Fld := ⟨47, 36⟩
def COLL_STAT.AHEAD : Fld := ⟨35, 24⟩
def COLL_STAT.CHILD_IN : Fld := ⟨23, 16⟩
def COLL_STAT.STATE : Fld := ⟨3, 0⟩

/-- COLL_CNT: address (spec/11, R362). -/
def COLL_CNT.adr (n i : Nat) : Nat := 0xc042000040 + n * 0x4000000 + i * 0x100
def COLL_CNT.COMPLETED : Fld := ⟨63, 32⟩
def COLL_CNT.REFUSED : Fld := ⟨31, 16⟩
def COLL_CNT.DISCARDED : Fld := ⟨15, 0⟩

/-- TSYNC_CTL: address (spec/11, R362). -/
def TSYNC_CTL.adr : Nat := 0xc043000000
def TSYNC_CTL.ENABLE : Fld := ⟨63, 63⟩
def TSYNC_CTL.MASTER : Fld := ⟨62, 62⟩
def TSYNC_CTL.PARENT : Fld := ⟨55, 48⟩
def TSYNC_CTL.PERIOD : Fld := ⟨31, 0⟩

/-- TSYNC_STAT: address (spec/11, R362). -/
def TSYNC_STAT.adr : Nat := 0xc043000008
def TSYNC_STAT.STRATUM : Fld := ⟨63, 56⟩
def TSYNC_STAT.MISSED : Fld := ⟨47, 32⟩
def TSYNC_STAT.LOST : Fld := ⟨2, 2⟩
def TSYNC_STAT.GAINED : Fld := ⟨1, 1⟩
def TSYNC_STAT.LOCKED : Fld := ⟨0, 0⟩

/-- TSYNC_MEAS: address (spec/11, R362). -/
def TSYNC_MEAS.adr : Nat := 0xc043000020
def TSYNC_MEAS.OFFSET : Fld := ⟨63, 32⟩
def TSYNC_MEAS.DELAY : Fld := ⟨31, 0⟩

/-- TSYNC_ASYM: address (spec/11, R362). -/
def TSYNC_ASYM.adr (n : Nat) : Nat := 0xc043000100 + n * 8
def TSYNC_ASYM.ASYM : Fld := ⟨15, 0⟩

/-- QGATHER: address (spec/11, R362). -/
def QGATHER.adr (n i : Nat) : Nat := 0xc000005000 + n * 0x100000 + i * 8
def QGATHER.DROPPED : Fld := ⟨63, 48⟩
def QGATHER.STATE : Fld := ⟨41, 40⟩
def QGATHER.WORDS : Fld := ⟨39, 32⟩

/-- QHOLD: address (spec/11, R362). -/
def QHOLD.adr (n : Nat) : Nat := 0xc000005100 + n * 0x100000
def QHOLD.RETRIES : Fld := ⟨63, 48⟩
def QHOLD.HELD : Fld := ⟨2, 0⟩

/-- CE_CTL: address (spec/12, R395). -/
def CE_CTL.adr : Nat := 0xc080000000
def CE_CTL.BUDDY : Fld := ⟨31, 16⟩
def CE_CTL.HB : Fld := ⟨1, 1⟩
def CE_CTL.ENABLE : Fld := ⟨0, 0⟩

/-- CE_GROUP: address (spec/12, R395). -/
def CE_GROUP.adr : Nat := 0xc080000008
def CE_GROUP.LINKS : Fld := ⟨63, 0⟩

/-- CE_STAT: address (spec/12, R395). -/
def CE_STAT.adr : Nat := 0xc080000010
def CE_STAT.EPOCH : Fld := ⟨63, 32⟩
def CE_STAT.MISSED : Fld := ⟨31, 16⟩
def CE_STAT.BUDDY_UP : Fld := ⟨4, 4⟩
def CE_STAT.STATE : Fld := ⟨3, 0⟩

/-- CE_EVT: address (spec/12, R395). -/
def CE_EVT.adr : Nat := 0xc080000018
def CE_EVT.EXT_ERR : Fld := ⟨8, 8⟩
def CE_EVT.GROUP_ERR : Fld := ⟨7, 7⟩
def CE_EVT.PRE_FULL : Fld := ⟨6, 6⟩
def CE_EVT.RESYNC_NEEDED : Fld := ⟨5, 5⟩
def CE_EVT.BUDDY_FOUND : Fld := ⟨4, 4⟩
def CE_EVT.BUDDY_LOST : Fld := ⟨3, 3⟩
def CE_EVT.REJECTED : Fld := ⟨2, 2⟩
def CE_EVT.FAILED : Fld := ⟨1, 1⟩
def CE_EVT.COMMITTED : Fld := ⟨0, 0⟩

/-- CE_CMD: address (spec/12, R395). -/
def CE_CMD.adr : Nat := 0xc080000030
def CE_CMD.ABORT : Fld := ⟨1, 1⟩
def CE_CMD.MARK : Fld := ⟨0, 0⟩

/-- CE_BOOK_0: address (spec/12, R395). -/
def CE_BOOK_0.adr : Nat := 0xc080000038
def CE_BOOK_0.MARKED : Fld := ⟨55, 32⟩
def CE_BOOK_0.PENDING : Fld := ⟨23, 0⟩

/-- CE_BOOK_1: address (spec/12, R395). -/
def CE_BOOK_1.adr : Nat := 0xc080000040
def CE_BOOK_1.SENT : Fld := ⟨55, 32⟩
def CE_BOOK_1.PREIMAGED : Fld := ⟨23, 0⟩

/-- CE_PRE: address (spec/12, R395). -/
def CE_PRE.adr : Nat := 0xc080000048
def CE_PRE.SLOTS : Fld := ⟨44, 32⟩
def CE_PRE.BASE : Fld := ⟨23, 0⟩

/-- CE_TIMING: address (spec/12, R395). -/
def CE_TIMING.adr : Nat := 0xc080000050
def CE_TIMING.HB_PERIOD : Fld := ⟨63, 48⟩
def CE_TIMING.MISS_LIMIT : Fld := ⟨47, 40⟩
def CE_TIMING.RESEND_LIMIT : Fld := ⟨39, 32⟩
def CE_TIMING.ACK_TIMEOUT : Fld := ⟨31, 0⟩

/-- CE_COMMIT: address (spec/12, R395). -/
def CE_COMMIT.adr : Nat := 0xc080000058
def CE_COMMIT.BUDDY_COMMITTED : Fld := ⟨63, 32⟩
def CE_COMMIT.COMMITTED : Fld := ⟨31, 0⟩

/-- CE_CNT: address (spec/12, R395). -/
def CE_CNT.adr : Nat := 0xc080000060
def CE_CNT.FAILED : Fld := ⟨63, 48⟩
def CE_CNT.REJECTED : Fld := ⟨47, 32⟩
def CE_CNT.RESENDS : Fld := ⟨31, 16⟩
def CE_CNT.PRE_WAITS : Fld := ⟨15, 0⟩

/-- CE_EXT_SRC: address (spec/12, R395). -/
def CE_EXT_SRC.adr (n : Nat) : Nat := 0xc080010000 + n * 0x10
def CE_EXT_SRC.VALID : Fld := ⟨63, 63⟩
def CE_EXT_SRC.FULL : Fld := ⟨62, 62⟩
def CE_EXT_SRC.GRANULES : Fld := ⟨55, 32⟩
def CE_EXT_SRC.BASE : Fld := ⟨23, 0⟩

/-- CE_EXT_DST: address (spec/12, R395). -/
def CE_EXT_DST.adr (n : Nat) : Nat := 0xc080010008 + n * 0x10
def CE_EXT_DST.BASE : Fld := ⟨23, 0⟩

/-- RX_CTL: address (spec/12, R395). -/
def RX_CTL.adr : Nat := 0xc080000100
def RX_CTL.SRC : Fld := ⟨31, 16⟩
def RX_CTL.REAPPLY : Fld := ⟨2, 2⟩
def RX_CTL.DISCARD : Fld := ⟨1, 1⟩
def RX_CTL.ENABLE : Fld := ⟨0, 0⟩

/-- RX_STAT: address (spec/12, R395). -/
def RX_STAT.adr : Nat := 0xc080000108
def RX_STAT.COMMITTED : Fld := ⟨63, 32⟩
def RX_STAT.STATE : Fld := ⟨3, 0⟩

/-- RX_LOGSTAT: address (spec/12, R395). -/
def RX_LOGSTAT.adr : Nat := 0xc080000110
def RX_LOGSTAT.EPOCH : Fld := ⟨63, 32⟩
def RX_LOGSTAT.BAD : Fld := ⟨24, 24⟩
def RX_LOGSTAT.SLOTS : Fld := ⟨23, 0⟩

/-- RX_LOG: address (spec/12, R395). -/
def RX_LOG.adr : Nat := 0xc080000118
def RX_LOG.SIZE : Fld := ⟨52, 32⟩
def RX_LOG.BASE : Fld := ⟨23, 0⟩

/-- RX_IDX: address (spec/12, R395). -/
def RX_IDX.adr : Nat := 0xc080000120
def RX_IDX.BASE : Fld := ⟨23, 0⟩

/-- RX_WIN: address (spec/12, R395). -/
def RX_WIN.adr : Nat := 0xc080000128
def RX_WIN.LIMIT : Fld := ⟨55, 32⟩
def RX_WIN.BASE : Fld := ⟨23, 0⟩

/-- RX_EVT: address (spec/12, R395). -/
def RX_EVT.adr : Nat := 0xc080000130
def RX_EVT.REJECTED : Fld := ⟨2, 2⟩
def RX_EVT.DISCARDED : Fld := ⟨1, 1⟩
def RX_EVT.COMMITTED : Fld := ⟨0, 0⟩

/-- CHAIN_STAT: address (spec/12, R395). -/
def CHAIN_STAT.adr : Nat := 0xc080000200
def CHAIN_STAT.MEMBERS : Fld := ⟨31, 24⟩
def CHAIN_STAT.POSITION : Fld := ⟨19, 16⟩
def CHAIN_STAT.RX_FULL : Fld := ⟨7, 7⟩
def CHAIN_STAT.OVERFLOW : Fld := ⟨6, 6⟩
def CHAIN_STAT.NO_MASTER : Fld := ⟨5, 5⟩
def CHAIN_STAT.DEMOTED : Fld := ⟨4, 4⟩
def CHAIN_STAT.DOWN_CONN : Fld := ⟨3, 3⟩
def CHAIN_STAT.UP_CONN : Fld := ⟨2, 2⟩
def CHAIN_STAT.ROLE : Fld := ⟨1, 0⟩

/-- CHAIN_EVT: address (spec/12, R395). -/
def CHAIN_EVT.adr : Nat := 0xc080000208
def CHAIN_EVT.ERR : Fld := ⟨1, 1⟩
def CHAIN_EVT.RX : Fld := ⟨0, 0⟩

/-- CHAIN_CMD: address (spec/12, R395). -/
def CHAIN_CMD.adr : Nat := 0xc080000220
def CHAIN_CMD.RELEASE : Fld := ⟨2, 2⟩
def CHAIN_CMD.ENUM : Fld := ⟨1, 1⟩
def CHAIN_CMD.SEND : Fld := ⟨0, 0⟩

/-- PWR_DEV_CMD: address (spec/13, R438). -/
def PWR_DEV_CMD.adr : Nat := 0xc060000000
def PWR_DEV_CMD.GO : Fld := ⟨2, 2⟩
def PWR_DEV_CMD.REQ : Fld := ⟨1, 0⟩

/-- PWR_DEV_STAT: address (spec/13, R438). -/
def PWR_DEV_STAT.adr : Nat := 0xc060000008
def PWR_DEV_STAT.RESULT : Fld := ⟨15, 8⟩
def PWR_DEV_STAT.POINT : Fld := ⟨7, 4⟩
def PWR_DEV_STAT.STATE : Fld := ⟨3, 0⟩

/-- DEV_LAST_WAKE: address (spec/13, R438). -/
def DEV_LAST_WAKE.adr : Nat := 0xc060000010
def DEV_LAST_WAKE.CAUSE : Fld := ⟨63, 60⟩
def DEV_LAST_WAKE.DURING_ENTRY : Fld := ⟨59, 59⟩
def DEV_LAST_WAKE.SLOT : Fld := ⟨53, 48⟩
def DEV_LAST_WAKE.AON : Fld := ⟨47, 0⟩

/-- LAST_WAKE: address (spec/13, R438). -/
def LAST_WAKE.adr (n : Nat) : Nat := 0xc060010030 + n * 0x40
def LAST_WAKE.CAUSE : Fld := ⟨63, 60⟩
def LAST_WAKE.DURING_ENTRY : Fld := ⟨59, 59⟩
def LAST_WAKE.SLOT : Fld := ⟨53, 48⟩
def LAST_WAKE.AON : Fld := ⟨47, 0⟩

/-- DOM_CTL: address (spec/13, R438). -/
def DOM_CTL.adr (n : Nat) : Nat := 0xc060010000 + n * 0x40
def DOM_CTL.IDLE_LIMIT : Fld := ⟨63, 48⟩
def DOM_CTL.NAP_NOW : Fld := ⟨11, 11⟩
def DOM_CTL.LEVEL : Fld := ⟨10, 8⟩
def DOM_CTL.CAL_EN : Fld := ⟨2, 2⟩
def DOM_CTL.NAP_EN : Fld := ⟨1, 1⟩
def DOM_CTL.OFF : Fld := ⟨0, 0⟩

/-- DOM_STAT: address (spec/13, R438). -/
def DOM_STAT.adr (n : Nat) : Nat := 0xc060010008 + n * 0x40
def DOM_STAT.DECKLE_HIT : Fld := ⟨63, 48⟩
def DOM_STAT.STATE : Fld := ⟨19, 16⟩
def DOM_STAT.RAMPING : Fld := ⟨15, 15⟩
def DOM_STAT.LEVEL_NOW : Fld := ⟨14, 12⟩
def DOM_STAT.LEVEL_EFF : Fld := ⟨10, 8⟩
def DOM_STAT.REG_FAULT : Fld := ⟨4, 4⟩
def DOM_STAT.LIMITED : Fld := ⟨3, 3⟩
def DOM_STAT.RET_LOST : Fld := ⟨2, 2⟩
def DOM_STAT.REFUSED : Fld := ⟨1, 1⟩

/-- TILE_RET: address (spec/13, R438). -/
def TILE_RET.adr (n : Nat) : Nat := 0xc060010020 + n * 0x40
def TILE_RET.LOST : Fld := ⟨63, 48⟩
def TILE_RET.POL : Fld := ⟨31, 0⟩

/-- TILE_ALLOC: address (spec/13, R438). -/
def TILE_ALLOC.adr (n : Nat) : Nat := 0xc060010028 + n * 0x40
def TILE_ALLOC.TOKENS : Fld := ⟨23, 0⟩

/-- NAP_RES: address (spec/13, R438). -/
def NAP_RES.adr (n : Nat) : Nat := 0xc060010038 + n * 0x40
def NAP_RES.TICKS : Fld := ⟨63, 0⟩

/-- PCAP_POOL: address (spec/13, R438). -/
def PCAP_POOL.adr : Nat := 0xc060000018
def PCAP_POOL.ENABLE : Fld := ⟨63, 63⟩
def PCAP_POOL.FREE : Fld := ⟨55, 32⟩
def PCAP_POOL.POOL : Fld := ⟨23, 0⟩

/-- PCAP_XFER: address (spec/13, R438). -/
def PCAP_XFER.adr : Nat := 0xc060000020
def PCAP_XFER.GO : Fld := ⟨63, 63⟩
def PCAP_XFER.REFUSED : Fld := ⟨62, 62⟩
def PCAP_XFER.TO : Fld := ⟨47, 40⟩
def PCAP_XFER.FROM : Fld := ⟨39, 32⟩
def PCAP_XFER.AMOUNT : Fld := ⟨23, 0⟩

/-- LVL_COST: address (spec/13, R438). -/
def LVL_COST.adr (n : Nat) : Nat := 0xc060000080 + n * 8
def LVL_COST.TOKENS : Fld := ⟨23, 0⟩

/-- PKG_CTL: address (spec/13, R438). -/
def PKG_CTL.adr : Nat := 0xc060000028
def PKG_CTL.ENABLE : Fld := ⟨63, 63⟩
def PKG_CTL.ENGAGED : Fld := ⟨62, 62⟩
def PKG_CTL.LIMIT_W : Fld := ⟨15, 0⟩

/-- THERM_CTL: address (spec/13, R438). -/
def THERM_CTL.adr : Nat := 0xc060000030
def THERM_CTL.THROTTLED_IO : Fld := ⟨19, 16⟩
def THERM_CTL.THROTTLE_C : Fld := ⟨15, 8⟩
def THERM_CTL.THROTTLED : Fld := ⟨7, 0⟩

/-- TSENS: address (spec/13, R438). -/
def TSENS.adr (n : Nat) : Nat := 0xc060000100 + n * 8
def TSENS.TEMP : Fld := ⟨15, 0⟩

/-- AON_ALARM: address (spec/13, R438). -/
def AON_ALARM.adr : Nat := 0xc060000038
def AON_ALARM.COUNT : Fld := ⟨47, 0⟩

/-- GT_AT_SLEEP: address (spec/13, R438). -/
def GT_AT_SLEEP.adr : Nat := 0xc060000040
def GT_AT_SLEEP.GT : Fld := ⟨63, 0⟩

/-- AON_AT_SLEEP: address (spec/13, R438). -/
def AON_AT_SLEEP.adr : Nat := 0xc060000048
def AON_AT_SLEEP.COUNT : Fld := ⟨47, 0⟩

/-- PERIOD_AT_SLEEP: address (spec/13, R438). -/
def PERIOD_AT_SLEEP.adr : Nat := 0xc060000050
def PERIOD_AT_SLEEP.PERIOD : Fld := ⟨39, 0⟩

/-- ENERGY: address (spec/13, R438). -/
def ENERGY.adr (n : Nat) : Nat := 0xc060020000 + n * 8
def ENERGY.ENERGY : Fld := ⟨63, 0⟩

/-- TIME: system register number (spec/13, R438). -/
def TIME.num : Nat := 0x60
def TIME.GT : Fld := ⟨63, 0⟩

/-- TIME_STATUS: address (spec/13, R439). -/
def TIME_STATUS.adr : Nat := 0xc070000008
def TIME_STATUS.BOUND : Fld := ⟨63, 32⟩
def TIME_STATUS.SRC_CHANGED : Fld := ⟨5, 5⟩
def TIME_STATUS.SLEWING : Fld := ⟨4, 4⟩
def TIME_STATUS.XTAL_ABSENT : Fld := ⟨3, 3⟩
def TIME_STATUS.STEPPED : Fld := ⟨2, 2⟩
def TIME_STATUS.INTERP : Fld := ⟨1, 1⟩
def TIME_STATUS.VALID : Fld := ⟨0, 0⟩

/-- TIME_NOW: address (spec/13, R439). -/
def TIME_NOW.adr : Nat := 0xc070000000
def TIME_NOW.GT : Fld := ⟨63, 0⟩

/-- TIME_ADJ: address (spec/13, R439). -/
def TIME_ADJ.adr : Nat := 0xc070000020
def TIME_ADJ.OFFSET : Fld := ⟨63, 0⟩

/-- TB_CTL: address (spec/13, R439). -/
def TB_CTL.adr : Nat := 0xc070000028
def TB_CTL.SLEW_PPM : Fld := ⟨47, 32⟩
def TB_CTL.STEP_MIN : Fld := ⟨31, 0⟩

/-- TB_INCR: address (spec/13, R439). -/
def TB_INCR.adr : Nat := 0xc070000030
def TB_INCR.INCR : Fld := ⟨39, 0⟩

/-- SLEW_LEFT: address (spec/13, R439). -/
def SLEW_LEFT.adr : Nat := 0xc070000038
def SLEW_LEFT.LEFT : Fld := ⟨63, 0⟩

/-- TIME_ALARM: address (spec/13, R439). -/
def TIME_ALARM.adr : Nat := 0xc070000040
def TIME_ALARM.GT : Fld := ⟨63, 0⟩

/-- AON_NOW: address (spec/13, R439). -/
def AON_NOW.adr : Nat := 0xc070000048
def AON_NOW.COUNT : Fld := ⟨47, 0⟩

/-- AON_PERIOD: address (spec/13, R439). -/
def AON_PERIOD.adr : Nat := 0xc070000050
def AON_PERIOD.PERIOD : Fld := ⟨39, 0⟩

/-- SVC_CTL: address (spec/14, R468). -/
def SVC_CTL.adr : Nat := 0xc090000000
def SVC_CTL.HANDOVER : Fld := ⟨3, 3⟩
def SVC_CTL.STANDBY_RUN : Fld := ⟨2, 2⟩
def SVC_CTL.FAULT : Fld := ⟨1, 1⟩
def SVC_CTL.READY : Fld := ⟨0, 0⟩

/-- SVC_STAT: address (spec/14, R468). -/
def SVC_STAT.adr : Nat := 0xc090000008
def SVC_STAT.HANDOVERS : Fld := ⟨63, 48⟩
def SVC_STAT.CAUSE : Fld := ⟨39, 32⟩
def SVC_STAT.XWRITE : Fld := ⟨7, 7⟩
def SVC_STAT.NO_STANDBY : Fld := ⟨6, 6⟩
def SVC_STAT.DIS : Fld := ⟨5, 4⟩
def SVC_STAT.WHO : Fld := ⟨1, 1⟩
def SVC_STAT.ACTIVE : Fld := ⟨0, 0⟩

/-- SVC_WDOG: address (spec/14, R468). -/
def SVC_WDOG.adr : Nat := 0xc090000020
def SVC_WDOG.PERIOD : Fld := ⟨47, 32⟩
def SVC_WDOG.KICK : Fld := ⟨0, 0⟩

/-- SVC_VEC: address (spec/14, R468). -/
def SVC_VEC.adr : Nat := 0xc090000028
def SVC_VEC.ADDR : Fld := ⟨63, 2⟩

/-- SVC_XMAP_0: address (spec/14, R468). -/
def SVC_XMAP_0.adr : Nat := 0xc090000030
def SVC_XMAP_0.EXEC : Fld := ⟨63, 0⟩

/-- SVC_XMAP_1: address (spec/14, R468). -/
def SVC_XMAP_1.adr : Nat := 0xc090000038
def SVC_XMAP_1.EXEC : Fld := ⟨63, 0⟩

/-- SVC_XREL: address (spec/14, R468). -/
def SVC_XREL.adr : Nat := 0xc090000040
def SVC_XREL.COUNT : Fld := ⟨15, 8⟩
def SVC_XREL.PAGE : Fld := ⟨6, 0⟩

/-- PRESENT_0: address (spec/14, R468). -/
def PRESENT_0.adr : Nat := 0xc090000048
def PRESENT_0.PRESENT : Fld := ⟨63, 0⟩

/-- PRESENT_1: address (spec/14, R468). -/
def PRESENT_1.adr : Nat := 0xc090000050
def PRESENT_1.PRESENT : Fld := ⟨63, 0⟩

/-- BOOT_STAT: address (spec/14, R468). -/
def BOOT_STAT.adr : Nat := 0xc090000100
def BOOT_STAT.CODES : Fld := ⟨47, 32⟩
def BOOT_STAT.PHASE : Fld := ⟨23, 20⟩
def BOOT_STAT.PAIRED : Fld := ⟨17, 17⟩
def BOOT_STAT.CHAIN : Fld := ⟨16, 16⟩
def BOOT_STAT.SLOT : Fld := ⟨4, 4⟩
def BOOT_STAT.DEV : Fld := ⟨3, 3⟩
def BOOT_STAT.CHOSEN : Fld := ⟨2, 0⟩

/-- FUSE_ID_0: address (spec/14, R468). -/
def FUSE_ID_0.adr : Nat := 0xc090000200
def FUSE_ID_0.UID : Fld := ⟨63, 0⟩

/-- FUSE_ID_1: address (spec/14, R468). -/
def FUSE_ID_1.adr : Nat := 0xc090000208
def FUSE_ID_1.UID : Fld := ⟨63, 0⟩

/-- FUSE_STATE: address (spec/14, R468). -/
def FUSE_STATE.adr : Nat := 0xc090000210
def FUSE_STATE.DAMAGED : Fld := ⟨31, 28⟩
def FUSE_STATE.LOAD_ERR : Fld := ⟨23, 23⟩
def FUSE_STATE.UPDATE_CLOSE : Fld := ⟨17, 17⟩
def FUSE_STATE.DEBUG_CLOSE : Fld := ⟨16, 16⟩
def FUSE_STATE.LEVEL : Fld := ⟨14, 8⟩
def FUSE_STATE.REVOKED : Fld := ⟨7, 4⟩
def FUSE_STATE.PROG : Fld := ⟨3, 0⟩

/-- FUSE_ROLLBACK: address (spec/14, R468). -/
def FUSE_ROLLBACK.adr : Nat := 0xc090000218
def FUSE_ROLLBACK.VALUE : Fld := ⟨63, 0⟩

/-- KEYHASH: address (spec/14, R468). -/
def KEYHASH.adr (n i : Nat) : Nat := 0xc090000300 + n * 0x40 + i * 8
def KEYHASH.VALUE : Fld := ⟨63, 0⟩

/-- CLOSED_DIGEST: address (spec/14, R468). -/
def CLOSED_DIGEST.adr (n : Nat) : Nat := 0xc090000400 + n * 8
def CLOSED_DIGEST.VALUE : Fld := ⟨63, 0⟩

/-- IDKEY_PUB: address (spec/14, R468). -/
def IDKEY_PUB.adr (n : Nat) : Nat := 0xc090001000 + n * 8
def IDKEY_PUB.VALUE : Fld := ⟨63, 0⟩

/-- FUSE_CMD: address (spec/14, R468). -/
def FUSE_CMD.adr : Nat := 0xc090000220
def FUSE_CMD.CONFIRM : Fld := ⟨63, 48⟩
def FUSE_CMD.RESULT : Fld := ⟨39, 32⟩
def FUSE_CMD.BUSY : Fld := ⟨8, 8⟩
def FUSE_CMD.CMD : Fld := ⟨3, 0⟩

/-- FUSE_ARG: address (spec/14, R468). -/
def FUSE_ARG.adr : Nat := 0xc090000228
def FUSE_ARG.ARG : Fld := ⟨63, 0⟩

/-- SIG_CMD: address (spec/14, R468). -/
def SIG_CMD.adr : Nat := 0xc090000500
def SIG_CMD.GO : Fld := ⟨63, 63⟩
def SIG_CMD.KIND : Fld := ⟨7, 4⟩
def SIG_CMD.OP : Fld := ⟨3, 0⟩

/-- SIG_SRC: address (spec/14, R468). -/
def SIG_SRC.adr : Nat := 0xc090000508
def SIG_SRC.ADDR : Fld := ⟨55, 0⟩

/-- SIG_DST: address (spec/14, R468). -/
def SIG_DST.adr : Nat := 0xc090000510
def SIG_DST.ADDR : Fld := ⟨39, 0⟩

/-- SIG_STAT: address (spec/14, R468). -/
def SIG_STAT.adr : Nat := 0xc090000518
def SIG_STAT.LOADS : Fld := ⟨63, 32⟩
def SIG_STAT.CODE : Fld := ⟨7, 0⟩

/-- LOAD_CHAIN: address (spec/14, R468). -/
def LOAD_CHAIN.adr (n : Nat) : Nat := 0xc090000540 + n * 8
def LOAD_CHAIN.VALUE : Fld := ⟨63, 0⟩

/-- XSPI_CMD: address (spec/14, R468). -/
def XSPI_CMD.adr : Nat := 0xc090000600
def XSPI_CMD.GO : Fld := ⟨63, 63⟩
def XSPI_CMD.RESULT : Fld := ⟨55, 48⟩
def XSPI_CMD.DEV : Fld := ⟨8, 8⟩
def XSPI_CMD.OP : Fld := ⟨3, 0⟩

/-- XSPI_ADDR: address (spec/14, R468). -/
def XSPI_ADDR.adr : Nat := 0xc090000608
def XSPI_ADDR.OFFSET : Fld := ⟨31, 0⟩

/-- XSPI_BUF: address (spec/14, R468). -/
def XSPI_BUF.adr : Nat := 0xc090000610
def XSPI_BUF.ADDR : Fld := ⟨39, 0⟩

/-- XSPI_LEN: address (spec/14, R468). -/
def XSPI_LEN.adr : Nat := 0xc090000618
def XSPI_LEN.BYTES : Fld := ⟨31, 0⟩

/-- XSPI_STAT: address (spec/14, R468). -/
def XSPI_STAT.adr : Nat := 0xc090000620
def XSPI_STAT.WIN_WRITES : Fld := ⟨63, 32⟩
def XSPI_STAT.CAP1_LOG2 : Fld := ⟨23, 16⟩
def XSPI_STAT.CAP0_LOG2 : Fld := ⟨15, 8⟩
def XSPI_STAT.PRESENT : Fld := ⟨1, 0⟩

/-- MGMT_CTL: address (spec/14, R468). -/
def MGMT_CTL.adr : Nat := 0xc090000700
def MGMT_CTL.ENABLE : Fld := ⟨63, 63⟩
def MGMT_CTL.MAC : Fld := ⟨47, 0⟩

/-- MGMT_RXR: address (spec/14, R468). -/
def MGMT_RXR.adr : Nat := 0xc090000708
def MGMT_RXR.COUNT : Fld := ⟨63, 48⟩
def MGMT_RXR.BASE : Fld := ⟨39, 0⟩

/-- MGMT_TXR: address (spec/14, R468). -/
def MGMT_TXR.adr : Nat := 0xc090000710
def MGMT_TXR.COUNT : Fld := ⟨63, 48⟩
def MGMT_TXR.BASE : Fld := ⟨39, 0⟩

/-- MGMT_IDX: address (spec/14, R468). -/
def MGMT_IDX.adr : Nat := 0xc090000718
def MGMT_IDX.RX_NEXT : Fld := ⟨63, 48⟩
def MGMT_IDX.TX_NEXT : Fld := ⟨47, 32⟩
def MGMT_IDX.TX_KICK : Fld := ⟨0, 0⟩

/-- MGMT_CNT: address (spec/14, R468). -/
def MGMT_CNT.adr : Nat := 0xc090000720
def MGMT_CNT.RX_FRAMES : Fld := ⟨63, 48⟩
def MGMT_CNT.TX_FRAMES : Fld := ⟨47, 32⟩
def MGMT_CNT.RX_DROP : Fld := ⟨31, 16⟩
def MGMT_CNT.TX_POISON : Fld := ⟨15, 0⟩

/-- TILE_MOVE: address (spec/14, R468). -/
def TILE_MOVE.adr : Nat := 0xc090000800
def TILE_MOVE.GO : Fld := ⟨63, 63⟩
def TILE_MOVE.REFUSED : Fld := ⟨62, 62⟩
def TILE_MOVE.SEGMASK : Fld := ⟨39, 24⟩
def TILE_MOVE.POSITION : Fld := ⟨20, 16⟩
def TILE_MOVE.SLOT : Fld := ⟨11, 8⟩
def TILE_MOVE.DIE : Fld := ⟨2, 0⟩

/-- BB_STAT: address (spec/14, R468). -/
def BB_STAT.adr : Nat := 0xc090000900
def BB_STAT.DROPPED : Fld := ⟨63, 48⟩
def BB_STAT.BAD : Fld := ⟨47, 32⟩
def BB_STAT.CORRUPT : Fld := ⟨31, 31⟩
def BB_STAT.FREEZE : Fld := ⟨30, 30⟩
def BB_STAT.COUNT : Fld := ⟨29, 14⟩
def BB_STAT.WPTR : Fld := ⟨12, 0⟩

/-- BB_WR_TYPE: address (spec/14, R468). -/
def BB_WR_TYPE.adr : Nat := 0xc090000908
def BB_WR_TYPE.TYPE : Fld := ⟨15, 0⟩

/-- BB_WR_DATA_0: address (spec/14, R468). -/
def BB_WR_DATA_0.adr : Nat := 0xc090000910
def BB_WR_DATA_0.DATA : Fld := ⟨63, 0⟩

/-- BB_WR_DATA_1: address (spec/14, R468). -/
def BB_WR_DATA_1.adr : Nat := 0xc090000918
def BB_WR_DATA_1.DATA : Fld := ⟨31, 0⟩

/-- BB_RD_IDX: address (spec/14, R468). -/
def BB_RD_IDX.adr : Nat := 0xc090000920
def BB_RD_IDX.INDEX : Fld := ⟨12, 0⟩

/-- BB_WR_GO: address (spec/14, R468). -/
def BB_WR_GO.adr : Nat := 0xc090000928
def BB_WR_GO.GO : Fld := ⟨0, 0⟩

/-- BB_RD: address (spec/14, R468). -/
def BB_RD.adr (n : Nat) : Nat := 0xc090000940 + n * 8
def BB_RD.DATA : Fld := ⟨63, 0⟩

/-- TILE_BOOT_START: address (spec/14, R468). -/
def TILE_BOOT_START.adr (n : Nat) : Nat := 0xc000006000 + n * 0x100000
def TILE_BOOT_START.ADDR : Fld := ⟨63, 2⟩

/-- TILE_BOOT_RUN: address (spec/14, R468). -/
def TILE_BOOT_RUN.adr (n : Nat) : Nat := 0xc000006008 + n * 0x100000
def TILE_BOOT_RUN.RUN : Fld := ⟨15, 0⟩

/-- PCIE_CTL: address (spec/15, R490). -/
def PCIE_CTL.adr : Nat := 0xc0a0000000
def PCIE_CTL.BAR0_LOG2 : Fld := ⟨37, 32⟩
def PCIE_CTL.EVT_VEC : Fld := ⟨21, 16⟩
def PCIE_CTL.MAX_WIDTH : Fld := ⟨10, 8⟩
def PCIE_CTL.MAX_RATE : Fld := ⟨6, 4⟩
def PCIE_CTL.HOT_RESET : Fld := ⟨1, 1⟩
def PCIE_CTL.ENABLE : Fld := ⟨0, 0⟩

/-- PCIE_STAT: address (spec/15, R490). -/
def PCIE_STAT.adr : Nat := 0xc0a0000008
def PCIE_STAT.VENDOR_ID : Fld := ⟨63, 48⟩
def PCIE_STAT.DEVICE_ID : Fld := ⟨47, 32⟩
def PCIE_STAT.LTSSM : Fld := ⟨20, 16⟩
def PCIE_STAT.WIDTH : Fld := ⟨12, 10⟩
def PCIE_STAT.RATE : Fld := ⟨9, 7⟩
def PCIE_STAT.FLIT : Fld := ⟨6, 6⟩
def PCIE_STAT.MODE : Fld := ⟨5, 5⟩
def PCIE_STAT.LINK_UP : Fld := ⟨0, 0⟩

/-- PCIE_EVT: address (spec/15, R490). -/
def PCIE_EVT.adr : Nat := 0xc0a0000010
def PCIE_EVT.MSI_BAD : Fld := ⟨6, 6⟩
def PCIE_EVT.PM : Fld := ⟨5, 5⟩
def PCIE_EVT.HOT_RESET : Fld := ⟨4, 4⟩
def PCIE_EVT.UNCORR : Fld := ⟨3, 3⟩
def PCIE_EVT.CORR : Fld := ⟨2, 2⟩
def PCIE_EVT.LINK_DOWN : Fld := ⟨1, 1⟩
def PCIE_EVT.LINK_UP : Fld := ⟨0, 0⟩

/-- PCIE_MSI: address (spec/15, R490). -/
def PCIE_MSI.adr : Nat := 0xc0a0000028
def PCIE_MSI.ADDR : Fld := ⟨63, 2⟩

/-- PCIE_MSIX_SEND: address (spec/15, R490). -/
def PCIE_MSIX_SEND.adr : Nat := 0xc0a0000030
def PCIE_MSIX_SEND.VECTOR : Fld := ⟨5, 0⟩

/-- PCIE_OUT_BASE: address (spec/15, R490). -/
def PCIE_OUT_BASE.adr : Nat := 0xc0a0000040
def PCIE_OUT_BASE.BASE : Fld := ⟨63, 26⟩

/-- PCIE_OUT_ADDR: address (spec/15, R490). -/
def PCIE_OUT_ADDR.adr : Nat := 0xc0a0000048
def PCIE_OUT_ADDR.ADDR : Fld := ⟨63, 0⟩

/-- PCIE_OUT_DATA: address (spec/15, R490). -/
def PCIE_OUT_DATA.adr : Nat := 0xc0a0000050
def PCIE_OUT_DATA.DATA : Fld := ⟨63, 0⟩

/-- PCIE_OUT_CMD: address (spec/15, R490). -/
def PCIE_OUT_CMD.adr : Nat := 0xc0a0000058
def PCIE_OUT_CMD.GO : Fld := ⟨63, 63⟩
def PCIE_OUT_CMD.STATUS : Fld := ⟨55, 48⟩
def PCIE_OUT_CMD.SIZE : Fld := ⟨5, 4⟩
def PCIE_OUT_CMD.KIND : Fld := ⟨1, 0⟩

/-- PCIE_IN_BASE: address (spec/15, R490). -/
def PCIE_IN_BASE.adr (n : Nat) : Nat := 0xc0a0000100 + n * 0x10
def PCIE_IN_BASE.BASE : Fld := ⟨63, 30⟩
def PCIE_IN_BASE.READ : Fld := ⟨2, 2⟩
def PCIE_IN_BASE.WRITE : Fld := ⟨1, 1⟩
def PCIE_IN_BASE.VALID : Fld := ⟨0, 0⟩

/-- PCIE_IN_MAP: address (spec/15, R490). -/
def PCIE_IN_MAP.adr (n : Nat) : Nat := 0xc0a0000108 + n * 0x10
def PCIE_IN_MAP.LOCAL : Fld := ⟨39, 30⟩

/-- BRD_SMB: address (spec/15, R491). -/
def BRD_SMB.adr : Nat := 0xc0a1000000
def BRD_SMB.WAKE_OUT : Fld := ⟨17, 17⟩
def BRD_SMB.ALERT : Fld := ⟨16, 16⟩
def BRD_SMB.FW_STATUS : Fld := ⟨15, 8⟩
def BRD_SMB.PEC_REQ : Fld := ⟨7, 7⟩
def BRD_SMB.ADDR : Fld := ⟨6, 0⟩

/-- BRD_MBOX: address (spec/15, R491). -/
def BRD_MBOX.adr : Nat := 0xc0a1000008
def BRD_MBOX.VALID : Fld := ⟨63, 63⟩
def BRD_MBOX.VALUE : Fld := ⟨31, 0⟩

/-- PMB_CMD: address (spec/15, R491). -/
def PMB_CMD.adr : Nat := 0xc0a1000010
def PMB_CMD.GO : Fld := ⟨63, 63⟩
def PMB_CMD.STATUS : Fld := ⟨55, 48⟩
def PMB_CMD.LEN : Fld := ⟨43, 40⟩
def PMB_CMD.SPEED : Fld := ⟨33, 32⟩
def PMB_CMD.ALERT : Fld := ⟨31, 31⟩
def PMB_CMD.PEC : Fld := ⟨30, 30⟩
def PMB_CMD.PROTO : Fld := ⟨27, 24⟩
def PMB_CMD.TADDR : Fld := ⟨22, 16⟩
def PMB_CMD.COMMAND : Fld := ⟨7, 0⟩

/-- PMB_DATA: address (spec/15, R491). -/
def PMB_DATA.adr : Nat := 0xc0a1000018
def PMB_DATA.DATA : Fld := ⟨63, 0⟩

/-- MEPC: system register number (spec/03, R93). -/
def MEPC.num : Nat := 0x20
def MEPC.ADDR : Fld := ⟨63, 2⟩

/-- MCAUSE: system register number (spec/03, R93). -/
def MCAUSE.num : Nat := 0x21
def MCAUSE.INT : Fld := ⟨63, 63⟩
def MCAUSE.SLOT : Fld := ⟨14, 12⟩
def MCAUSE.BLEN : Fld := ⟨11, 8⟩
def MCAUSE.CODE : Fld := ⟨7, 0⟩

/-- MBADADDR: system register number (spec/03, R93). -/
def MBADADDR.num : Nat := 0x22
def MBADADDR.ADDR : Fld := ⟨63, 0⟩

/-- MBADSYL: system register number (spec/03, R93). -/
def MBADSYL.num : Nat := 0x23
def MBADSYL.SYL : Fld := ⟨31, 0⟩

/-- MTVEC: system register number (spec/03, R93). -/
def MTVEC.num : Nat := 0x24
def MTVEC.BASE : Fld := ⟨63, 11⟩

/-- SCRATCH_M: system register number (spec/03, R93). -/
def SCRATCH_M.num : Nat := 0x25
def SCRATCH_M.VALUE : Fld := ⟨63, 0⟩

/-- ERR_SYND: address in the register group at `b` (spec/08, R259). -/
def ERR_SYND.adr (b : Nat) : Nat := b + 0x28
def ERR_SYND.CLASS : Fld := ⟨63, 61⟩
def ERR_SYND.SYNDROME : Fld := ⟨54, 48⟩
def ERR_SYND.CHECK : Fld := ⟨38, 32⟩
def ERR_SYND.DATA : Fld := ⟨31, 0⟩

/-- CHAIN_TX_0: address (spec/12, R395). -/
def CHAIN_TX_0.adr : Nat := 0xc080000228
def CHAIN_TX_0.DATA : Fld := ⟨63, 0⟩

/-- CHAIN_TX_1: address (spec/12, R395). -/
def CHAIN_TX_1.adr : Nat := 0xc080000230
def CHAIN_TX_1.DATA : Fld := ⟨63, 0⟩

/-- CHAIN_RX_0: address (spec/12, R395). -/
def CHAIN_RX_0.adr : Nat := 0xc080000238
def CHAIN_RX_0.DATA : Fld := ⟨63, 0⟩

/-- CHAIN_RX_1: address (spec/12, R395). -/
def CHAIN_RX_1.adr : Nat := 0xc080000240
def CHAIN_RX_1.DATA : Fld := ⟨63, 0⟩

/-- CE_DIRTY: address (spec/12, R395). -/
def CE_DIRTY.adr (n : Nat) : Nat := 0xc081000000 + n * 8
def CE_DIRTY.BITS : Fld := ⟨63, 0⟩

/-- CE_PENDING: address (spec/12, R395). -/
def CE_PENDING.adr (n : Nat) : Nat := 0xc082000000 + n * 8
def CE_PENDING.BITS : Fld := ⟨63, 0⟩

end Sys2Proof.Machine
end

