-- ==== Sys2Proof/Machine/RegTable.lean ====
section
/-!
DEFINITION. The register table of control space: for every register the addresses it answers at (R37 and the owning
chapters), its SET and CLR aliases (R12), its fields with their access codes (R11), whether only the service cores
may write it, and its value at reset (R9).  Fields that a table marks "—", fuse or strap take the values of
assumption log entries 1 and 2.
-/

namespace Sys2Proof.Machine

/-- Access codes (R11); `wa` is RO/WA. -/
inductive Acc where
  | ro | wa | roWsWc | rw | rwWsWc | sc | wc | wo | ws | wsWc
deriving DecidableEq, Repr

/-- One field of a register with its access code. -/
structure FieldRow where
  hi : Nat
  lo : Nat
  acc : Acc
deriving DecidableEq, Repr

/-- How a register's reset value is given: a constant, or by its instance number. -/
inductive Rst where
  | val (w : Word)
  | xstat | segCtl | tileMap | fabricRoute | homeMap | evCfg | domCtl | domStat
deriving DecidableEq, Repr

/-- One register, or one array of registers: first address, (instances, stride) of each dimension, offsets of the
SET and CLR aliases (0: none), whether only the service cores may write it, reset value, fields. -/
structure RegRow where
  base : Nat
  dims : List (Nat × Nat)
  setOff : Nat
  clrOff : Nat
  svcOnly : Bool
  rst : Rst
  fields : List FieldRow
deriving DecidableEq, Repr

/-- The kind of crossing `x` of the window at `w` (R62): 0 none, 1 HCQ, 2 DCQ, 3 HFR, 4 pulse, 5 Gray counter. -/
def crossingKind (w x : Nat) : Nat :=
  if w < 0xC008800000 then (if x = 0 then 5 else 0)
  else if w < 0xC020000000 then 0
  else if w < 0xC020800000 then
    (if x ≤ 1 then 1 else if x = 2 then 3 else if x = 3 then 5 else if x ≤ 11 then 4 else 0)
  else if w < 0xC030900000 then
    (if x ≤ 1 then 1 else if x = 2 then 2 else if x = 3 then 3 else if x ≤ 5 then 5 else if x ≤ 9 then 4 else 0)
  else if w < 0xC050000000 then (if x = 0 then 5 else if x = 1 then 3 else if x = 2 then 4 else 0)
  else if w < 0xC080000000 then (if x = 0 then 3 else if x ≤ 16 then 4 else 0)
  else if w < 0xC0A0000000 then
    (if x ≤ 1 then 1 else if x = 2 then 3 else if x ≤ 4 then 4 else if x ≤ 6 then 1 else if x = 7 then 3
     else if x = 8 then 4 else if x = 9 then 1 else if x ≤ 11 then 3 else if x = 12 then 4 else if x ≤ 14 then 5
     else if x ≤ 16 then 1 else if x = 17 then 3 else 0)
  else (if x ≤ 1 then 1 else if x ≤ 3 then 3 else if x ≤ 7 then 4 else 0)

/-- The bridge by which traffic of die `d` for die `e` leaves at reset: along the row first, then across (R221). -/
def fabricDir (d e : Nat) : Nat :=
  if d = e then 0
  else if e % 4 < d % 4 then 1
  else if d % 4 < e % 4 then 2
  else 3

/-- FABRIC_ROUTE.DIR of die `d` at reset. -/
def fabricReset (d : Nat) : Nat :=
  fabricDir d 0 + 4 * fabricDir d 1 + 16 * fabricDir d 2 + 64 * fabricDir d 3
    + 256 * fabricDir d 4 + 1024 * fabricDir d 5 + 4096 * fabricDir d 6 + 16384 * fabricDir d 7

/-- The reserved sources, 7,712 to 8,191: no input, and their registers read 0 but for EV_CFG.KIND (R278). -/
def sourceReserved (n : Nat) : Bool := 7712 ≤ n

/-- EV_CFG_n at reset: KIND of the source, TARGET of the doorbells (R284). -/
def evCfgReset (n : Nat) : Word :=
  BitVec.ofNat 64 ((if sourceReserved n then 2 else 0) * 2 ^ 30 + (if n < 2048 then n else 0))

/-- A reset value by instance numbers. -/
def Rst.value (r : Rst) (base : Nat) (idx : List Nat) : Word :=
  match r, idx with
  | .val w, _ => w
  | .xstat, _ =>
    let k := crossingKind base (idx.getLastD 0)
    if k = 0 then 0 else BitVec.ofNat 64 (k * 2 ^ 20 + 2 ^ 16)
  | .segCtl, _ => if idx.getLastD 0 < 8 then 0 else 1
  | .tileMap, _ => BitVec.ofNat 64 (idx.getLastD 0)
  | .fabricRoute, _ => BitVec.ofNat 64 (fabricReset (idx.headD 0))
  | .homeMap, _ => BitVec.ofNat 64 (idx.getLastD 0 % 8 * 2 ^ 16 + idx.getLastD 0 / 8 * 2 ^ 8)
  | .evCfg, _ => evCfgReset (idx.headD 0)
  | .domCtl, _ =>
    let k := idx.headD 0
    BitVec.ofNat 64 (100 * 2 ^ 48 + (if 144 ≤ k && k ≤ 151 then 3 else 7) * 2 ^ 8 + (if k < 136 then 2 else 0)
      + (if k = 301 || k = 302 then 0 else 1))
  | .domStat, _ => if idx.headD 0 = 301 || idx.headD 0 = 302 then 0x10000 else 0

/-- The instance numbers of offset `off` in an array with these dimensions: none where `off` is no register of it.
Dimensions are tried from the first (the outermost). -/
def dimIndex : List (Nat × Nat) → Nat → Option (List Nat)
  | [], off => if off = 0 then some [] else none
  | (n, st) :: r, off =>
    if off / st < n then (dimIndex r (off % st)).map (off / st :: ·) else none

/-- The registers of the tile block. -/
def RegTable.tileRows : List RegRow :=
  [ ⟨0xc0000ff000, [(136, 0x100000)], 0, 0, false, .val 0x3e80400, [⟨31, 16, .rw⟩, ⟨15, 8, .rw⟩, ⟨3, 3, .rw⟩, ⟨1, 1, .sc⟩, ⟨0, 0, .rw⟩]⟩
  , ⟨0xc0000ff008, [(136, 0x100000)], 0, 0, false, .val 0, [⟨15, 0, .rw⟩]⟩
  , ⟨0xc0000ff010, [(136, 0x100000)], 0, 0, false, .val 0, [⟨29, 24, .ro⟩, ⟨21, 16, .ro⟩, ⟨5, 0, .rw⟩]⟩
  , ⟨0xc0000ff018, [(136, 0x100000)], 0, 0, false, .val 0, [⟨31, 0, .wa⟩]⟩
  , ⟨0xc0000ff020, [(136, 0x100000)], 8, 16, false, .val 0, [⟨31, 16, .ro⟩, ⟨3, 3, .ro⟩, ⟨2, 2, .wc⟩, ⟨1, 1, .wc⟩, ⟨0, 0, .wc⟩]⟩
  , ⟨0xc0000ff038, [(136, 0x100000)], 0, 0, false, .val 0, [⟨63, 32, .ro⟩, ⟨31, 0, .ro⟩]⟩
  , ⟨0xc0000ff040, [(136, 0x100000)], 0, 0, false, .val 0x4a0, [⟨15, 0, .ro⟩]⟩
  , ⟨0xc0000ff048, [(136, 0x100000)], 0, 0, false, .val 0, [⟨31, 0, .ro⟩]⟩
  , ⟨0xc0000ff800, [(136, 0x100000), (32, 0x40)], 8, 16, false, .xstat, [⟨23, 20, .ro⟩, ⟨19, 16, .ro⟩, ⟨15, 8, .ro⟩, ⟨3, 3, .ro⟩, ⟨2, 2, .wc⟩, ⟨1, 1, .wc⟩, ⟨0, 0, .wc⟩]⟩
  , ⟨0xc0000ff818, [(136, 0x100000), (32, 0x40)], 0, 0, false, .val 0, [⟨63, 32, .wa⟩, ⟨31, 16, .wa⟩]⟩
  , ⟨0xc0000ff820, [(136, 0x100000), (32, 0x40)], 0, 0, false, .val 0, [⟨0, 0, .sc⟩]⟩
  , ⟨0xc000001000, [(136, 0x100000), (16, 8)], 0, 0, false, .segCtl, [⟨28, 16, .ro⟩, ⟨4, 4, .ro⟩, ⟨3, 3, .sc⟩, ⟨1, 0, .rw⟩]⟩
  , ⟨0xc000001100, [(136, 0x100000), (16, 8)], 0, 0, false, .val 0, [⟨63, 48, .wa⟩, ⟨7, 0, .ro⟩]⟩
  , ⟨0xc000002030, [(136, 0x100000)], 0, 0, true, .val 0xe1000000410, [⟨63, 48, .wa⟩, ⟨47, 32, .rw⟩, ⟨15, 8, .rw⟩, ⟨7, 0, .rw⟩]⟩
  , ⟨0xc000002038, [(136, 0x100000)], 0, 0, true, .val 0x3c00000000, [⟨63, 32, .rw⟩, ⟨1, 1, .sc⟩, ⟨0, 0, .rw⟩]⟩
  , ⟨0xc000002040, [(136, 0x100000)], 0, 0, true, .val 0, [⟨63, 48, .ro⟩, ⟨47, 47, .ro⟩, ⟨39, 0, .ro⟩]⟩
  , ⟨0xc000002048, [(136, 0x100000)], 0, 0, true, .val 0, [⟨63, 63, .sc⟩, ⟨59, 58, .rw⟩, ⟨39, 0, .rw⟩]⟩
  , ⟨0xc000002050, [(136, 0x100000)], 0, 0, true, .val 0, [⟨38, 32, .rw⟩, ⟨31, 0, .rw⟩]⟩
  , ⟨0xc000002058, [(136, 0x100000)], 0, 0, true, .val 0, [⟨63, 61, .ro⟩, ⟨54, 48, .ro⟩, ⟨38, 32, .ro⟩, ⟨31, 0, .ro⟩]⟩
  , ⟨0xc000002100, [(136, 0x100000), (32, 8)], 0, 0, true, .val 0, [⟨63, 63, .rw⟩, ⟨62, 61, .ro⟩, ⟨55, 48, .ro⟩, ⟨39, 0, .ro⟩]⟩
  , ⟨0xc000002000, [(136, 0x100000)], 8, 16, true, .val 0, [⟨6, 6, .wc⟩, ⟨5, 5, .wc⟩, ⟨4, 4, .wc⟩, ⟨3, 3, .wc⟩, ⟨2, 2, .wc⟩, ⟨1, 1, .wc⟩, ⟨0, 0, .wc⟩]⟩
  , ⟨0xc000002018, [(136, 0x100000)], 0, 0, true, .val 0, [⟨63, 32, .wa⟩, ⟨31, 16, .wa⟩, ⟨15, 0, .wa⟩]⟩
  , ⟨0xc000002020, [(136, 0x100000)], 0, 0, true, .val 0, [⟨63, 61, .ro⟩, ⟨60, 56, .ro⟩, ⟨39, 0, .ro⟩]⟩
  , ⟨0xc000002028, [(136, 0x100000)], 0, 0, true, .val 0, [⟨63, 61, .ro⟩, ⟨54, 48, .ro⟩, ⟨38, 32, .ro⟩, ⟨31, 0, .ro⟩]⟩
  , ⟨0xc000002200, [(136, 0x100000)], 0, 0, true, .val 0, [⟨47, 32, .rw⟩, ⟨16, 16, .ro⟩, ⟨15, 0, .rw⟩]⟩
  , ⟨0xc000002400, [(136, 0x100000), (16, 0x40), (8, 8)], 0, 0, true, .val 0, [⟨63, 63, .rw⟩, ⟨9, 0, .rw⟩]⟩
  , ⟨0xc000004000, [(136, 0x100000), (32, 0x40)], 8, 16, false, .val 0, [⟨6, 6, .wc⟩, ⟨5, 5, .wc⟩, ⟨4, 4, .wc⟩, ⟨3, 3, .wc⟩, ⟨2, 2, .wc⟩, ⟨1, 1, .wc⟩]⟩
  , ⟨0xc000004018, [(136, 0x100000), (32, 0x40)], 0, 0, false, .val 0, [⟨63, 56, .wa⟩, ⟨55, 48, .wa⟩, ⟨47, 32, .wa⟩, ⟨31, 0, .wa⟩]⟩
  , ⟨0xc000004020, [(136, 0x100000), (32, 0x40)], 0, 0, false, .val 0, [⟨63, 62, .ro⟩, ⟨47, 32, .ro⟩, ⟨15, 0, .ro⟩]⟩
  , ⟨0xc000005000, [(136, 0x100000), (16, 8)], 0, 0, false, .val 0, [⟨63, 48, .wa⟩, ⟨41, 40, .ro⟩, ⟨39, 32, .ro⟩]⟩
  , ⟨0xc000005100, [(136, 0x100000)], 0, 0, false, .val 0, [⟨63, 48, .wa⟩, ⟨2, 0, .ro⟩]⟩
  , ⟨0xc000006000, [(136, 0x100000)], 0, 0, true, .val 0, [⟨63, 2, .rw⟩]⟩
  , ⟨0xc000006008, [(136, 0x100000)], 0, 0, true, .val 0, [⟨15, 0, .rw⟩]⟩ ]

/-- The registers of the die block. -/
def RegTable.dieRows : List RegRow :=
  [ ⟨0xc010fff000, [(8, 0x1000000)], 0, 0, false, .val 0x3e80400, [⟨31, 16, .rw⟩, ⟨15, 8, .rw⟩, ⟨3, 3, .rw⟩, ⟨1, 1, .sc⟩, ⟨0, 0, .rw⟩]⟩
  , ⟨0xc010fff008, [(8, 0x1000000)], 0, 0, false, .val 0, [⟨15, 0, .rw⟩]⟩
  , ⟨0xc010fff010, [(8, 0x1000000)], 0, 0, false, .val 0, [⟨29, 24, .ro⟩, ⟨21, 16, .ro⟩, ⟨5, 0, .rw⟩]⟩
  , ⟨0xc010fff018, [(8, 0x1000000)], 0, 0, false, .val 0, [⟨31, 0, .wa⟩]⟩
  , ⟨0xc010fff020, [(8, 0x1000000)], 8, 16, false, .val 0, [⟨31, 16, .ro⟩, ⟨3, 3, .ro⟩, ⟨2, 2, .wc⟩, ⟨1, 1, .wc⟩, ⟨0, 0, .wc⟩]⟩
  , ⟨0xc010fff038, [(8, 0x1000000)], 0, 0, false, .val 0, [⟨63, 32, .ro⟩, ⟨31, 0, .ro⟩]⟩
  , ⟨0xc010fff040, [(8, 0x1000000)], 0, 0, false, .val 0x140, [⟨15, 0, .ro⟩]⟩
  , ⟨0xc010fff048, [(8, 0x1000000)], 0, 0, false, .val 0, [⟨31, 0, .ro⟩]⟩
  , ⟨0xc010fff800, [(8, 0x1000000), (32, 0x40)], 8, 16, false, .xstat, [⟨23, 20, .ro⟩, ⟨19, 16, .ro⟩, ⟨15, 8, .ro⟩, ⟨3, 3, .ro⟩, ⟨2, 2, .wc⟩, ⟨1, 1, .wc⟩, ⟨0, 0, .wc⟩]⟩
  , ⟨0xc010fff818, [(8, 0x1000000), (32, 0x40)], 0, 0, false, .val 0, [⟨63, 32, .wa⟩, ⟨31, 16, .wa⟩]⟩
  , ⟨0xc010fff820, [(8, 0x1000000), (32, 0x40)], 0, 0, false, .val 0, [⟨0, 0, .sc⟩]⟩
  , ⟨0xc010004000, [(8, 0x1000000)], 8, 16, true, .val 0, [⟨6, 6, .wc⟩, ⟨5, 5, .wc⟩, ⟨4, 4, .wc⟩, ⟨3, 3, .wc⟩, ⟨2, 2, .wc⟩, ⟨1, 1, .wc⟩, ⟨0, 0, .wc⟩]⟩
  , ⟨0xc010004018, [(8, 0x1000000)], 0, 0, true, .val 0, [⟨63, 32, .wa⟩, ⟨31, 16, .wa⟩, ⟨15, 0, .wa⟩]⟩
  , ⟨0xc010004020, [(8, 0x1000000)], 0, 0, true, .val 0, [⟨63, 61, .ro⟩, ⟨60, 56, .ro⟩, ⟨39, 0, .ro⟩]⟩
  , ⟨0xc010004028, [(8, 0x1000000)], 0, 0, true, .val 0, [⟨63, 61, .ro⟩, ⟨54, 48, .ro⟩, ⟨38, 32, .ro⟩, ⟨31, 0, .ro⟩]⟩
  , ⟨0xc010001000, [(8, 0x1000000), (16, 8)], 0, 0, true, .tileMap, [⟨7, 7, .rw⟩, ⟨4, 0, .rw⟩]⟩
  , ⟨0xc010003000, [(8, 0x1000000)], 0, 0, true, .fabricRoute, [⟨15, 0, .rw⟩]⟩
  , ⟨0xc010002000, [], 8, 16, true, .val 0, [⟨47, 32, .ro⟩, ⟨2, 2, .ro⟩, ⟨0, 0, .ws⟩]⟩
  , ⟨0xc010002018, [], 0, 0, true, .val 0, [⟨63, 63, .sc⟩, ⟨41, 32, .rw⟩, ⟨19, 16, .rw⟩, ⟨14, 8, .rw⟩, ⟨0, 0, .rw⟩]⟩
  , ⟨0xc010002020, [], 0, 0, true, .val 0, [⟨1, 0, .rw⟩]⟩
  , ⟨0xc010100000, [(1024, 8)], 0, 0, true, .homeMap, [⟨19, 16, .rw⟩, ⟨14, 8, .rw⟩, ⟨1, 1, .ro⟩, ⟨0, 0, .rw⟩]⟩ ]

/-- The registers of the mc block. -/
def RegTable.mcRows : List RegRow :=
  [ ⟨0xc0200ff000, [(8, 0x100000)], 0, 0, false, .val 0x3e80400, [⟨31, 16, .rw⟩, ⟨15, 8, .rw⟩, ⟨3, 3, .rw⟩, ⟨1, 1, .sc⟩, ⟨0, 0, .rw⟩]⟩
  , ⟨0xc0200ff008, [(8, 0x100000)], 0, 0, false, .val 0, [⟨15, 0, .rw⟩]⟩
  , ⟨0xc0200ff010, [(8, 0x100000)], 0, 0, false, .val 0, [⟨29, 24, .ro⟩, ⟨21, 16, .ro⟩, ⟨5, 0, .rw⟩]⟩
  , ⟨0xc0200ff018, [(8, 0x100000)], 0, 0, false, .val 0, [⟨31, 0, .wa⟩]⟩
  , ⟨0xc0200ff020, [(8, 0x100000)], 8, 16, false, .val 0, [⟨31, 16, .ro⟩, ⟨3, 3, .ro⟩, ⟨2, 2, .wc⟩, ⟨1, 1, .wc⟩, ⟨0, 0, .wc⟩]⟩
  , ⟨0xc0200ff038, [(8, 0x100000)], 0, 0, false, .val 0, [⟨63, 32, .ro⟩, ⟨31, 0, .ro⟩]⟩
  , ⟨0xc0200ff040, [(8, 0x100000)], 0, 0, false, .val 0x60, [⟨15, 0, .ro⟩]⟩
  , ⟨0xc0200ff048, [(8, 0x100000)], 0, 0, false, .val 0, [⟨31, 0, .ro⟩]⟩
  , ⟨0xc0200ff800, [(8, 0x100000), (32, 0x40)], 8, 16, false, .xstat, [⟨23, 20, .ro⟩, ⟨19, 16, .ro⟩, ⟨15, 8, .ro⟩, ⟨3, 3, .ro⟩, ⟨2, 2, .wc⟩, ⟨1, 1, .wc⟩, ⟨0, 0, .wc⟩]⟩
  , ⟨0xc0200ff818, [(8, 0x100000), (32, 0x40)], 0, 0, false, .val 0, [⟨63, 32, .wa⟩, ⟨31, 16, .wa⟩]⟩
  , ⟨0xc0200ff820, [(8, 0x100000), (32, 0x40)], 0, 0, false, .val 0, [⟨0, 0, .sc⟩]⟩
  , ⟨0xc020002030, [(8, 0x100000)], 0, 0, true, .val 0xe1000000410, [⟨63, 48, .wa⟩, ⟨47, 32, .rw⟩, ⟨15, 8, .rw⟩, ⟨7, 0, .rw⟩]⟩
  , ⟨0xc020002038, [(8, 0x100000)], 0, 0, true, .val 0x1518000000000, [⟨63, 32, .rw⟩, ⟨1, 1, .sc⟩, ⟨0, 0, .rw⟩]⟩
  , ⟨0xc020002040, [(8, 0x100000)], 0, 0, true, .val 0, [⟨63, 48, .ro⟩, ⟨47, 47, .ro⟩, ⟨39, 0, .ro⟩]⟩
  , ⟨0xc020002048, [(8, 0x100000)], 0, 0, true, .val 0, [⟨63, 63, .sc⟩, ⟨59, 58, .rw⟩, ⟨39, 0, .rw⟩]⟩
  , ⟨0xc020002050, [(8, 0x100000)], 0, 0, true, .val 0, [⟨38, 32, .rw⟩, ⟨31, 0, .rw⟩]⟩
  , ⟨0xc020002058, [(8, 0x100000)], 0, 0, true, .val 0, [⟨63, 61, .ro⟩, ⟨54, 48, .ro⟩, ⟨38, 32, .ro⟩, ⟨31, 0, .ro⟩]⟩
  , ⟨0xc020002100, [(8, 0x100000), (32, 8)], 0, 0, true, .val 0, [⟨63, 63, .rw⟩, ⟨62, 61, .ro⟩, ⟨55, 48, .ro⟩, ⟨39, 0, .ro⟩]⟩
  , ⟨0xc020002000, [(8, 0x100000)], 8, 16, true, .val 0, [⟨6, 6, .wc⟩, ⟨5, 5, .wc⟩, ⟨4, 4, .wc⟩, ⟨3, 3, .wc⟩, ⟨2, 2, .wc⟩, ⟨1, 1, .wc⟩, ⟨0, 0, .wc⟩]⟩
  , ⟨0xc020002018, [(8, 0x100000)], 0, 0, true, .val 0, [⟨63, 32, .wa⟩, ⟨31, 16, .wa⟩, ⟨15, 0, .wa⟩]⟩
  , ⟨0xc020002020, [(8, 0x100000)], 0, 0, true, .val 0, [⟨63, 61, .ro⟩, ⟨60, 56, .ro⟩, ⟨39, 0, .ro⟩]⟩
  , ⟨0xc020002028, [(8, 0x100000)], 0, 0, true, .val 0, [⟨63, 61, .ro⟩, ⟨54, 48, .ro⟩, ⟨38, 32, .ro⟩, ⟨31, 0, .ro⟩]⟩
  , ⟨0xc020002200, [(8, 0x100000)], 0, 0, true, .val 0, [⟨3, 3, .ro⟩, ⟨1, 1, .rw⟩, ⟨0, 0, .sc⟩]⟩
  , ⟨0xc020002208, [(8, 0x100000)], 0, 0, true, .val 0, [⟨25, 0, .rw⟩]⟩
  , ⟨0xc020002210, [(8, 0x100000)], 0, 0, true, .val 0, [⟨25, 0, .rw⟩]⟩
  , ⟨0xc020002218, [(8, 0x100000)], 0, 0, true, .val 0, [⟨63, 0, .rw⟩]⟩
  , ⟨0xc020003000, [(8, 0x100000), (1024, 8)], 0, 0, true, .val 0, [⟨63, 63, .rw⟩, ⟨25, 0, .rw⟩]⟩
  , ⟨0xc020005000, [(8, 0x100000), (64, 8)], 0, 0, true, .val 0, [⟨63, 63, .rw⟩, ⟨62, 62, .rw⟩, ⟨23, 0, .rw⟩]⟩
  , ⟨0xc020006000, [(512, 8)], 0, 0, true, .val 0, [⟨2, 2, .ro⟩, ⟨1, 1, .ro⟩, ⟨0, 0, .rw⟩]⟩
  , ⟨0xc020000000, [(8, 0x100000)], 0, 0, false, .val 0, [⟨3, 0, .ro⟩]⟩ ]

/-- The registers of the link block. -/
def RegTable.linkRows : List RegRow :=
  [ ⟨0xc03000f000, [(144, 0x10000)], 0, 0, false, .val 0x3e80400, [⟨31, 16, .rw⟩, ⟨15, 8, .rw⟩, ⟨3, 3, .rw⟩, ⟨1, 1, .sc⟩, ⟨0, 0, .rw⟩]⟩
  , ⟨0xc03000f008, [(144, 0x10000)], 0, 0, false, .val 0, [⟨15, 0, .rw⟩]⟩
  , ⟨0xc03000f010, [(144, 0x10000)], 0, 0, false, .val 0, [⟨29, 24, .ro⟩, ⟨21, 16, .ro⟩, ⟨5, 0, .rw⟩]⟩
  , ⟨0xc03000f018, [(144, 0x10000)], 0, 0, false, .val 0, [⟨31, 0, .wa⟩]⟩
  , ⟨0xc03000f020, [(144, 0x10000)], 8, 16, false, .val 0, [⟨31, 16, .ro⟩, ⟨3, 3, .ro⟩, ⟨2, 2, .wc⟩, ⟨1, 1, .wc⟩, ⟨0, 0, .wc⟩]⟩
  , ⟨0xc03000f038, [(144, 0x10000)], 0, 0, false, .val 0, [⟨63, 32, .ro⟩, ⟨31, 0, .ro⟩]⟩
  , ⟨0xc03000f040, [(144, 0x10000)], 0, 0, false, .val 0, [⟨15, 0, .ro⟩]⟩
  , ⟨0xc03000f048, [(144, 0x10000)], 0, 0, false, .val 0, [⟨31, 0, .ro⟩]⟩
  , ⟨0xc03000f800, [(144, 0x10000), (32, 0x40)], 8, 16, false, .xstat, [⟨23, 20, .ro⟩, ⟨19, 16, .ro⟩, ⟨15, 8, .ro⟩, ⟨3, 3, .ro⟩, ⟨2, 2, .wc⟩, ⟨1, 1, .wc⟩, ⟨0, 0, .wc⟩]⟩
  , ⟨0xc03000f818, [(144, 0x10000), (32, 0x40)], 0, 0, false, .val 0, [⟨63, 32, .wa⟩, ⟨31, 16, .wa⟩]⟩
  , ⟨0xc03000f820, [(144, 0x10000), (32, 0x40)], 0, 0, false, .val 0, [⟨0, 0, .sc⟩]⟩
  , ⟨0xc030000000, [(144, 0x10000)], 0, 0, false, .val 0x400, [⟨31, 31, .rw⟩, ⟨28, 28, .sc⟩, ⟨27, 27, .sc⟩, ⟨26, 24, .rw⟩, ⟨17, 16, .rw⟩, ⟨12, 12, .rw⟩, ⟨11, 11, .rw⟩, ⟨10, 10, .rw⟩, ⟨9, 8, .rw⟩, ⟨5, 4, .rw⟩, ⟨0, 0, .rw⟩]⟩
  , ⟨0xc030000008, [(144, 0x10000)], 0, 0, false, .val 0x800, [⟨63, 48, .ro⟩, ⟨47, 40, .ro⟩, ⟨39, 39, .ro⟩, ⟨38, 38, .ro⟩, ⟨19, 16, .ro⟩, ⟨11, 10, .ro⟩, ⟨9, 8, .ro⟩, ⟨1, 1, .ro⟩, ⟨0, 0, .ro⟩]⟩
  , ⟨0xc030000028, [(144, 0x10000)], 0, 0, false, .val 0, [⟨63, 48, .rw⟩, ⟨47, 40, .rw⟩, ⟨0, 0, .rw⟩]⟩
  , ⟨0xc030000030, [(144, 0x10000)], 0, 0, false, .val 0x640190200a100a, [⟨63, 48, .rw⟩, ⟨47, 32, .rw⟩, ⟨31, 24, .rw⟩, ⟨23, 16, .rw⟩, ⟨15, 8, .rw⟩, ⟨7, 0, .rw⟩]⟩
  , ⟨0xc030000038, [(144, 0x10000)], 0, 0, false, .val 0x30404001003e8, [⟨55, 48, .rw⟩, ⟨47, 40, .rw⟩, ⟨39, 32, .rw⟩, ⟨31, 16, .rw⟩, ⟨15, 0, .rw⟩]⟩
  , ⟨0xc030000080, [(144, 0x10000)], 0, 0, false, .val 0, [⟨59, 48, .ro⟩, ⟨43, 32, .ro⟩, ⟨27, 16, .ro⟩, ⟨9, 0, .ro⟩]⟩
  , ⟨0xc030000088, [(144, 0x10000)], 0, 0, false, .val 0, [⟨63, 32, .wa⟩, ⟨31, 16, .wa⟩, ⟨15, 0, .wa⟩]⟩
  , ⟨0xc030000090, [(144, 0x10000)], 0, 0, false, .val 0, [⟨63, 48, .wa⟩, ⟨47, 32, .wa⟩, ⟨31, 16, .wa⟩, ⟨15, 0, .wa⟩]⟩
  , ⟨0xc030000098, [(144, 0x10000)], 0, 0, false, .val 0, [⟨63, 56, .ro⟩, ⟨55, 48, .ro⟩, ⟨31, 0, .wa⟩]⟩
  , ⟨0xc030000010, [(144, 0x10000)], 8, 16, false, .val 0, [⟨10, 10, .wc⟩, ⟨9, 9, .wc⟩, ⟨8, 8, .wc⟩, ⟨7, 7, .wc⟩, ⟨6, 6, .wc⟩, ⟨5, 5, .wc⟩, ⟨4, 4, .wc⟩, ⟨3, 3, .wc⟩, ⟨2, 2, .wc⟩, ⟨1, 1, .wc⟩, ⟨0, 0, .wc⟩]⟩
  , ⟨0xc030000040, [(144, 0x10000), (8, 8)], 0, 0, false, .val 0x80000000000000, [⟨58, 48, .rw⟩, ⟨42, 32, .ro⟩, ⟨26, 16, .ro⟩, ⟨10, 0, .ro⟩]⟩ ]

/-- The registers of the slice block. -/
def RegTable.sliceRows : List RegRow :=
  [ ⟨0xc043fff000, [(4, 0x4000000)], 0, 0, false, .val 0x3e80400, [⟨31, 16, .rw⟩, ⟨15, 8, .rw⟩, ⟨3, 3, .rw⟩, ⟨1, 1, .sc⟩, ⟨0, 0, .rw⟩]⟩
  , ⟨0xc043fff008, [(4, 0x4000000)], 0, 0, false, .val 0, [⟨15, 0, .rw⟩]⟩
  , ⟨0xc043fff010, [(4, 0x4000000)], 0, 0, false, .val 0, [⟨29, 24, .ro⟩, ⟨21, 16, .ro⟩, ⟨5, 0, .rw⟩]⟩
  , ⟨0xc043fff018, [(4, 0x4000000)], 0, 0, false, .val 0, [⟨31, 0, .wa⟩]⟩
  , ⟨0xc043fff020, [(4, 0x4000000)], 8, 16, false, .val 0, [⟨31, 16, .ro⟩, ⟨3, 3, .ro⟩, ⟨2, 2, .wc⟩, ⟨1, 1, .wc⟩, ⟨0, 0, .wc⟩]⟩
  , ⟨0xc043fff038, [(4, 0x4000000)], 0, 0, false, .val 0, [⟨63, 32, .ro⟩, ⟨31, 0, .ro⟩]⟩
  , ⟨0xc043fff040, [(4, 0x4000000)], 0, 0, false, .val 0x580, [⟨15, 0, .ro⟩]⟩
  , ⟨0xc043fff048, [(4, 0x4000000)], 0, 0, false, .val 0, [⟨31, 0, .ro⟩]⟩
  , ⟨0xc043fff800, [(4, 0x4000000), (32, 0x40)], 8, 16, false, .xstat, [⟨23, 20, .ro⟩, ⟨19, 16, .ro⟩, ⟨15, 8, .ro⟩, ⟨3, 3, .ro⟩, ⟨2, 2, .wc⟩, ⟨1, 1, .wc⟩, ⟨0, 0, .wc⟩]⟩
  , ⟨0xc043fff818, [(4, 0x4000000), (32, 0x40)], 0, 0, false, .val 0, [⟨63, 32, .wa⟩, ⟨31, 16, .wa⟩]⟩
  , ⟨0xc043fff820, [(4, 0x4000000), (32, 0x40)], 0, 0, false, .val 0, [⟨0, 0, .sc⟩]⟩
  , ⟨0xc040004000, [(4, 0x4000000)], 8, 16, true, .val 0, [⟨6, 6, .wc⟩, ⟨5, 5, .wc⟩, ⟨4, 4, .wc⟩, ⟨3, 3, .wc⟩, ⟨2, 2, .wc⟩, ⟨1, 1, .wc⟩, ⟨0, 0, .wc⟩]⟩
  , ⟨0xc040004018, [(4, 0x4000000)], 0, 0, true, .val 0, [⟨63, 32, .wa⟩, ⟨31, 16, .wa⟩, ⟨15, 0, .wa⟩]⟩
  , ⟨0xc040004020, [(4, 0x4000000)], 0, 0, true, .val 0, [⟨63, 61, .ro⟩, ⟨60, 56, .ro⟩, ⟨39, 0, .ro⟩]⟩
  , ⟨0xc040004028, [(4, 0x4000000)], 0, 0, true, .val 0, [⟨63, 61, .ro⟩, ⟨54, 48, .ro⟩, ⟨38, 32, .ro⟩, ⟨31, 0, .ro⟩]⟩
  , ⟨0xc040000000, [], 0, 0, true, .val 0, [⟨31, 16, .rw⟩, ⟨5, 5, .rw⟩, ⟨4, 4, .rw⟩, ⟨3, 3, .rw⟩, ⟨2, 2, .rw⟩, ⟨1, 1, .rw⟩, ⟨0, 0, .rw⟩]⟩
  , ⟨0xc040000008, [], 0, 0, true, .val 0, [⟨0, 0, .rw⟩]⟩
  , ⟨0xc040000010, [], 0, 0, true, .val 0xc8000003e8, [⟨47, 32, .rw⟩, ⟨31, 0, .rw⟩]⟩
  , ⟨0xc040000020, [(4, 0x4000000)], 0, 0, true, .val 0, [⟨63, 48, .ro⟩, ⟨7, 0, .ro⟩]⟩
  , ⟨0xc040000028, [(4, 0x4000000)], 8, 16, true, .val 0, [⟨6, 6, .wc⟩, ⟨5, 5, .wc⟩, ⟨4, 4, .wc⟩, ⟨3, 3, .wc⟩, ⟨2, 2, .wc⟩, ⟨1, 1, .wc⟩, ⟨0, 0, .wc⟩]⟩
  , ⟨0xc040000040, [(4, 0x4000000)], 0, 0, true, .val 0, [⟨63, 48, .wa⟩, ⟨47, 32, .wa⟩, ⟨31, 16, .wa⟩, ⟨15, 0, .wa⟩]⟩
  , ⟨0xc040000048, [(4, 0x4000000)], 0, 0, true, .val 0, [⟨63, 32, .wa⟩, ⟨31, 16, .wa⟩, ⟨15, 0, .wa⟩]⟩
  , ⟨0xc040000100, [(8, 8)], 0, 0, true, .val 0, [⟨63, 63, .rw⟩, ⟨62, 62, .rw⟩, ⟨61, 61, .rw⟩, ⟨31, 16, .rw⟩, ⟨15, 0, .rw⟩]⟩
  , ⟨0xc041000000, [(4, 0x4000000), (2, 0x80000), (65536, 8)], 0, 0, true, .val 0, [⟨35, 32, .rw⟩, ⟨31, 24, .rw⟩, ⟨23, 16, .rw⟩, ⟨15, 8, .rw⟩, ⟨7, 0, .rw⟩]⟩
  , ⟨0xc042000000, [(4, 0x4000000), (16, 0x100)], 0, 0, true, .val 0x10000, [⟨63, 63, .rw⟩, ⟨62, 62, .rw⟩, ⟨55, 48, .rw⟩, ⟨43, 32, .rw⟩, ⟨31, 28, .rw⟩, ⟨27, 24, .rw⟩, ⟨23, 23, .rw⟩, ⟨22, 16, .rw⟩]⟩
  , ⟨0xc042000008, [(4, 0x4000000), (16, 0x100)], 0, 0, true, .val 0, [⟨63, 0, .rw⟩]⟩
  , ⟨0xc042000010, [(4, 0x4000000), (16, 0x100)], 0, 0, true, .val 0, [⟨63, 0, .rw⟩]⟩
  , ⟨0xc042000018, [(4, 0x4000000), (16, 0x100)], 0, 0, true, .val 0, [⟨15, 0, .rw⟩]⟩
  , ⟨0xc042000020, [(4, 0x4000000), (16, 0x100)], 0, 0, true, .val 0, [⟨39, 0, .rw⟩]⟩
  , ⟨0xc042000028, [(4, 0x4000000), (16, 0x100)], 0, 0, false, .val 0, [⟨63, 48, .wo⟩, ⟨39, 0, .wo⟩]⟩
  , ⟨0xc042000030, [(4, 0x4000000), (16, 0x100)], 0, 0, true, .val 0, [⟨63, 48, .rw⟩, ⟨47, 36, .ro⟩, ⟨35, 24, .ro⟩, ⟨23, 16, .ro⟩, ⟨3, 0, .ro⟩]⟩
  , ⟨0xc042000038, [(4, 0x4000000), (16, 0x100)], 0, 0, true, .val 0x2710, [⟨31, 0, .rw⟩]⟩
  , ⟨0xc042000040, [(4, 0x4000000), (16, 0x100)], 0, 0, true, .val 0, [⟨63, 32, .wa⟩, ⟨31, 16, .wa⟩, ⟨15, 0, .wa⟩]⟩
  , ⟨0xc043000000, [], 0, 0, true, .val 0x3e8, [⟨63, 63, .rw⟩, ⟨62, 62, .rw⟩, ⟨55, 48, .rw⟩, ⟨31, 0, .rw⟩]⟩
  , ⟨0xc043000008, [], 8, 16, true, .val 0xff00000000000000, [⟨63, 56, .ro⟩, ⟨47, 32, .ro⟩, ⟨2, 2, .wc⟩, ⟨1, 1, .wsWc⟩, ⟨0, 0, .ro⟩]⟩
  , ⟨0xc043000020, [], 0, 0, true, .val 0, [⟨63, 32, .ro⟩, ⟨31, 0, .ro⟩]⟩
  , ⟨0xc043000100, [(144, 8)], 0, 0, true, .val 0, [⟨15, 0, .rw⟩]⟩ ]

/-- The registers of the hub block. -/
def RegTable.hubRows : List RegRow :=
  [ ⟨0xc050000000, [], 0, 0, false, .val 0, [⟨63, 32, .wa⟩]⟩
  , ⟨0xc050000100, [], 0, 0, false, .val 0, [⟨10, 0, .wo⟩]⟩
  , ⟨0xc050010000, [(128, 0x20)], 8, 16, false, .val 0xffffffffffffffff, [⟨63, 0, .rwWsWc⟩]⟩
  , ⟨0xc050020000, [(128, 0x20)], 8, 16, false, .val 0, [⟨63, 0, .roWsWc⟩]⟩
  , ⟨0xc050030000, [(128, 8)], 0, 0, false, .val 0, [⟨63, 0, .ro⟩]⟩
  , ⟨0xc050040000, [(128, 0x20)], 0, 16, false, .val 0, [⟨63, 0, .wc⟩]⟩
  , ⟨0xc050050000, [(128, 0x20)], 0, 16, false, .val 0, [⟨63, 0, .wc⟩]⟩
  , ⟨0xc050100000, [(8192, 0x20)], 0, 0, false, .evCfg, [⟨31, 30, .ro⟩, ⟨19, 16, .rw⟩, ⟨10, 0, .rw⟩]⟩
  , ⟨0xc050100008, [(8192, 0x20)], 0, 0, false, .val 0, [⟨42, 32, .ro⟩, ⟨17, 17, .ro⟩, ⟨16, 16, .ro⟩, ⟨15, 0, .ro⟩]⟩
  , ⟨0xc050100010, [(8192, 0x20)], 0, 0, false, .val 0, [⟨63, 32, .ro⟩, ⟨31, 0, .ro⟩]⟩
  , ⟨0xc050200000, [(2048, 0x40)], 0, 0, false, .val 0, [⟨63, 63, .ro⟩, ⟨47, 32, .ro⟩, ⟨28, 28, .ro⟩, ⟨27, 24, .ro⟩, ⟨12, 0, .ro⟩]⟩
  , ⟨0xc050200008, [(2048, 0x40)], 0, 0, false, .val 0, [⟨47, 32, .wo⟩, ⟨12, 0, .wo⟩]⟩
  , ⟨0xc050200010, [(2048, 0x40)], 0, 0, false, .val 0, [⟨3, 0, .rw⟩]⟩
  , ⟨0xc050200018, [(2048, 0x40)], 8, 16, false, .val 0, [⟨63, 48, .ro⟩, ⟨1, 1, .wc⟩, ⟨0, 0, .ro⟩]⟩
  , ⟨0xc050300000, [(64, 8)], 0, 0, false, .val 0, [⟨63, 63, .rw⟩, ⟨59, 58, .rw⟩, ⟨12, 0, .rw⟩]⟩
  , ⟨0xc050300200, [], 0, 0, false, .val 0, [⟨0, 0, .ro⟩]⟩
  , ⟨0xc050300208, [], 0, 16, false, .val 0, [⟨63, 0, .wc⟩]⟩ ]

/-- The registers of the pwr block. -/
def RegTable.pwrRows : List RegRow :=
  [ ⟨0xc060000000, [], 0, 0, true, .val 0, [⟨2, 2, .sc⟩, ⟨1, 0, .rw⟩]⟩
  , ⟨0xc060000008, [], 0, 0, true, .val 0, [⟨15, 8, .ro⟩, ⟨7, 4, .ro⟩, ⟨3, 0, .ro⟩]⟩
  , ⟨0xc060000010, [], 0, 0, true, .val 0, [⟨63, 60, .ro⟩, ⟨59, 59, .ro⟩, ⟨53, 48, .ro⟩, ⟨47, 0, .ro⟩]⟩
  , ⟨0xc060000018, [], 0, 0, true, .val 0x352000003520, [⟨63, 63, .rw⟩, ⟨55, 32, .ro⟩, ⟨23, 0, .rw⟩]⟩
  , ⟨0xc060000020, [], 0, 0, true, .val 0, [⟨63, 63, .sc⟩, ⟨62, 62, .ro⟩, ⟨47, 40, .rw⟩, ⟨39, 32, .rw⟩, ⟨23, 0, .rw⟩]⟩
  , ⟨0xc060000028, [], 0, 0, true, .val 0x80000000000006a4, [⟨63, 63, .rw⟩, ⟨62, 62, .ro⟩, ⟨15, 0, .rw⟩]⟩
  , ⟨0xc060000030, [], 0, 0, true, .val 0x6400, [⟨19, 16, .ro⟩, ⟨15, 8, .rw⟩, ⟨7, 0, .ro⟩]⟩
  , ⟨0xc060000038, [], 0, 0, true, .val 0xffffffffffff, [⟨47, 0, .rw⟩]⟩
  , ⟨0xc060000040, [], 0, 0, true, .val 0, [⟨63, 0, .ro⟩]⟩
  , ⟨0xc060000048, [], 0, 0, true, .val 0, [⟨47, 0, .ro⟩]⟩
  , ⟨0xc060000050, [], 0, 0, true, .val 0, [⟨39, 0, .ro⟩]⟩
  , ⟨0xc060000080, [(8, 8)], 0, 0, true, .val 0, [⟨23, 0, .rw⟩]⟩
  , ⟨0xc060000100, [(64, 8)], 0, 0, true, .val 0, [⟨15, 0, .ro⟩]⟩
  , ⟨0xc060010000, [(303, 0x40)], 0, 0, true, .domCtl, [⟨63, 48, .rw⟩, ⟨11, 11, .sc⟩, ⟨10, 8, .rw⟩, ⟨2, 2, .rw⟩, ⟨1, 1, .rw⟩, ⟨0, 0, .rw⟩]⟩
  , ⟨0xc060010008, [(303, 0x40)], 8, 16, true, .domStat, [⟨63, 48, .wa⟩, ⟨19, 16, .ro⟩, ⟨15, 15, .ro⟩, ⟨14, 12, .ro⟩, ⟨10, 8, .ro⟩, ⟨4, 4, .wc⟩, ⟨3, 3, .ro⟩, ⟨2, 2, .wc⟩, ⟨1, 1, .wc⟩]⟩
  , ⟨0xc060010020, [(136, 0x40)], 0, 0, true, .val 0x55555555, [⟨63, 48, .ro⟩, ⟨31, 0, .rw⟩]⟩
  , ⟨0xc060010028, [(136, 0x40)], 0, 0, true, .val 0, [⟨23, 0, .ro⟩]⟩
  , ⟨0xc060010030, [(136, 0x40)], 0, 0, true, .val 0, [⟨63, 60, .ro⟩, ⟨59, 59, .ro⟩, ⟨53, 48, .ro⟩, ⟨47, 0, .ro⟩]⟩
  , ⟨0xc060010038, [(136, 0x40)], 0, 0, true, .val 0, [⟨63, 0, .ro⟩]⟩
  , ⟨0xc060020000, [(304, 8)], 0, 0, true, .val 0, [⟨63, 0, .ro⟩]⟩ ]

/-- The registers of the time block. -/
def RegTable.timeRows : List RegRow :=
  [ ⟨0xc07ffff000, [], 0, 0, false, .val 0x3e80400, [⟨31, 16, .rw⟩, ⟨15, 8, .rw⟩, ⟨3, 3, .rw⟩, ⟨1, 1, .sc⟩, ⟨0, 0, .rw⟩]⟩
  , ⟨0xc07ffff008, [], 0, 0, false, .val 0, [⟨15, 0, .rw⟩]⟩
  , ⟨0xc07ffff010, [], 0, 0, false, .val 0, [⟨29, 24, .ro⟩, ⟨21, 16, .ro⟩, ⟨5, 0, .rw⟩]⟩
  , ⟨0xc07ffff018, [], 0, 0, false, .val 0, [⟨31, 0, .wa⟩]⟩
  , ⟨0xc07ffff020, [], 8, 16, false, .val 0, [⟨31, 16, .ro⟩, ⟨3, 3, .ro⟩, ⟨2, 2, .wc⟩, ⟨1, 1, .wc⟩, ⟨0, 0, .wc⟩]⟩
  , ⟨0xc07ffff038, [], 0, 0, false, .val 0, [⟨63, 32, .ro⟩, ⟨31, 0, .ro⟩]⟩
  , ⟨0xc07ffff040, [], 0, 0, false, .val 0x10, [⟨15, 0, .ro⟩]⟩
  , ⟨0xc07ffff048, [], 0, 0, false, .val 0, [⟨31, 0, .ro⟩]⟩
  , ⟨0xc07ffff800, [(32, 0x40)], 8, 16, false, .xstat, [⟨23, 20, .ro⟩, ⟨19, 16, .ro⟩, ⟨15, 8, .ro⟩, ⟨3, 3, .ro⟩, ⟨2, 2, .wc⟩, ⟨1, 1, .wc⟩, ⟨0, 0, .wc⟩]⟩
  , ⟨0xc07ffff818, [(32, 0x40)], 0, 0, false, .val 0, [⟨63, 32, .wa⟩, ⟨31, 16, .wa⟩]⟩
  , ⟨0xc07ffff820, [(32, 0x40)], 0, 0, false, .val 0, [⟨0, 0, .sc⟩]⟩
  , ⟨0xc070000000, [], 0, 0, true, .val 0, [⟨63, 0, .ro⟩]⟩
  , ⟨0xc070000020, [], 0, 0, true, .val 0, [⟨63, 0, .wo⟩]⟩
  , ⟨0xc070000028, [], 0, 0, true, .val 0x1f4000010c7, [⟨47, 32, .rw⟩, ⟨31, 0, .rw⟩]⟩
  , ⟨0xc070000030, [], 0, 0, true, .val 0x2af31dc461, [⟨39, 0, .rw⟩]⟩
  , ⟨0xc070000038, [], 0, 0, true, .val 0, [⟨63, 0, .ro⟩]⟩
  , ⟨0xc070000040, [], 0, 0, true, .val 0xffffffffffffffff, [⟨63, 0, .rw⟩]⟩
  , ⟨0xc070000048, [], 0, 0, true, .val 0, [⟨47, 0, .ro⟩]⟩
  , ⟨0xc070000050, [], 0, 0, true, .val 0x200000000, [⟨39, 0, .ro⟩]⟩
  , ⟨0xc070000008, [], 8, 16, true, .val 0, [⟨63, 32, .ro⟩, ⟨5, 5, .wc⟩, ⟨4, 4, .ro⟩, ⟨3, 3, .ro⟩, ⟨2, 2, .wc⟩, ⟨1, 1, .wc⟩, ⟨0, 0, .ro⟩]⟩ ]

/-- The registers of the couch block. -/
def RegTable.couchRows : List RegRow :=
  [ ⟨0xc080000000, [], 0, 0, true, .val 0, [⟨31, 16, .rw⟩, ⟨1, 1, .rw⟩, ⟨0, 0, .rw⟩]⟩
  , ⟨0xc080000008, [], 0, 0, true, .val 0x8f8e8d8c8b8a8988, [⟨63, 0, .rw⟩]⟩
  , ⟨0xc080000010, [], 0, 0, true, .val 0, [⟨63, 32, .rw⟩, ⟨31, 16, .ro⟩, ⟨4, 4, .ro⟩, ⟨3, 0, .ro⟩]⟩
  , ⟨0xc080000030, [], 0, 0, true, .val 0, [⟨1, 1, .sc⟩, ⟨0, 0, .sc⟩]⟩
  , ⟨0xc080000038, [], 0, 0, true, .val 0, [⟨55, 32, .ro⟩, ⟨23, 0, .ro⟩]⟩
  , ⟨0xc080000040, [], 0, 0, true, .val 0, [⟨55, 32, .ro⟩, ⟨23, 0, .ro⟩]⟩
  , ⟨0xc080000048, [], 0, 0, true, .val 0, [⟨44, 32, .rw⟩, ⟨23, 0, .rw⟩]⟩
  , ⟨0xc080000050, [], 0, 0, true, .val 0xa0a0400000064, [⟨63, 48, .rw⟩, ⟨47, 40, .rw⟩, ⟨39, 32, .rw⟩, ⟨31, 0, .rw⟩]⟩
  , ⟨0xc080000058, [], 0, 0, true, .val 0, [⟨63, 32, .ro⟩, ⟨31, 0, .ro⟩]⟩
  , ⟨0xc080000060, [], 0, 0, true, .val 0, [⟨63, 48, .wa⟩, ⟨47, 32, .wa⟩, ⟨31, 16, .wa⟩, ⟨15, 0, .wa⟩]⟩
  , ⟨0xc080000100, [], 0, 0, true, .val 0, [⟨31, 16, .rw⟩, ⟨2, 2, .sc⟩, ⟨1, 1, .sc⟩, ⟨0, 0, .rw⟩]⟩
  , ⟨0xc080000108, [], 0, 0, true, .val 0, [⟨63, 32, .rw⟩, ⟨3, 0, .ro⟩]⟩
  , ⟨0xc080000110, [], 0, 0, true, .val 0, [⟨63, 32, .ro⟩, ⟨24, 24, .ro⟩, ⟨23, 0, .ro⟩]⟩
  , ⟨0xc080000118, [], 0, 0, true, .val 0, [⟨52, 32, .rw⟩, ⟨23, 0, .rw⟩]⟩
  , ⟨0xc080000120, [], 0, 0, true, .val 0, [⟨23, 0, .rw⟩]⟩
  , ⟨0xc080000128, [], 0, 0, true, .val 0, [⟨55, 32, .rw⟩, ⟨23, 0, .rw⟩]⟩
  , ⟨0xc080000200, [], 0, 0, true, .val 0, [⟨31, 24, .ro⟩, ⟨19, 16, .ro⟩, ⟨7, 7, .ro⟩, ⟨6, 6, .ro⟩, ⟨5, 5, .ro⟩, ⟨4, 4, .ro⟩, ⟨3, 3, .ro⟩, ⟨2, 2, .ro⟩, ⟨1, 0, .ro⟩]⟩
  , ⟨0xc080000220, [], 0, 0, true, .val 0, [⟨2, 2, .sc⟩, ⟨1, 1, .sc⟩, ⟨0, 0, .sc⟩]⟩
  , ⟨0xc080000228, [], 0, 0, true, .val 0, [⟨63, 0, .rw⟩]⟩
  , ⟨0xc080000230, [], 0, 0, true, .val 0, [⟨63, 0, .rw⟩]⟩
  , ⟨0xc080000238, [], 0, 0, true, .val 0, [⟨63, 0, .ro⟩]⟩
  , ⟨0xc080000240, [], 0, 0, true, .val 0, [⟨63, 0, .ro⟩]⟩
  , ⟨0xc080000018, [], 8, 16, true, .val 0, [⟨8, 8, .wc⟩, ⟨7, 7, .wc⟩, ⟨6, 6, .wc⟩, ⟨5, 5, .wc⟩, ⟨4, 4, .wc⟩, ⟨3, 3, .wc⟩, ⟨2, 2, .wc⟩, ⟨1, 1, .wc⟩, ⟨0, 0, .wc⟩]⟩
  , ⟨0xc080000130, [], 8, 16, true, .val 0, [⟨2, 2, .wc⟩, ⟨1, 1, .wc⟩, ⟨0, 0, .wc⟩]⟩
  , ⟨0xc080000208, [], 8, 16, true, .val 0, [⟨1, 1, .wc⟩, ⟨0, 0, .wc⟩]⟩
  , ⟨0xc080010000, [(256, 0x10)], 0, 0, true, .val 0, [⟨63, 63, .rw⟩, ⟨62, 62, .sc⟩, ⟨55, 32, .rw⟩, ⟨23, 0, .rw⟩]⟩
  , ⟨0xc080010008, [(256, 0x10)], 0, 0, true, .val 0, [⟨23, 0, .rw⟩]⟩
  , ⟨0xc081000000, [(131072, 8)], 0, 0, true, .val 0, [⟨63, 0, .ro⟩]⟩
  , ⟨0xc082000000, [(131072, 8)], 0, 0, true, .val 0, [⟨63, 0, .ro⟩]⟩ ]

/-- The registers of the svc block. -/
def RegTable.svcRows : List RegRow :=
  [ ⟨0xc09ffff000, [], 0, 0, false, .val 0x3e80400, [⟨31, 16, .rw⟩, ⟨15, 8, .rw⟩, ⟨3, 3, .rw⟩, ⟨1, 1, .sc⟩, ⟨0, 0, .rw⟩]⟩
  , ⟨0xc09ffff008, [], 0, 0, false, .val 0, [⟨15, 0, .rw⟩]⟩
  , ⟨0xc09ffff010, [], 0, 0, false, .val 0, [⟨29, 24, .ro⟩, ⟨21, 16, .ro⟩, ⟨5, 0, .rw⟩]⟩
  , ⟨0xc09ffff018, [], 0, 0, false, .val 0, [⟨31, 0, .wa⟩]⟩
  , ⟨0xc09ffff020, [], 8, 16, false, .val 0, [⟨31, 16, .ro⟩, ⟨3, 3, .ro⟩, ⟨2, 2, .wc⟩, ⟨1, 1, .wc⟩, ⟨0, 0, .wc⟩]⟩
  , ⟨0xc09ffff038, [], 0, 0, false, .val 0, [⟨63, 32, .ro⟩, ⟨31, 0, .ro⟩]⟩
  , ⟨0xc09ffff040, [], 0, 0, false, .val 0x100, [⟨15, 0, .ro⟩]⟩
  , ⟨0xc09ffff048, [], 0, 0, false, .val 0, [⟨31, 0, .ro⟩]⟩
  , ⟨0xc09ffff800, [(32, 0x40)], 8, 16, false, .xstat, [⟨23, 20, .ro⟩, ⟨19, 16, .ro⟩, ⟨15, 8, .ro⟩, ⟨3, 3, .ro⟩, ⟨2, 2, .wc⟩, ⟨1, 1, .wc⟩, ⟨0, 0, .wc⟩]⟩
  , ⟨0xc09ffff818, [(32, 0x40)], 0, 0, false, .val 0, [⟨63, 32, .wa⟩, ⟨31, 16, .wa⟩]⟩
  , ⟨0xc09ffff820, [(32, 0x40)], 0, 0, false, .val 0, [⟨0, 0, .sc⟩]⟩
  , ⟨0xc090000a00, [], 8, 16, true, .val 0, [⟨6, 6, .wc⟩, ⟨5, 5, .wc⟩, ⟨4, 4, .wc⟩, ⟨3, 3, .wc⟩, ⟨2, 2, .wc⟩, ⟨1, 1, .wc⟩, ⟨0, 0, .wc⟩]⟩
  , ⟨0xc090000a18, [], 0, 0, true, .val 0, [⟨63, 32, .wa⟩, ⟨31, 16, .wa⟩, ⟨15, 0, .wa⟩]⟩
  , ⟨0xc090000a20, [], 0, 0, true, .val 0, [⟨63, 61, .ro⟩, ⟨60, 56, .ro⟩, ⟨39, 0, .ro⟩]⟩
  , ⟨0xc090000a28, [], 0, 0, true, .val 0, [⟨63, 61, .ro⟩, ⟨54, 48, .ro⟩, ⟨38, 32, .ro⟩, ⟨31, 0, .ro⟩]⟩
  , ⟨0xc090000000, [], 0, 0, true, .val 0, [⟨3, 3, .sc⟩, ⟨2, 2, .rw⟩, ⟨1, 1, .rw⟩, ⟨0, 0, .rw⟩]⟩
  , ⟨0xc090000020, [], 0, 0, true, .val 0, [⟨47, 32, .rw⟩, ⟨0, 0, .sc⟩]⟩
  , ⟨0xc090000028, [], 0, 0, true, .val 0x3c400000000, [⟨63, 2, .rw⟩]⟩
  , ⟨0xc090000030, [], 0, 0, true, .val 0, [⟨63, 0, .ro⟩]⟩
  , ⟨0xc090000038, [], 0, 0, true, .val 0, [⟨63, 0, .ro⟩]⟩
  , ⟨0xc090000040, [], 0, 0, true, .val 0, [⟨15, 8, .wo⟩, ⟨6, 0, .wo⟩]⟩
  , ⟨0xc090000048, [], 0, 0, true, .val 0xffffffffffffffff, [⟨63, 0, .ro⟩]⟩
  , ⟨0xc090000050, [], 0, 0, true, .val 0xffffffffffffffff, [⟨63, 0, .ro⟩]⟩
  , ⟨0xc090000100, [], 0, 0, true, .val 0xffff00000007, [⟨47, 32, .ro⟩, ⟨23, 20, .ro⟩, ⟨17, 17, .ro⟩, ⟨16, 16, .ro⟩, ⟨4, 4, .ro⟩, ⟨3, 3, .ro⟩, ⟨2, 0, .ro⟩]⟩
  , ⟨0xc090000200, [], 0, 0, true, .val 0, [⟨63, 0, .ro⟩]⟩
  , ⟨0xc090000208, [], 0, 0, true, .val 0, [⟨63, 0, .ro⟩]⟩
  , ⟨0xc090000210, [], 0, 0, true, .val 0, [⟨31, 28, .ro⟩, ⟨23, 23, .ro⟩, ⟨17, 17, .ro⟩, ⟨16, 16, .ro⟩, ⟨14, 8, .ro⟩, ⟨7, 4, .ro⟩, ⟨3, 0, .ro⟩]⟩
  , ⟨0xc090000218, [], 0, 0, true, .val 0, [⟨63, 0, .ro⟩]⟩
  , ⟨0xc090000220, [], 0, 0, true, .val 0, [⟨63, 48, .wo⟩, ⟨39, 32, .ro⟩, ⟨8, 8, .ro⟩, ⟨3, 0, .wo⟩]⟩
  , ⟨0xc090000228, [], 0, 0, true, .val 0, [⟨63, 0, .rw⟩]⟩
  , ⟨0xc090000500, [], 0, 0, true, .val 0, [⟨63, 63, .sc⟩, ⟨7, 4, .rw⟩, ⟨3, 0, .rw⟩]⟩
  , ⟨0xc090000508, [], 0, 0, true, .val 0, [⟨55, 0, .rw⟩]⟩
  , ⟨0xc090000510, [], 0, 0, true, .val 0, [⟨39, 0, .rw⟩]⟩
  , ⟨0xc090000518, [], 0, 0, true, .val 0, [⟨63, 32, .ro⟩, ⟨7, 0, .ro⟩]⟩
  , ⟨0xc090000600, [], 0, 0, true, .val 0, [⟨63, 63, .sc⟩, ⟨55, 48, .ro⟩, ⟨8, 8, .rw⟩, ⟨3, 0, .rw⟩]⟩
  , ⟨0xc090000608, [], 0, 0, true, .val 0, [⟨31, 0, .rw⟩]⟩
  , ⟨0xc090000610, [], 0, 0, true, .val 0, [⟨39, 0, .rw⟩]⟩
  , ⟨0xc090000618, [], 0, 0, true, .val 0, [⟨31, 0, .rw⟩]⟩
  , ⟨0xc090000620, [], 0, 0, true, .val 0, [⟨63, 32, .wa⟩, ⟨23, 16, .ro⟩, ⟨15, 8, .ro⟩, ⟨1, 0, .ro⟩]⟩
  , ⟨0xc090000700, [], 0, 0, true, .val 0, [⟨63, 63, .rw⟩, ⟨47, 0, .rw⟩]⟩
  , ⟨0xc090000708, [], 0, 0, true, .val 0, [⟨63, 48, .rw⟩, ⟨39, 0, .rw⟩]⟩
  , ⟨0xc090000710, [], 0, 0, true, .val 0, [⟨63, 48, .rw⟩, ⟨39, 0, .rw⟩]⟩
  , ⟨0xc090000718, [], 0, 0, true, .val 0, [⟨63, 48, .ro⟩, ⟨47, 32, .ro⟩, ⟨0, 0, .sc⟩]⟩
  , ⟨0xc090000720, [], 0, 0, true, .val 0, [⟨63, 48, .wa⟩, ⟨47, 32, .wa⟩, ⟨31, 16, .wa⟩, ⟨15, 0, .wa⟩]⟩
  , ⟨0xc090000800, [], 0, 0, true, .val 0, [⟨63, 63, .sc⟩, ⟨62, 62, .ro⟩, ⟨39, 24, .rw⟩, ⟨20, 16, .rw⟩, ⟨11, 8, .rw⟩, ⟨2, 0, .rw⟩]⟩
  , ⟨0xc090000900, [], 0, 0, true, .val 0, [⟨63, 48, .wa⟩, ⟨47, 32, .ro⟩, ⟨31, 31, .ro⟩, ⟨30, 30, .rw⟩, ⟨29, 14, .ro⟩, ⟨12, 0, .ro⟩]⟩
  , ⟨0xc090000908, [], 0, 0, true, .val 0, [⟨15, 0, .rw⟩]⟩
  , ⟨0xc090000910, [], 0, 0, true, .val 0, [⟨63, 0, .rw⟩]⟩
  , ⟨0xc090000918, [], 0, 0, true, .val 0, [⟨31, 0, .rw⟩]⟩
  , ⟨0xc090000920, [], 0, 0, true, .val 0, [⟨12, 0, .rw⟩]⟩
  , ⟨0xc090000928, [], 0, 0, true, .val 0, [⟨0, 0, .sc⟩]⟩
  , ⟨0xc090000008, [], 8, 16, true, .val 0, [⟨63, 48, .ro⟩, ⟨39, 32, .ro⟩, ⟨7, 7, .wc⟩, ⟨6, 6, .wc⟩, ⟨5, 4, .ro⟩, ⟨1, 1, .ro⟩, ⟨0, 0, .ro⟩]⟩
  , ⟨0xc090000300, [(4, 0x40), (8, 8)], 0, 0, true, .val 0, [⟨63, 0, .ro⟩]⟩
  , ⟨0xc090000400, [(8, 8)], 0, 0, true, .val 0, [⟨63, 0, .ro⟩]⟩
  , ⟨0xc090000540, [(8, 8)], 0, 0, true, .val 0, [⟨63, 0, .ro⟩]⟩
  , ⟨0xc090000940, [(4, 8)], 0, 0, true, .val 0, [⟨63, 0, .ro⟩]⟩
  , ⟨0xc090001000, [(64, 8)], 0, 0, true, .val 0, [⟨63, 0, .ro⟩]⟩ ]

/-- The registers of the pcie block. -/
def RegTable.pcieRows : List RegRow :=
  [ ⟨0xc0affff000, [], 0, 0, false, .val 0x3e80400, [⟨31, 16, .rw⟩, ⟨15, 8, .rw⟩, ⟨3, 3, .rw⟩, ⟨1, 1, .sc⟩, ⟨0, 0, .rw⟩]⟩
  , ⟨0xc0affff008, [], 0, 0, false, .val 0, [⟨15, 0, .rw⟩]⟩
  , ⟨0xc0affff010, [], 0, 0, false, .val 0, [⟨29, 24, .ro⟩, ⟨21, 16, .ro⟩, ⟨5, 0, .rw⟩]⟩
  , ⟨0xc0affff018, [], 0, 0, false, .val 0, [⟨31, 0, .wa⟩]⟩
  , ⟨0xc0affff020, [], 8, 16, false, .val 0, [⟨31, 16, .ro⟩, ⟨3, 3, .ro⟩, ⟨2, 2, .wc⟩, ⟨1, 1, .wc⟩, ⟨0, 0, .wc⟩]⟩
  , ⟨0xc0affff038, [], 0, 0, false, .val 0, [⟨63, 32, .ro⟩, ⟨31, 0, .ro⟩]⟩
  , ⟨0xc0affff040, [], 0, 0, false, .val 0x30, [⟨15, 0, .ro⟩]⟩
  , ⟨0xc0affff048, [], 0, 0, false, .val 0, [⟨31, 0, .ro⟩]⟩
  , ⟨0xc0affff800, [(32, 0x40)], 8, 16, false, .xstat, [⟨23, 20, .ro⟩, ⟨19, 16, .ro⟩, ⟨15, 8, .ro⟩, ⟨3, 3, .ro⟩, ⟨2, 2, .wc⟩, ⟨1, 1, .wc⟩, ⟨0, 0, .wc⟩]⟩
  , ⟨0xc0affff818, [(32, 0x40)], 0, 0, false, .val 0, [⟨63, 32, .wa⟩, ⟨31, 16, .wa⟩]⟩
  , ⟨0xc0affff820, [(32, 0x40)], 0, 0, false, .val 0, [⟨0, 0, .sc⟩]⟩
  , ⟨0xc0a0000000, [], 0, 0, true, .val 0x24003f0450, [⟨37, 32, .rw⟩, ⟨21, 16, .rw⟩, ⟨10, 8, .rw⟩, ⟨6, 4, .rw⟩, ⟨1, 1, .sc⟩, ⟨0, 0, .rw⟩]⟩
  , ⟨0xc0a0000008, [], 0, 0, false, .val 0x204800000000, [⟨63, 48, .ro⟩, ⟨47, 32, .ro⟩, ⟨20, 16, .ro⟩, ⟨12, 10, .ro⟩, ⟨9, 7, .ro⟩, ⟨6, 6, .ro⟩, ⟨5, 5, .ro⟩, ⟨0, 0, .ro⟩]⟩
  , ⟨0xc0a0000028, [], 0, 0, true, .val 0xfff00000, [⟨63, 2, .rw⟩]⟩
  , ⟨0xc0a0000030, [], 0, 0, false, .val 0, [⟨5, 0, .wo⟩]⟩
  , ⟨0xc0a0000040, [], 0, 0, false, .val 0, [⟨63, 26, .rw⟩]⟩
  , ⟨0xc0a0000048, [], 0, 0, false, .val 0, [⟨63, 0, .rw⟩]⟩
  , ⟨0xc0a0000050, [], 0, 0, false, .val 0, [⟨63, 0, .rw⟩]⟩
  , ⟨0xc0a0000058, [], 0, 0, false, .val 0, [⟨63, 63, .sc⟩, ⟨55, 48, .ro⟩, ⟨5, 4, .rw⟩, ⟨1, 0, .rw⟩]⟩
  , ⟨0xc0a1000000, [], 0, 0, true, .val 0x5a, [⟨17, 17, .rw⟩, ⟨16, 16, .rw⟩, ⟨15, 8, .rw⟩, ⟨7, 7, .rw⟩, ⟨6, 0, .rw⟩]⟩
  , ⟨0xc0a1000008, [], 0, 0, true, .val 0, [⟨63, 63, .ro⟩, ⟨31, 0, .ro⟩]⟩
  , ⟨0xc0a1000010, [], 0, 0, true, .val 0x100000000, [⟨63, 63, .sc⟩, ⟨55, 48, .ro⟩, ⟨43, 40, .rw⟩, ⟨33, 32, .rw⟩, ⟨31, 31, .ro⟩, ⟨30, 30, .rw⟩, ⟨27, 24, .rw⟩, ⟨22, 16, .rw⟩, ⟨7, 0, .rw⟩]⟩
  , ⟨0xc0a1000018, [], 0, 0, true, .val 0, [⟨63, 0, .rw⟩]⟩
  , ⟨0xc0a0000010, [], 8, 16, false, .val 0, [⟨6, 6, .wc⟩, ⟨5, 5, .wc⟩, ⟨4, 4, .wc⟩, ⟨3, 3, .wc⟩, ⟨2, 2, .wc⟩, ⟨1, 1, .wc⟩, ⟨0, 0, .wc⟩]⟩
  , ⟨0xc0a0000100, [(8, 0x10)], 0, 0, true, .val 0, [⟨63, 30, .rw⟩, ⟨2, 2, .rw⟩, ⟨1, 1, .rw⟩, ⟨0, 0, .rw⟩]⟩
  , ⟨0xc0a0000108, [(8, 0x10)], 0, 0, true, .val 0, [⟨39, 30, .rw⟩]⟩ ]

/-- Which of a register's addresses an access uses (R12). -/
inductive Alias where
  | main | set | clr
deriving DecidableEq, Repr

/-- Whether register row `r` answers at address `a`: which alias, and the instance numbers. -/
def RegRow.find (r : RegRow) (a : Nat) : Option (Alias × List Nat) :=
  match (if r.base ≤ a then dimIndex r.dims (a - r.base) else none) with
  | some i => some (.main, i)
  | none =>
    match (if r.setOff ≠ 0 && r.base + r.setOff ≤ a then dimIndex r.dims (a - (r.base + r.setOff)) else none) with
    | some i => some (.set, i)
    | none =>
      match (if r.clrOff ≠ 0 && r.base + r.clrOff ≤ a then dimIndex r.dims (a - (r.base + r.clrOff)) else none) with
      | some i => some (.clr, i)
      | none => none

/-- The register rows of the block that holds address `a` (R37). -/
def RegTable.rowsAt (a : Nat) : List RegRow :=
  if a < 0xC008800000 then tileRows
  else if a < 0xC020000000 then dieRows
  else if a < 0xC030000000 then mcRows
  else if a < 0xC040000000 then linkRows
  else if a < 0xC050000000 then sliceRows
  else if a < 0xC060000000 then hubRows
  else if a < 0xC070000000 then pwrRows
  else if a < 0xC080000000 then timeRows
  else if a < 0xC090000000 then couchRows
  else if a < 0xC0A0000000 then svcRows
  else pcieRows

/-- A register of the table, found at an address. -/
structure RegHit where
  row : RegRow
  alia : Alias
  idx : List Nat
deriving DecidableEq, Repr

/-- The register that answers at address `a`, if the owning chapter defines one there (R38). -/
def regAt (a : Nat) : Option RegHit :=
  (RegTable.rowsAt a).findSome? fun r => (r.find a).map fun p => ⟨r, p.1, p.2⟩

/-- The main address of the register that answers at `a`. -/
def RegHit.mainAddr (h : RegHit) (a : Nat) : Nat :=
  match h.alia with
  | .main => a
  | .set => a - h.row.setOff
  | .clr => a - h.row.clrOff

/-- The value after reset of the register at main address `a`; 0 where there is none. -/
def resetVal (a : Nat) : Word :=
  match regAt a with
  | some h => h.row.rst.value h.row.base h.idx
  | none => 0

/-- What a write of `v` through alias `al` leaves in a field that held `old` (R11, R12). Started actions (SC, WO) are
the owning command's effect and leave the stored field alone. -/
def FieldRow.write (f : FieldRow) (al : Alias) (v old : Word) : Word :=
  let fl : Fld := ⟨f.hi, f.lo⟩
  match al, f.acc with
  | .main, .rw => fput fl (fget fl v) old
  | .main, .rwWsWc => fput fl (fget fl v) old
  | .main, .wa => fput fl (fget fl old - fget fl v) old
  | .set, .ws => old ||| (v &&& fmask fl)
  | .set, .wsWc => old ||| (v &&& fmask fl)
  | .set, .roWsWc => old ||| (v &&& fmask fl)
  | .set, .rwWsWc => old ||| (v &&& fmask fl)
  | .clr, .wc => old &&& ~~~ (v &&& fmask fl)
  | .clr, .wsWc => old &&& ~~~ (v &&& fmask fl)
  | .clr, .roWsWc => old &&& ~~~ (v &&& fmask fl)
  | .clr, .rwWsWc => old &&& ~~~ (v &&& fmask fl)
  | _, _ => old

/-- What a write of `v` leaves in a register that held `old`: each field by its access code; bits of no field are
reserved, read as 0 and ignore the write (R10). -/
def writeFields (fs : List FieldRow) (al : Alias) (v old : Word) : Word :=
  fs.foldl (fun o f => f.write al v o) old

end Sys2Proof.Machine
end

