-- ==== Sys2Proof/Machine/Syllable.lean ====
section
/-!
DEFINITION. Syllables: what one holds, the word that encodes it (R68 to R70, R76 to R80), the decoder of a word, and
the legality of its fields (R70, R72).
-/

set_option maxRecDepth 20000

namespace Sys2Proof.Machine

/-- Integer operations with a register and an immediate form, in opcode order from 0x00 (R76). -/
inductive IOp where
  | add | sub | and | or | xor | andn | shl | shr | sar | rol | min | max | minu | maxu
  | cmpeq | cmpne | cmplt | cmpltu | cmple | cmpleu | csel
deriving DecidableEq, Repr

/-- Integer operations with a register form only (R76). -/
inductive I3 where
  | bfx | bfxu | bfi | bperm | mul | mulh | mulhu | div | divu | rem | remu
deriving DecidableEq, Repr

/-- The bit counts (R102). -/
inductive Cnt where
  | clz | ctz | popc
deriving DecidableEq, Repr

/-- Loads into a general register, in opcode order (R77). -/
inductive LdK where
  | ld8 | ld8u | ld16 | ld16u | ld32 | ld32u | ld64
deriving DecidableEq, Repr

/-- Stores of a general register, in opcode order (R77). -/
inductive StK where
  | st8 | st16 | st32 | st64
deriving DecidableEq, Repr

/-- The atomic operations (R111, R333). -/
inductive Amo where
  | add | swap | cas
deriving DecidableEq, Repr

/-- The fences (R115). -/
inductive Fence where
  | acq | rel | full
deriving DecidableEq, Repr

/-- Two-operand floating-point vector operations (R78). -/
inductive VF where
  | add | sub | mul | min | max
deriving DecidableEq, Repr

/-- Integer vector operations (R78). -/
inductive VI where
  | add | sub | mul
deriving DecidableEq, Repr

/-- What a syllable does, with its fields. -/
inductive Op where
  | alu (o : IOp) (d a : RegNo) (b : Src)
  | alu3 (o : I3) (d a b : RegNo)
  | cnt (o : Cnt) (d a : RegNo)
  | ldi (high : Bool) (d : RegNo) (imm : BitVec 16)
  | ld (k : LdK) (d a : RegNo) (b : Src)
  | st (k : StK) (d a : RegNo) (b : Src)
  | vld (d a : RegNo) (b : Src)
  | vst (d a : RegNo) (b : Src)
  | pref (hint a : RegNo) (b : Src)
  | amo (o : Amo) (d a b : RegNo)
  | fence (k : Fence)
  | jr (a : RegNo)
  | callr (d a : RegNo)
  | ret (a : RegNo)
  | br (disp : BitVec 22)
  | call (disp : BitVec 22)
  | bz (nz : Bool) (d : RegNo) (disp : BitVec 16)
  | vfma (d a b : RegNo) (na np : Bool) (ty : FTy)
  | vf (o : VF) (d a b : RegNo) (ty : FTy)
  | vcvt (d a src : RegNo) (f : BitVec 4)
  | vcmp (d a b : RegNo) (p : BitVec 2) (ty : FTy)
  | vi (o : VI) (d a b : RegNo) (w : BitVec 2)
  | vpermb (d a b : RegNo)
  | vbcast (d a : RegNo) (ty : FTy)
  | vmovg (d a lane : RegNo) (ty : FTy)
  | vmovv (d a : RegNo)
  | nop
  | mf (d : RegNo) (n : BitVec 12)
  | mt (d : RegNo) (n : BitVec 12)
  | trap (brk : Bool) (code : BitVec 12)
  | mtrap (code : BitVec 12)
  | eret
  | iflushAll
  | iflushRange (a b : RegNo)
  | specbar
  | wait
  | sleep (d a : RegNo)
  | epoch (d a : RegNo)
  | rmClr (d : RegNo)
  | rmNeg (d : RegNo)
  | rmStat (d a : RegNo)
  | rmAddv (d a : RegNo)
  | rmFma4 (d a b : RegNo) (hi : Bool)
  | rmMerge (d a : RegNo)
  | rmRnd (d a : RegNo) (f : BitVec 4)
  | rmSt (d a : RegNo)
  | rmLd (d a : RegNo)
  | cop (k : BitVec 3) (rest : BitVec 22)
  | bad (w : BitVec 28)                       -- bits the maps give no meaning
deriving DecidableEq, Repr

/-- A syllable: its unit (0 I0, 1 I1, 2 M0, 3 M1, 4 V0, 5 V1, 6 B, 7 X), its stop bit and what it does (R68). -/
structure Syl where
  u : Nat
  stop : Bool
  op : Op
deriving DecidableEq, Repr

/-! ## Encoding -/

/-- Opcode of an integer operation's register form. -/
def IOp.code : IOp → Nat
  | .add => 0 | .sub => 1 | .and => 2 | .or => 3 | .xor => 4 | .andn => 5 | .shl => 6 | .shr => 7 | .sar => 8
  | .rol => 9 | .min => 10 | .max => 11 | .minu => 12 | .maxu => 13 | .cmpeq => 14 | .cmpne => 15 | .cmplt => 16
  | .cmpltu => 17 | .cmple => 18 | .cmpleu => 19 | .csel => 20

/-- Opcode and function of a register-only integer operation. -/
def I3.code : I3 → Nat × Nat
  | .bfx => (0x15, 0) | .bfxu => (0x16, 0) | .bfi => (0x17, 0) | .bperm => (0x19, 0)
  | .mul => (0x1A, 0) | .mulh => (0x1A, 1) | .mulhu => (0x1A, 2)
  | .div => (0x1B, 0) | .divu => (0x1B, 1) | .rem => (0x1B, 2) | .remu => (0x1B, 3)

/-- Function of a bit count. -/
def Cnt.code : Cnt → Nat
  | .clz => 0 | .ctz => 1 | .popc => 2

/-- Opcode of a load. -/
def LdK.code : LdK → Nat
  | .ld8 => 0 | .ld8u => 1 | .ld16 => 2 | .ld16u => 3 | .ld32 => 4 | .ld32u => 5 | .ld64 => 6

/-- Opcode of a store. -/
def StK.code : StK → Nat
  | .st8 => 8 | .st16 => 9 | .st32 => 10 | .st64 => 11

/-- Opcode of an atomic. -/
def Amo.opcode : Amo → Nat
  | .add => 0x10 | .swap => 0x11 | .cas => 0x12

/-- Function of a fence. -/
def Fence.code : Fence → Nat
  | .acq => 0 | .rel => 1 | .full => 2

/-- Opcode of a two-operand floating-point operation. -/
def VF.code : VF → Nat
  | .add => 1 | .sub => 2 | .mul => 3 | .min => 4 | .max => 5

/-- Opcode of an integer vector operation. -/
def VI.code : VI → Nat
  | .add => 8 | .sub => 9 | .mul => 10

/-- The type field F[1:0]. -/
def tyCode : FTy → Nat
  | .fp64 => 0 | .fp32 => 1 | .fp16 => 2 | .bf16 => 3

/-- The type a field names. -/
def tyOf (n : Nat) : FTy := if n = 0 then .fp64 else if n = 1 then .fp32 else if n = 2 then .fp16 else .bf16

/-- Bits [27:0] of a word from OP, D, A, B and F (R68). -/
def fields (op d a b f : Nat) : Nat := op * 2 ^ 22 + d * 2 ^ 16 + a * 2 ^ 10 + b * 2 ^ 4 + f

/-- A word with a register or an immediate second operand (R69). -/
def withSrc (op d a : Nat) : Src → Nat
  | .reg r => fields op d a r.toNat 0
  | .imm i => fields (op + 0x20) d a 0 0 + i.toNat

/-- Bits [27:0] of an operation's word (R76 to R80). -/
def Op.word : Op → Nat
  | .alu o d a b => withSrc o.code d.toNat a.toNat b
  | .alu3 o d a b => fields o.code.1 d.toNat a.toNat b.toNat o.code.2
  | .cnt o d a => fields 0x18 d.toNat a.toNat 0 o.code
  | .ldi h d i => fields (if h then 0x39 else 0x38) d.toNat 0 0 0 + i.toNat
  | .ld k d a b => withSrc k.code d.toNat a.toNat b
  | .st k d a b => withSrc k.code d.toNat a.toNat b
  | .vld d a b => withSrc 0x0C d.toNat a.toNat b
  | .vst d a b => withSrc 0x0D d.toNat a.toNat b
  | .pref h a b => withSrc 0x0E h.toNat a.toNat b
  | .amo o d a b => fields o.opcode d.toNat a.toNat b.toNat 0
  | .fence k => fields 0x13 0 0 0 k.code
  | .jr a => fields 0 0 a.toNat 0 0
  | .callr d a => fields 1 d.toNat a.toNat 0 0
  | .ret a => fields 2 0 a.toNat 0 0
  | .br i => fields 0x20 0 0 0 0 + i.toNat
  | .call i => fields 0x21 0 0 0 0 + i.toNat
  | .bz nz d i => fields (if nz then 0x23 else 0x22) d.toNat 0 0 0 + i.toNat
  | .vfma d a b na np ty =>
    fields 0 d.toNat a.toNat b.toNat ((if na then 8 else 0) + (if np then 4 else 0) + tyCode ty)
  | .vf o d a b ty => fields o.code d.toNat a.toNat b.toNat (tyCode ty)
  | .vcvt d a b f => fields 6 d.toNat a.toNat b.toNat f.toNat
  | .vcmp d a b p ty => fields 7 d.toNat a.toNat b.toNat (p.toNat * 4 + tyCode ty)
  | .vi o d a b w => fields o.code d.toNat a.toNat b.toNat w.toNat
  | .vpermb d a b => fields 0x0B d.toNat a.toNat b.toNat 0
  | .vbcast d a ty => fields 0x0C d.toNat a.toNat 0 (tyCode ty)
  | .vmovg d a l ty => fields 0x0D d.toNat a.toNat l.toNat (tyCode ty)
  | .vmovv d a => fields 0x0E d.toNat a.toNat 0 0
  | .nop => 0
  | .mf d n => fields 1 d.toNat 0 0 0 + n.toNat * 16
  | .mt d n => fields 2 d.toNat 0 0 0 + n.toNat * 16
  | .trap brk c => fields 3 0 0 0 (if brk then 1 else 0) + c.toNat * 16
  | .mtrap c => fields 4 0 0 0 0 + c.toNat * 16
  | .eret => fields 5 0 0 0 0
  | .iflushAll => fields 6 0 0 0 0
  | .iflushRange a b => fields 6 0 a.toNat b.toNat 1
  | .specbar => fields 7 0 0 0 0
  | .wait => fields 8 0 0 0 0
  | .sleep d a => fields 9 d.toNat a.toNat 0 0
  | .epoch d a => fields 0x0A d.toNat a.toNat 0 0
  | .rmClr d => fields 0x30 d.toNat 0 0 0
  | .rmNeg d => fields 0x30 d.toNat 0 0 1
  | .rmStat d a => fields 0x30 d.toNat a.toNat 0 2
  | .rmAddv d a => fields 0x31 d.toNat a.toNat 0 0
  | .rmFma4 d a b hi => fields 0x32 d.toNat a.toNat b.toNat (if hi then 1 else 0)
  | .rmMerge d a => fields 0x33 d.toNat a.toNat 0 0
  | .rmRnd d a f => fields 0x34 d.toNat a.toNat 0 f.toNat
  | .rmSt d a => fields 0x35 d.toNat a.toNat 0 0
  | .rmLd d a => fields 0x36 d.toNat a.toNat 0 0
  | .cop k r => (0x38 + k.toNat) * 2 ^ 22 + r.toNat
  | .bad w => w.toNat

/-- A syllable's word (R68). -/
def Syl.word (y : Syl) : BitVec 32 :=
  BitVec.ofNat 32 ((if y.stop then 2 ^ 31 else 0) + y.u * 2 ^ 28 + y.op.word)

/-! ## Decoding -/

/-- The fields of a word's bits [27:0]. -/
structure Fields where
  op : Nat
  d : RegNo
  a : RegNo
  b : RegNo
  f : Nat
  w : Nat
deriving DecidableEq, Repr

/-- Split bits [27:0] (R68). -/
def Fields.of (w : Nat) : Fields :=
  ⟨w / 2 ^ 22 % 64, BitVec.ofNat 6 (w / 2 ^ 16), BitVec.ofNat 6 (w / 2 ^ 10), BitVec.ofNat 6 (w / 2 ^ 4), w % 16,
   w % 2 ^ 28⟩

/-- The second operand of an opcode below 0x20 or its immediate form. -/
def Fields.src (x : Fields) : Src := if x.op < 0x20 then .reg x.b else .imm (BitVec.ofNat 10 x.w)

/-- Bits with no meaning. -/
def Fields.bad (x : Fields) : Op := .bad (BitVec.ofNat 28 x.w)

/-- `o` where the reserved fields are 0, illegal otherwise. -/
def Fields.when (x : Fields) (c : Bool) (o : Op) : Op := if c then o else x.bad

/-- The integer operations in opcode order. -/
def IOp.all : List IOp :=
  [.add, .sub, .and, .or, .xor, .andn, .shl, .shr, .sar, .rol, .min, .max, .minu, .maxu, .cmpeq, .cmpne, .cmplt,
   .cmpltu, .cmple, .cmpleu, .csel]

/-- Units I0 and I1 (R76). -/
def decodeI (x : Fields) : Op :=
  match IOp.all[x.op % 0x20]? with
  | some o => x.when (decide (0x20 ≤ x.op) || x.f == 0) (.alu o x.d x.a x.src)
  | none =>
    if x.op = 0x38 then .ldi false x.d (BitVec.ofNat 16 x.w)
    else if x.op = 0x39 then .ldi true x.d (BitVec.ofNat 16 x.w)
    else if x.op = 0x18 then
      (match ([Cnt.clz, .ctz, .popc] : List Cnt)[x.f]? with
       | some o => x.when (x.b == 0) (.cnt o x.d x.a)
       | none => x.bad)
    else
      match ([I3.bfx, .bfxu, .bfi, .bperm, .mul, .mulh, .mulhu, .div, .divu, .rem, .remu] : List I3).find?
          (fun o => o.code == (x.op, x.f)) with
      | some o => .alu3 o x.d x.a x.b
      | none => x.bad

/-- Units M0 and M1 (R77). -/
def decodeM (x : Fields) : Op :=
  let ok := decide (0x20 ≤ x.op) || x.f == 0
  let k := x.op % 0x20
  match ([LdK.ld8, .ld8u, .ld16, .ld16u, .ld32, .ld32u, .ld64] : List LdK)[k]? with
  | some o => x.when ok (.ld o x.d x.a x.src)
  | none =>
    match ([StK.st8, .st16, .st32, .st64] : List StK).find? (fun o => o.code == k) with
    | some o => x.when ok (.st o x.d x.a x.src)
    | none =>
      if k = 0x0C then x.when ok (.vld x.d x.a x.src)
      else if k = 0x0D then x.when ok (.vst x.d x.a x.src)
      else if k = 0x0E then x.when ok (.pref x.d x.a x.src)
      else if x.op = 0x10 then x.when ok (.amo .add x.d x.a x.b)
      else if x.op = 0x11 then x.when ok (.amo .swap x.d x.a x.b)
      else if x.op = 0x12 then x.when ok (.amo .cas x.d x.a x.b)
      else if x.op = 0x13 then
        (match ([Fence.acq, .rel, .full] : List Fence)[x.f]? with
         | some o => x.when (x.d == 0 && x.a == 0 && x.b == 0) (.fence o)
         | none => x.bad)
      else x.bad

/-- Units V0 and V1 (R78). -/
def decodeV (x : Fields) : Op :=
  let ty := tyOf (x.f % 4)
  let lo := decide (x.f < 4)
  if x.op = 0 then .vfma x.d x.a x.b (decide (8 ≤ x.f)) (decide (4 ≤ x.f % 8)) ty
  else if x.op = 1 then x.when lo (.vf .add x.d x.a x.b ty)
  else if x.op = 2 then x.when lo (.vf .sub x.d x.a x.b ty)
  else if x.op = 3 then x.when lo (.vf .mul x.d x.a x.b ty)
  else if x.op = 4 then x.when lo (.vf .min x.d x.a x.b ty)
  else if x.op = 5 then x.when lo (.vf .max x.d x.a x.b ty)
  else if x.op = 6 then .vcvt x.d x.a x.b (BitVec.ofNat 4 x.f)
  else if x.op = 7 then .vcmp x.d x.a x.b (BitVec.ofNat 2 (x.f / 4)) ty
  else if x.op = 8 then x.when lo (.vi .add x.d x.a x.b (BitVec.ofNat 2 x.f))
  else if x.op = 9 then x.when lo (.vi .sub x.d x.a x.b (BitVec.ofNat 2 x.f))
  else if x.op = 10 then x.when lo (.vi .mul x.d x.a x.b (BitVec.ofNat 2 x.f))
  else if x.op = 11 then x.when (x.f == 0) (.vpermb x.d x.a x.b)
  else if x.op = 12 then x.when (lo && x.b == 0) (.vbcast x.d x.a ty)
  else if x.op = 13 then x.when lo (.vmovg x.d x.a x.b ty)
  else if x.op = 14 then x.when (x.f == 0 && x.b == 0) (.vmovv x.d x.a)
  else x.bad

/-- Unit B (R79). -/
def decodeB (x : Fields) : Op :=
  if x.op = 0 then x.when (x.d == 0 && x.b == 0 && x.f == 0) (.jr x.a)
  else if x.op = 1 then x.when (x.b == 0 && x.f == 0) (.callr x.d x.a)
  else if x.op = 2 then x.when (x.d == 0 && x.b == 0 && x.f == 0) (.ret x.a)
  else if x.op = 0x20 then .br (BitVec.ofNat 22 x.w)
  else if x.op = 0x21 then .call (BitVec.ofNat 22 x.w)
  else if x.op = 0x22 then .bz false x.d (BitVec.ofNat 16 x.w)
  else if x.op = 0x23 then .bz true x.d (BitVec.ofNat 16 x.w)
  else x.bad

/-- Unit X (R80). -/
def decodeX (x : Fields) : Op :=
  let n := BitVec.ofNat 12 (x.w / 16)
  let ab0 := x.a == 0 && x.b == 0
  let none0 := x.w % 2 ^ 22 == 0
  if x.op = 0 then x.when none0 .nop
  else if x.op = 1 then x.when (x.f == 0) (.mf x.d n)
  else if x.op = 2 then x.when (x.f == 0) (.mt x.d n)
  else if x.op = 3 then x.when (x.d == 0 && decide (x.f < 2)) (.trap (x.f == 1) n)
  else if x.op = 4 then x.when (x.d == 0 && x.f == 0) (.mtrap n)
  else if x.op = 5 then x.when none0 .eret
  else if x.op = 6 then
    (if x.f = 0 then x.when none0 .iflushAll else x.when (x.f == 1 && x.d == 0) (.iflushRange x.a x.b))
  else if x.op = 7 then x.when none0 .specbar
  else if x.op = 8 then x.when none0 .wait
  else if x.op = 9 then x.when (x.b == 0 && x.f == 0) (.sleep x.d x.a)
  else if x.op = 10 then x.when (x.b == 0 && x.f == 0) (.epoch x.d x.a)
  else if x.op = 0x30 then
    (if x.f = 0 then x.when ab0 (.rmClr x.d)
     else if x.f = 1 then x.when ab0 (.rmNeg x.d)
     else x.when (x.f == 2 && x.b == 0) (.rmStat x.d x.a))
  else if x.op = 0x31 then x.when (x.b == 0 && x.f == 0) (.rmAddv x.d x.a)
  else if x.op = 0x32 then x.when (decide (x.f < 2)) (.rmFma4 x.d x.a x.b (x.f == 1))
  else if x.op = 0x33 then x.when (x.b == 0 && x.f == 0) (.rmMerge x.d x.a)
  else if x.op = 0x34 then x.when (x.b == 0) (.rmRnd x.d x.a (BitVec.ofNat 4 x.f))
  else if x.op = 0x35 then x.when (x.b == 0 && x.f == 0) (.rmSt x.d x.a)
  else if x.op = 0x36 then x.when (x.b == 0 && x.f == 0) (.rmLd x.d x.a)
  else if 0x38 ≤ x.op then .cop (BitVec.ofNat 3 x.op) (BitVec.ofNat 22 x.w)
  else x.bad

/-- The operation of bits [27:0] in unit `u`. -/
def decodeOp (u w : Nat) : Op :=
  let x := Fields.of w
  if u < 2 then decodeI x else if u < 4 then decodeM x else if u < 6 then decodeV x
  else if u = 6 then decodeB x else decodeX x

/-- The syllable of a word (R68). -/
def decodeSyl (w : BitVec 32) : Syl :=
  let n := w.toNat
  let u := n / 2 ^ 28 % 8
  ⟨u, decide (2 ^ 31 ≤ n), decodeOp u (n % 2 ^ 28)⟩

/-! ## Legality (R70, R72) -/

/-- A vector register field. -/
def vreg (r : RegNo) : Bool := decide (r.toNat < 32)

/-- An accumulator field. -/
def areg (r : RegNo) : Bool := decide (r.toNat < 4)

/-- The access of a system register at a level: 0 none, 1 R, 2 RW; none where the number is unassigned (R92). -/
def sysAccess (n : Nat) : Option (Nat × Nat × Nat) :=
  if n ≤ 4 then some (1, 1, 1)
  else if 0x10 ≤ n && n ≤ 0x17 then some (0, 2, 2)
  else if 0x20 ≤ n && n ≤ 0x26 then some (0, 0, 2)
  else if n = 0x30 || n = 0x31 then some (2, 2, 2)
  else if n = 0x40 then some (0, 1, 2)
  else if 0x50 ≤ n && n ≤ 0x52 then some (0, 2, 2)
  else if n = 0x60 then some (1, 1, 1)
  else if 0x70 ≤ n && n ≤ 0x77 then some (0, 2, 2)
  else if 0x78 ≤ n && n ≤ 0x7F then some (1, 2, 2)
  else none

/-- The access a level has. -/
def accessAt (pl : Nat) (x : Nat × Nat × Nat) : Nat := if pl = 0 then x.1 else if pl = 1 then x.2.1 else x.2.2

/-- The lanes of a type. -/
def tyLanes : FTy → Nat
  | .fp64 => 8 | .fp32 => 16 | .fp16 => 32 | .bf16 => 32

/-- Whether an operation's fields hold no reserved value and its unit may carry it (conditions 1, 2 and 5 of R72). -/
def Op.ok (u : Nat) : Op → Bool
  | .alu3 .mul _ _ _ | .alu3 .mulh _ _ _ | .alu3 .mulhu _ _ _ | .alu3 .div _ _ _ | .alu3 .divu _ _ _
  | .alu3 .rem _ _ _ | .alu3 .remu _ _ _ => u == 1
  | .alu _ _ _ _ | .alu3 _ _ _ _ | .cnt _ _ _ | .ldi _ _ _ => decide (u < 2)
  | .ld _ _ _ _ | .st _ _ _ _ => u == 2 || u == 3
  | .vld d _ _ | .vst d _ _ => (u == 2 || u == 3) && vreg d
  | .pref h _ _ => (u == 2 || u == 3) && decide (h.toNat < 2)
  | .amo _ _ _ _ | .fence _ => u == 2
  | .jr _ | .callr _ _ | .ret _ | .br _ | .call _ | .bz _ _ _ => u == 6
  | .vfma d a b _ _ _ | .vf _ d a b _ | .vcmp d a b _ _ | .vpermb d a b =>
    (u == 4 || u == 5) && vreg d && vreg a && vreg b
  | .vi _ d a b w => (u == 4 || u == 5) && vreg d && vreg a && vreg b && w != 3
  | .vcvt d a b f =>
    (u == 4 || u == 5) && vreg d && vreg a && decide (b.toNat < 8) && decide (f.toNat < 12)
      && (decide (f.toNat < 4) || (decide (f.toNat % 4 < 2) && decide (b.toNat < 4)))
  | .vbcast d _ _ => (u == 4 || u == 5) && vreg d
  | .vmovg _ a l ty => (u == 4 || u == 5) && vreg a && decide (l.toNat < tyLanes ty)
  | .vmovv d a => (u == 4 || u == 5) && vreg d && vreg a
  | .mf _ n => u == 7 && (sysAccess n.toNat).isSome
  | .mt _ n => u == 7 && (match sysAccess n.toNat with | some x => x.2.2 == 2 | none => false)
  | .rmClr d | .rmNeg d => u == 7 && areg d
  | .rmStat _ a => u == 7 && areg a
  | .rmAddv d a => u == 7 && areg d && vreg a
  | .rmFma4 d a b _ => u == 7 && areg d && vreg a && vreg b
  | .rmMerge d a => u == 7 && areg d && areg a
  | .rmRnd _ a f => u == 7 && areg a && decide (f.toNat % 8 < 6)
  | .rmSt d _ | .rmLd d _ => u == 7 && areg d
  | .nop | .trap _ _ | .mtrap _ | .eret | .iflushAll | .iflushRange _ _ | .specbar | .wait | .sleep _ _
  | .epoch _ _ | .cop _ _ => u == 7
  | .bad _ => false

/-- Whether syllable `i` of a bundle meets one of the conditions of R72. -/
def illegalAt (ys : List Syl) (i : Nat) (y : Syl) : Bool :=
  !y.op.ok y.u
  || (match ys[i - 1]? with | some p => decide (0 < i) && decide (y.u ≤ p.u) | none => false)
  || (i == 7 && !y.stop)
  || (y.op == .eret && ys.any fun z => z.u == 6)

/-- The first illegal syllable of a bundle, if any (R72). -/
def firstIllegal (ys : List Syl) : Option Nat :=
  (numsUpTo ys.length).find? fun i => match ys[i]? with | some y => illegalAt ys i y | none => false
where
  /-- 0 to n-1. -/
  numsUpTo : Nat → List Nat
    | 0 => []
    | n + 1 => numsUpTo n ++ [n]

end Sys2Proof.Machine
end

