-- ==== Sys2Proof/Machine/Operands.lean ====
section
/-!
DEFINITION. What a syllable's operands are: register values with poison (R64 to R66), vector registers as lanes
(R120), and the integer operations over them (spec/04, R97 to R106) with the poison of their results (R96).
-/

namespace Sys2Proof.Machine

/-- Add poison to a word. -/
def PW.taint (p : Bool) (w : PW) : PW := ⟨w.val, w.poison || p⟩

/-- s(x) ≤ s(y). -/
def sle (x y : Word) : Bool := decide (x.toInt ≤ y.toInt)

/-- Shift amount b[7:0] (R98). -/
def shAmt (b : Word) : Nat := b.toNat % 256

/-- The value of an integer operation with two operands; `d` is the old destination (R97 to R100). -/
def IOp.val (o : IOp) (d a b : Word) : Word :=
  match o with
  | .add => a + b
  | .sub => a - b
  | .and => a &&& b
  | .or => a ||| b
  | .xor => a ^^^ b
  | .andn => a &&& ~~~ b
  | .shl => if shAmt b < 64 then a <<< shAmt b else 0
  | .shr => if shAmt b < 64 then a >>> shAmt b else 0
  | .sar => a.sshiftRight (shAmt b)
  | .rol => a.rotateLeft (shAmt b % 64)
  | .min => if sle a b then a else b
  | .max => if sle a b then b else a
  | .minu => if a.toNat ≤ b.toNat then a else b
  | .maxu => if a.toNat ≤ b.toNat then b else a
  | .cmpeq => BitVec.ofNat 64 (b2n (a == b))
  | .cmpne => BitVec.ofNat 64 (b2n (a != b))
  | .cmplt => BitVec.ofNat 64 (b2n (decide (a.toInt < b.toInt)))
  | .cmpltu => BitVec.ofNat 64 (b2n (decide (a.toNat < b.toNat)))
  | .cmple => BitVec.ofNat 64 (b2n (decide (a.toInt ≤ b.toInt)))
  | .cmpleu => BitVec.ofNat 64 (b2n (decide (a.toNat ≤ b.toNat)))
  | .csel => if a ≠ 0 then b else d

/-- An integer operation on words with poison (R96); CSEL takes the poison of the value it selects (R100). -/
def IOp.run (o : IOp) (d a b : PW) : PW :=
  if o = .csel then (if a.val ≠ 0 then b else d) else ⟨o.val d.val a.val b.val, a.poison || b.poison⟩

/-- A bit field of `a` at b[5:0], of b[13:8] bits, 0 meaning 64 (R101). -/
def bfPos (b : Word) : Nat := b.toNat % 64
/-- Its length. -/
def bfLen (b : Word) : Nat := if b.toNat / 256 % 64 = 0 then 64 else b.toNat / 256 % 64

/-- Byte `i` of a word. -/
def byteOf (i : Nat) (w : Word) : Nat := w.toNat / 256 ^ i % 256

/-- Byte `i` of BPERM's result (R103). -/
def bpermByte (d a b : Word) (i : Nat) : Nat :=
  let k := b.toNat / 16 ^ i % 16
  if k < 8 then byteOf k a else byteOf (k - 8) d

/-- Quotient and remainder of a signed division (R106). -/
def sdiv (a b : Word) : Word × Word :=
  if b = 0 then (BitVec.allOnes 64, a)
  else (BitVec.ofInt 64 (a.toInt.tdiv b.toInt), BitVec.ofInt 64 (a.toInt.tmod b.toInt))

/-- Quotient and remainder of an unsigned division (R106). -/
def udiv (a b : Word) : Word × Word :=
  if b = 0 then (BitVec.allOnes 64, a) else (BitVec.ofNat 64 (a.toNat / b.toNat), BitVec.ofNat 64 (a.toNat % b.toNat))

/-- The value of a register-only integer operation (R101, R103, R105, R106). -/
def I3.val (o : I3) (d a b : Word) : Word :=
  match o with
  | .bfx => sextN (bfLen b) (a.toNat / 2 ^ bfPos b)
  | .bfxu => BitVec.ofNat 64 (a.toNat / 2 ^ bfPos b % 2 ^ bfLen b)
  | .bfi =>
    let m : Word := BitVec.ofNat 64 ((2 ^ bfLen b - 1) * 2 ^ bfPos b)
    (d &&& ~~~ m) ||| (BitVec.ofNat 64 (a.toNat * 2 ^ bfPos b) &&& m)
  | .bperm => BitVec.ofNat 64 (ofBytes ((numsFrom 0 8).map fun i => BitVec.ofNat 8 (bpermByte d a b i)))
  | .mul => a * b
  | .mulh => BitVec.ofInt 64 (a.toInt * b.toInt / 2 ^ 64)
  | .mulhu => BitVec.ofNat 64 (a.toNat * b.toNat / 2 ^ 64)
  | .div => (sdiv a b).1
  | .divu => (udiv a b).1
  | .rem => (sdiv a b).2
  | .remu => (udiv a b).2

/-- A register-only integer operation; BFI and BPERM read the old destination (R96). -/
def I3.run (o : I3) (d a b : PW) : PW :=
  ⟨o.val d.val a.val b.val, a.poison || b.poison || ((o == .bfi || o == .bperm) && d.poison)⟩

/-- The length of a number in bits. -/
def bitLen (n : Nat) : Nat := if n = 0 then 0 else n.log2 + 1

/-- Ones among the low `k` bits. -/
def popCount : Nat → Nat → Nat
  | 0, _ => 0
  | k + 1, n => n % 2 + popCount k (n / 2)

/-- Zeros below the lowest one among `k` bits. -/
def trailZeros : Nat → Nat → Nat
  | 0, _ => 0
  | k + 1, n => if n % 2 = 1 then 0 else 1 + trailZeros k (n / 2)

/-- A bit count (R102). -/
def Cnt.run (o : Cnt) (a : PW) : PW :=
  ⟨match o with
   | .clz => BitVec.ofNat 64 (64 - bitLen a.val.toNat)
   | .ctz => BitVec.ofNat 64 (trailZeros 64 a.val.toNat)
   | .popc => BitVec.ofNat 64 (popCount 64 a.val.toNat), a.poison⟩

/-- LDIL and LDIH (R104). -/
def ldiRun (high : Bool) (d : PW) (imm : BitVec 16) : PW :=
  if high then ⟨(d.val <<< 16) ||| imm.setWidth 64, d.poison⟩ else ⟨imm.signExtend 64, false⟩

/-! ## Vector registers -/

/-- A vector register: 512 bits and a poison bit for each 64-bit element (R64). -/
structure VReg where
  val : BitVec 512
  poison : BitVec 8
deriving DecidableEq, Repr

/-- Element `k` with its poison. -/
def VReg.elem (v : VReg) (k : Nat) : PW := ⟨(v.val >>> (64 * k)).setWidth 64, v.poison.getLsbD k⟩

/-- Lane `i` of width `w` (R120). -/
def lane (w i : Nat) (v : BitVec 512) : Nat := (v >>> (w * i)).toNat % 2 ^ w

/-- The number whose lanes of width `w` are listed, lane 0 first. -/
def packLanes (w : Nat) : List Nat → Nat
  | [] => 0
  | x :: r => x % 2 ^ w + 2 ^ w * packLanes w r

/-- A vector register from its lanes of width `w` and its poison bits by element. -/
def VReg.ofLanes (w : Nat) (ls : List Nat) (poison : BitVec 8) : VReg := ⟨BitVec.ofNat 512 (packLanes w ls), poison⟩

/-- A vector register from its elements. -/
def VReg.ofElems (es : List PW) : VReg :=
  ⟨BitVec.ofNat 512 (packLanes 64 (es.map fun e => e.val.toNat)),
   BitVec.ofNat 8 (packLanes 1 (es.map fun e => b2n e.poison))⟩

/-- The width of a type's lanes (R119). -/
def tyWidth : FTy → Nat
  | .fp64 => 64 | .fp32 => 32 | .fp16 => 16 | .bf16 => 16

/-- The value of a lane list's bits that are zero from element `k` on. -/
def VReg.zero : VReg := ⟨0, 0⟩

end Sys2Proof.Machine
end

