-- ==== Sys2Proof/Machine/Flags.lean ====
section
/-!
DEFINITION. Floating point (spec/04, R117 to R130): formats, exact values, the one rounding of R122 and R124 with its
flags, NaN rules, comparisons and conversions.  Flags are the bits of FPSTAT.
-/

namespace Sys2Proof.Machine

/-- The sticky flags, bits [4:0] of FPSTAT. -/
abbrev FFlags := BitVec 5

/-- NV, invalid operation. -/
def fNV : FFlags := 16#5
/-- OF with NX. -/
def fOFNX : FFlags := 5#5
/-- UF with NX. -/
def fUFNX : FFlags := 3#5
/-- NX, inexact. -/
def fNX : FFlags := 1#5

/-- A binary format: exponent bits and fraction bits (R119). -/
structure Fmt where
  e : Nat
  f : Nat
deriving DecidableEq, Repr

/-- The format of a type (R119). -/
def fmtOf : FTy → Fmt
  | .fp64 => ⟨11, 52⟩ | .fp32 => ⟨8, 23⟩ | .fp16 => ⟨5, 10⟩ | .bf16 => ⟨8, 7⟩

/-- Sign bit weight. -/
def Fmt.sign (t : Fmt) : Nat := 2 ^ (t.e + t.f)
/-- The bits of +∞. -/
def Fmt.inf (t : Fmt) : Nat := (2 ^ t.e - 1) * 2 ^ t.f
/-- The default NaN (R119). -/
def Fmt.nan (t : Fmt) : Nat := t.inf + 2 ^ (t.f - 1)
/-- Exponent of the smallest normal value. -/
def Fmt.emin (t : Fmt) : Int := 2 - (2 : Int) ^ (t.e - 1)
/-- The bits without the sign. -/
def Fmt.mag (t : Fmt) (b : Nat) : Nat := b % t.sign
/-- The sign bit. -/
def Fmt.neg (t : Fmt) (b : Nat) : Bool := b / t.sign % 2 == 1
/-- A NaN of the format. -/
def Fmt.isNan (t : Fmt) (b : Nat) : Bool := decide (t.inf < t.mag b)
/-- A signalling NaN (R119). -/
def Fmt.isSig (t : Fmt) (b : Nat) : Bool := t.isNan b && !nbit (t.f - 1) b
/-- The bits with a sign put in front. -/
def Fmt.withSign (t : Fmt) (neg : Bool) (m : Nat) : Nat := (if neg then t.sign else 0) + m

/-- A value: an infinity, or (−1)^neg × m × 2^q exactly. -/
inductive FVal where
  | nan
  | inf (neg : Bool)
  | fin (neg : Bool) (m : Nat) (q : Int)
deriving DecidableEq, Repr

/-- The value of a bit pattern. -/
def Fmt.val (t : Fmt) (b : Nat) : FVal :=
  let m := t.mag b
  if t.inf < m then .nan
  else if m = t.inf then .inf (t.neg b)
  else if m / 2 ^ t.f = 0 then .fin (t.neg b) m (t.emin - t.f)
  else .fin (t.neg b) (m % 2 ^ t.f + 2 ^ t.f) (t.emin - t.f + (m / 2 ^ t.f : Nat) - 1)

/-- Whether a magnitude rounds up: direction `rm` (0 to 4 as FPMODE.RM), sign, the quotient, and the remainder of
a division by `2 ^ sh`. -/
def roundsUp (rm : Nat) (neg : Bool) (quo rem sh : Nat) : Bool :=
  let half := 2 ^ (sh - 1)
  if rem = 0 then false
  else if rm = 0 then decide (half < rem) || (rem == half && quo % 2 == 1)
  else if rm = 1 then false
  else if rm = 2 then !neg
  else if rm = 3 then neg
  else decide (half ≤ rem)

/-- m × 2^q in units of 2^qe, rounded, and whether that is inexact. -/
def roundUnits (rm : Nat) (neg : Bool) (m : Nat) (q qe : Int) : Nat × Bool :=
  if qe ≤ q then (m * 2 ^ (q - qe).toNat, false)
  else
    let sh := (qe - q).toNat
    let quo := m / 2 ^ sh
    let rem := m % 2 ^ sh
    (if roundsUp rm neg quo rem sh then quo + 1 else quo, rem != 0)

/-- The overflow result of a direction (R124). -/
def Fmt.overflow (t : Fmt) (rm : Nat) (neg : Bool) : Nat :=
  let toInf := rm == 0 || rm == 4 || (rm == 2 && !neg) || (rm == 3 && neg)
  t.withSign neg (if toInf then t.inf else t.inf - 1)

/-- (−1)^neg × m × 2^q rounded once to the format (R122, R124). -/
def Fmt.round (t : Fmt) (rm : Nat) (neg : Bool) (m : Nat) (q : Int) : Nat × FFlags :=
  if m = 0 then (t.withSign neg 0, 0)
  else
    let top : Int := (m.log2 : Int) + q
    let qe := max (top - t.f) (t.emin - t.f)
    let r := roundUnits rm neg m q qe
    let bits := (qe - (t.emin - t.f)).toNat * 2 ^ t.f + r.1
    if t.inf ≤ bits then (t.overflow rm neg, fOFNX)
    else
      let tiny := decide (top < t.emin)
        && !(top == t.emin - 1 && (roundUnits rm neg m q (top - t.f)).1 == 2 ^ (t.f + 1))
      (t.withSign neg bits, if !r.2 then 0 else if tiny then fUFNX else fNX)

/-- Negate a value where asked. -/
def FVal.flip (c : Bool) : FVal → FVal
  | .nan => .nan
  | .inf s => .inf (s != c)
  | .fin s m q => .fin (s != c) m q

/-- An exact product; NaN where it is invalid. -/
def FVal.mul : FVal → FVal → FVal
  | .nan, _ => .nan
  | _, .nan => .nan
  | .inf s, .inf t => .inf (s != t)
  | .inf s, .fin t m _ => if m = 0 then .nan else .inf (s != t)
  | .fin s m _, .inf t => if m = 0 then .nan else .inf (s != t)
  | .fin s m q, .fin t n r => .fin (s != t) (m * n) (q + r)

/-- The signed number of units of 2^q. -/
def units (neg : Bool) (m : Nat) (q0 q : Int) : Int :=
  let n : Int := (m * 2 ^ (q0 - q).toNat : Nat)
  if neg then -n else n

/-- An exact sum; NaN where it is invalid; a zero sum takes its sign from R124. -/
def FVal.add (rm : Nat) : FVal → FVal → FVal
  | .nan, _ => .nan
  | _, .nan => .nan
  | .inf s, .inf t => if s = t then .inf s else .nan
  | .inf s, .fin _ _ _ => .inf s
  | .fin _ _ _, .inf t => .inf t
  | .fin s m q, .fin t n r =>
    let e := min q r
    let x := units s m q e + units t n r e
    if x = 0 then .fin (if m = 0 && n = 0 && s = t then s else rm == 3) 0 e
    else .fin (decide (x < 0)) x.natAbs e

/-- The bits of an exact value, rounded; an invalid operation gives the default NaN with NV (R123). -/
def Fmt.result (t : Fmt) (rm : Nat) : FVal → Nat × FFlags
  | .nan => (t.nan, fNV)
  | .inf s => (t.withSign s t.inf, 0)
  | .fin s m q => t.round rm s m q

/-- The floating-point environment of FPMODE. -/
structure FEnv where
  rm : Nat
  dn : Bool
  cvtz : Bool
deriving DecidableEq, Repr

/-- A NaN made quiet. -/
def Fmt.quiet (t : Fmt) (b : Nat) : Nat := if nbit (t.f - 1) b then b else b + 2 ^ (t.f - 1)

/-- The result of an operation with a NaN among its operands, in the order a, b, d (R123). -/
def Fmt.nanOf (t : Fmt) (v : FEnv) (ops : List Nat) : Nat × FFlags :=
  let r := if v.dn then t.nan else (match ops.find? t.isNan with | some b => t.quiet b | none => t.nan)
  (r, if ops.any t.isSig then fNV else 0)

/-- VFADD, VFSUB and VFMUL on one lane (R122 to R124). -/
def laneArith (o : VF) (t : Fmt) (v : FEnv) (a b : Nat) : Nat × FFlags :=
  if t.isNan a || t.isNan b then t.nanOf v [a, b]
  else
    match o with
    | .mul => t.result v.rm ((t.val a).mul (t.val b))
    | .sub => t.result v.rm ((t.val a).add v.rm ((t.val b).flip true))
    | _ => t.result v.rm ((t.val a).add v.rm (t.val b))

/-- VFMA on one lane (R122, R123). -/
def laneFma (t : Fmt) (v : FEnv) (na np : Bool) (d a b : Nat) : Nat × FFlags :=
  let p := (t.val a).mul (t.val b)
  if t.isNan a || t.isNan b || t.isNan d then
    (let r := t.nanOf v [a, b, d]
     (r.1, if !t.isNan a && !t.isNan b && p == .nan then r.2 ||| fNV else r.2))
  else t.result v.rm (((t.val d).flip na).add v.rm (p.flip np))

/-- A number that orders the non-NaN values of a format, both zeros alike. -/
def Fmt.key (t : Fmt) (b : Nat) : Int := if t.neg b then -(t.mag b : Int) else t.mag b

/-- VFMIN and VFMAX on one lane (R125). -/
def laneMinMax (isMax : Bool) (t : Fmt) (v : FEnv) (a b : Nat) : Nat × FFlags :=
  if t.isNan a && t.isNan b then t.nanOf v [a, b]
  else if t.isNan a then (b, if t.isSig a then fNV else 0)
  else if t.isNan b then (a, if t.isSig b then fNV else 0)
  else
    let aLess := decide (t.key a < t.key b) || (t.key a == t.key b && t.neg a)
    (if aLess != isMax then a else b, 0)

/-- A two-operand floating-point operation on one lane. -/
def VF.lane (o : VF) (t : Fmt) (v : FEnv) (a b : Nat) : Nat × FFlags :=
  match o with
  | .min => laneMinMax false t v a b
  | .max => laneMinMax true t v a b
  | o => laneArith o t v a b

/-- VCMP on one lane: whether the predicate holds, and its flag (R126). -/
def laneCmp (p : Nat) (t : Fmt) (a b : Nat) : Bool × FFlags :=
  let un := t.isNan a || t.isNan b
  let sig := t.isSig a || t.isSig b
  let holds :=
    if p = 0 then !un && t.key a == t.key b
    else if p = 1 then !un && decide (t.key a < t.key b)
    else if p = 2 then !un && decide (t.key a ≤ t.key b)
    else un
  (holds, if (if p = 1 || p = 2 then un else sig) then fNV else 0)

/-- A conversion between floating-point formats (R128). -/
def cvtFF (s t : Fmt) (v : FEnv) (b : Nat) : Nat × FFlags :=
  if s.isNan b then
    let frac := s.mag b % 2 ^ s.f
    let frac := if t.f ≤ s.f then frac / 2 ^ (s.f - t.f) else frac * 2 ^ (t.f - s.f)
    let r := if v.dn then t.nan else t.withSign (s.neg b) (t.quiet (t.inf + frac))
    (r, if s.isSig b then fNV else 0)
  else t.result v.rm (s.val b)

/-- An integer format: width and whether it is signed. -/
structure IFmt where
  w : Nat
  signed : Bool
deriving DecidableEq, Repr

/-- The largest value. -/
def IFmt.max (i : IFmt) : Int := if i.signed then 2 ^ (i.w - 1) - 1 else 2 ^ i.w - 1
/-- The smallest value. -/
def IFmt.min (i : IFmt) : Int := if i.signed then -(2 ^ (i.w - 1)) else 0
/-- The bits of an integer. -/
def IFmt.bits (i : IFmt) (n : Int) : Nat := (n % 2 ^ i.w).toNat
/-- The integer of bits. -/
def IFmt.val (i : IFmt) (b : Nat) : Int :=
  if i.signed && decide (2 ^ (i.w - 1) ≤ b) then (b : Int) - 2 ^ i.w else b

/-- A conversion from floating point to an integer (R129). -/
def cvtFI (s : Fmt) (i : IFmt) (v : FEnv) (b : Nat) : Nat × FFlags :=
  match s.val b with
  | .nan => (0, fNV)
  | .inf neg => (i.bits (if neg then i.min else i.max), fNV)
  | .fin neg m q =>
    let r := roundUnits (if v.cvtz then 1 else v.rm) neg m q 0
    let n : Int := if neg then -(r.1 : Int) else r.1
    if i.max < n then (i.bits i.max, fNV)
    else if n < i.min then (i.bits i.min, fNV)
    else (i.bits n, if r.2 then fNX else 0)

/-- A conversion from an integer to floating point (R130). -/
def cvtIF (i : IFmt) (t : Fmt) (v : FEnv) (b : Nat) : Nat × FFlags :=
  let n := i.val b
  t.round v.rm (decide (n < 0)) n.natAbs 0

end Sys2Proof.Machine
end

