-- ==== Sys2Proof/Machine/Vector.lean ====
section
/-!
DEFINITION. The vector operations lane by lane (spec/04, R120 to R133), with the poison of their elements and the
flags they raise; a lane whose destination element is poisoned raises none (R121).
-/

namespace Sys2Proof.Machine

/-- Flags of the lanes of width `w` whose destination element is not poisoned, ORed. -/
def laneFlags (w : Nat) (poison : BitVec 8) (ls : List (Nat × FFlags)) : FFlags :=
  (ls.zip (numsFrom 0 ls.length)).foldl (fun f p => if poison.getLsbD (w * p.2 / 64) then f else f ||| p.1.2) 0

/-- A vector result from lanes of width `w` with flags. -/
def vecResult (w : Nat) (poison : BitVec 8) (ls : List (Nat × FFlags)) : VReg × FFlags :=
  (VReg.ofLanes w (ls.map (·.1)) poison, laneFlags w poison ls)

/-- VFMA (R122). -/
def vfma (v : FEnv) (ty : FTy) (na np : Bool) (d a b : VReg) : VReg × FFlags :=
  let w := tyWidth ty
  vecResult w (a.poison ||| b.poison ||| d.poison) ((numsFrom 0 (512 / w)).map fun i =>
    laneFma (fmtOf ty) v na np (lane w i d.val) (lane w i a.val) (lane w i b.val))

/-- VFADD to VFMAX (R122, R125). -/
def vf (o : VF) (v : FEnv) (ty : FTy) (a b : VReg) : VReg × FFlags :=
  let w := tyWidth ty
  vecResult w (a.poison ||| b.poison) ((numsFrom 0 (512 / w)).map fun i =>
    o.lane (fmtOf ty) v (lane w i a.val) (lane w i b.val))

/-- VCMP (R126). -/
def vcmp (p : Nat) (ty : FTy) (a b : VReg) : VReg × FFlags :=
  let w := tyWidth ty
  vecResult w (a.poison ||| b.poison) ((numsFrom 0 (512 / w)).map fun i =>
    let r := laneCmp p (fmtOf ty) (lane w i a.val) (lane w i b.val)
    (if r.1 then 2 ^ w - 1 else 0, r.2))

/-- A format VCVT reads or writes (R78). -/
inductive CFmt where
  | fp (ty : FTy)
  | int (i : IFmt)
deriving DecidableEq, Repr

/-- Its width. -/
def CFmt.w : CFmt → Nat
  | .fp ty => tyWidth ty
  | .int i => i.w

/-- The source format of VCVT. -/
def cvtSrc (n : Nat) : CFmt :=
  if n < 4 then .fp (tyOf n)
  else .int ⟨if n < 6 then 64 else 32, n % 2 == 0⟩

/-- The destination format of VCVT. -/
def cvtDst (f : Nat) : CFmt :=
  if f < 4 then .fp (tyOf f) else .int ⟨if f % 4 = 0 then 64 else 32, f / 4 == 1⟩

/-- One lane of a conversion. -/
def cvtLane (s t : CFmt) (v : FEnv) (b : Nat) : Nat × FFlags :=
  match s, t with
  | .fp s, .fp t => cvtFF (fmtOf s) (fmtOf t) v b
  | .fp s, .int t => cvtFI (fmtOf s) t v b
  | .int s, .fp t => cvtIF s (fmtOf t) v b
  | .int _, .int _ => (0, 0)

/-- Poison of destination element `k` when lanes of width `sw` become lanes of width `dw` (R121, R127). -/
def cvtPoison (sw dw n : Nat) (p : BitVec 8) (k : Nat) : Bool :=
  (numsFrom 0 n).any fun i => dw * i / 64 == k && p.getLsbD (sw * i / 64)

/-- VCVT (R127). -/
def vcvt (v : FEnv) (src dst : Nat) (a : VReg) : VReg × FFlags :=
  let s := cvtSrc src
  let t := cvtDst dst
  let n := 512 / max s.w t.w
  let p := BitVec.ofNat 8 (packLanes 1 ((numsFrom 0 8).map fun k => b2n (cvtPoison s.w t.w n a.poison k)))
  vecResult t.w p ((numsFrom 0 n).map fun i => cvtLane s t v (lane s.w i a.val))

/-- The lane width of VIADD, VISUB and VIMUL. -/
def viWidth (w : BitVec 2) : Nat := if w = 0 then 64 else if w = 1 then 32 else 16

/-- One integer lane (R131). -/
def VI.lane (o : VI) (w a b : Nat) : Nat :=
  match o with
  | .add => (a + b) % 2 ^ w
  | .sub => (a + 2 ^ w - b) % 2 ^ w
  | .mul => a * b % 2 ^ w

/-- VIADD, VISUB and VIMUL. -/
def vi (o : VI) (w : Nat) (a b : VReg) : VReg :=
  .ofLanes w ((numsFrom 0 (512 / w)).map fun i => o.lane w (lane w i a.val) (lane w i b.val)) (a.poison ||| b.poison)

/-- VPERMB (R132). -/
def vpermb (a b : VReg) : VReg :=
  let sel (j : Nat) := lane 8 j b.val
  let poisoned (k : Nat) : Bool := b.poison.getLsbD k
    || (numsFrom (8 * k) 8).any fun j => decide (sel j < 128) && a.poison.getLsbD (sel j % 64 / 8)
  .ofLanes 8 ((numsFrom 0 64).map fun j => if sel j < 128 then lane 8 (sel j % 64) a.val else 0)
    (BitVec.ofNat 8 (packLanes 1 ((numsFrom 0 8).map fun k => b2n (poisoned k))))

/-- VBCAST (R133). -/
def vbcast (ty : FTy) (a : PW) : VReg :=
  let w := tyWidth ty
  .ofLanes w ((numsFrom 0 (512 / w)).map fun _ => a.val.toNat % 2 ^ w) (if a.poison then 0xFF else 0)

/-- VMOVG (R133). -/
def vmovg (ty : FTy) (i : Nat) (a : VReg) : PW :=
  let w := tyWidth ty
  ⟨BitVec.ofNat 64 (lane w i a.val), a.poison.getLsbD (w * i / 64)⟩

end Sys2Proof.Machine
end

