-- ==== Sys2Proof/Machine/Ream.lean ====
section
/-!
DEFINITION. Ream accumulators (spec/05): exact sums, flags and poison (R138 to R148), rounding (R149 to R151), the
status word (R152) and the compressed form (R153 to R155).
-/

namespace Sys2Proof.Machine

/-- A ream: its 4,288-bit value, its six flags and its poison bit (R138, R141). -/
structure Ream where
  value : BitVec 4288
  nan : Bool
  inv : Bool
  pinf : Bool
  ninf : Bool
  ovp : Bool
  ovn : Bool
  poison : Bool
deriving DecidableEq, Repr

/-- A cleared accumulator (R143). -/
def Ream.clear : Ream := ⟨0, false, false, false, false, false, false, false⟩

/-- The flags and poison of two reams ORed, with the value of the first. -/
def Ream.join (r t : Ream) : Ream :=
  { value := r.value, nan := r.nan || t.nan, inv := r.inv || t.inv, pinf := r.pinf || t.pinf,
    ninf := r.ninf || t.ninf, ovp := r.ovp || t.ovp, ovn := r.ovn || t.ovn, poison := r.poison || t.poison }

/-- Add `n` units of 2^-2176 as one addition (R147). -/
def Ream.add (r : Ream) (n : Int) : Ream :=
  let x := r.value.toInt + n
  { r with value := BitVec.ofInt 4288 x, ovp := r.ovp || decide (2 ^ 4287 ≤ x), ovn := r.ovn || decide (x < -2 ^ 4287) }

/-- RM.NEG (R143). -/
def Ream.neg (r : Ream) : Ream :=
  { r with value := -r.value, pinf := r.ninf, ninf := r.pinf,
           ovp := r.ovn || r.value == BitVec.intMin 4288, ovn := r.ovp }

/-- RM.MERGE (R146). -/
def Ream.merge (r t : Ream) : Ream := (r.join t).add t.value.toInt

/-- What one term of a sum contributes: units of 2^-2176, and flags. -/
structure Term where
  n : Int
  nan : Bool
  inv : Bool
  pinf : Bool
  ninf : Bool
deriving DecidableEq, Repr

/-- The term of an exact value. -/
def Term.of : FVal → Term
  | .nan => ⟨0, true, true, false, false⟩
  | .inf s => ⟨0, false, false, !s, s⟩
  | .fin s m q => ⟨units s m q (-2176), false, false, false, false⟩

/-- The term of an FP64 lane (R144). -/
def termAdd (x : Nat) : Term :=
  let t := fmtOf .fp64
  if t.isNan x then ⟨0, true, t.isSig x, false, false⟩ else .of (t.val x)

/-- The term of a product of two lanes (R145). -/
def termMul (x y : Nat) : Term :=
  let t := fmtOf .fp64
  if t.isNan x || t.isNan y then ⟨0, true, t.isSig x || t.isSig y, false, false⟩ else .of ((t.val x).mul (t.val y))

/-- Add terms as one addition of their exact sum (R144, R145). -/
def Ream.addTerms (r : Ream) (ts : List Term) (poison : Bool) : Ream :=
  let r := { r with nan := r.nan || ts.any (·.nan), inv := r.inv || ts.any (·.inv),
                    pinf := r.pinf || ts.any (·.pinf), ninf := r.ninf || ts.any (·.ninf), poison := r.poison || poison }
  r.add (ts.foldl (fun n t => n + t.n) 0)

/-- RM.ADDV (R144, R148). -/
def Ream.addv (r : Ream) (a : VReg) : Ream :=
  r.addTerms ((numsFrom 0 8).map fun i => termAdd (lane 64 i a.val)) (a.poison != 0)

/-- RM.FMA4 (R145, R148). -/
def Ream.fma4 (r : Ream) (hi : Bool) (a b : VReg) : Ream :=
  let is := numsFrom (if hi then 4 else 0) 4
  r.addTerms (is.map fun i => termMul (lane 64 i a.val) (lane 64 i b.val))
    (is.any fun i => a.poison.getLsbD i || b.poison.getLsbD i)

/-- RM.RND's result bits and flags in a direction (R149, R150). -/
def Ream.round (r : Ream) (t : Fmt) (rm : Nat) : Nat × FFlags :=
  if r.nan then (t.nan, if r.inv then fNV else 0)
  else if r.pinf && r.ninf then (t.nan, fNV)
  else if r.pinf then (t.inf, 0)
  else if r.ninf then (t.withSign true t.inf, 0)
  else if r.ovp && r.ovn then (t.nan, fNV)
  else if r.ovp then (t.overflow rm false, fOFNX)
  else if r.ovn then (t.overflow rm true, fOFNX)
  else
    let n := r.value.toInt
    t.round rm (if n = 0 then rm == 3 else decide (n < 0)) n.natAbs (-2176)

/-- RM.RND into a general register (R151): F[3] the format, F[2:0] the direction, 5 that of FPMODE. -/
def Ream.rnd (r : Ream) (f : Nat) (v : FEnv) : PW × FFlags :=
  let rm := if f % 8 = 5 then v.rm else f % 8
  let x := r.round (fmtOf (if f < 8 then .fp64 else .fp32)) rm
  (⟨BitVec.ofNat 64 x.1, r.poison⟩, if r.poison then 0 else x.2)

/-- The limb that absent limbs equal. -/
def fillLimb (neg : Bool) : Nat := if neg then 2 ^ 64 - 1 else 0

/-- Limb `k` (R138). -/
def Ream.limb (r : Ream) (k : Nat) : Nat := (r.value >>> (64 * k)).toNat % 2 ^ 64

/-- Limbs that differ from the fill, ascending. -/
def Ream.present (r : Ream) : List Nat := (numsFrom 0 67).filter fun k => r.limb k != fillLimb r.value.msb

/-- The status word (R152). -/
def Ream.status (r : Ream) : Word :=
  let ps := r.present
  BitVec.ofNat 64 (ps.length * 2 ^ 24 + (match ps.getLast? with | some k => k | none => 0xFF) * 2 ^ 16
    + b2n r.poison * 2 ^ 9 + b2n r.value.msb * 2 ^ 8 + b2n (r.value == 0) * 2 ^ 7 + b2n r.inv * 2 ^ 6
    + b2n r.nan * 2 ^ 5 + b2n r.ninf * 2 ^ 4 + b2n r.pinf * 2 ^ 3 + b2n r.ovn * 2 ^ 2 + b2n r.ovp * 2
    + b2n (r.ovp || r.ovn))

/-- The canonical compressed form as words (R153, R154). -/
def Ream.words (r : Ream) : List Nat :=
  let ps := r.present
  let mask := ps.foldl (fun m k => m + 2 ^ k) 0
  let flags := b2n r.inv * 2 ^ 9 + b2n r.nan * 2 ^ 8 + b2n r.ninf * 2 ^ 7 + b2n r.pinf * 2 ^ 6 + b2n r.ovn * 2 ^ 5
    + b2n r.ovp * 2 ^ 4
  [mask % 2 ^ 64, b2n r.value.msb * 2 ^ 63 + flags + mask / 2 ^ 64] ++ ps.map r.limb

/-- The canonical compressed form as bytes. -/
def Ream.bytes (r : Ream) : List Byte := r.words.flatMap (toBytes 8)

/-- Limbs that a form's two header words name, ascending. -/
def formLimbs (w0 w1 : Nat) : List Nat := (numsFrom 0 67).filter fun k => nbit k (w0 + w1 % 8 * 2 ^ 64)

/-- Its length in bytes. -/
def formLen (w0 w1 : Nat) : Nat := 16 + 8 * (formLimbs w0 w1).length

/-- The ream a form describes, from its header words and limbs (R155). -/
def Ream.ofForm (w0 w1 : Nat) (limbs : List Nat) (poison : Bool) : Ream :=
  let ks := (formLimbs w0 w1).zip limbs
  let v := (numsFrom 0 67).map fun k =>
    match ks.find? fun p => p.1 == k with | some p => p.2 | none => fillLimb (nbit 63 w1)
  { value := BitVec.ofNat 4288 (packLanes 64 v), inv := nbit 9 w1, nan := nbit 8 w1, ninf := nbit 7 w1,
    pinf := nbit 6 w1, ovn := nbit 5 w1, ovp := nbit 4 w1, poison := poison }

/-- The 64-bit words of a byte string. -/
def words64 : Nat → List Byte → List Nat
  | 0, _ => []
  | n + 1, bs => ofBytes (bs.take 8) :: words64 n (bs.drop 8)

/-- The ream of a whole form held in bytes (R355). -/
def Ream.ofBytes (bs : List Byte) (poison : Bool) : Ream :=
  match words64 (bs.length / 8) bs with
  | w0 :: w1 :: r => Ream.ofForm w0 w1 r poison
  | _ => Ream.clear

/-- What RM.LD sets when a header word is poisoned (R155). -/
def Ream.poisoned : Ream := { Ream.clear with poison := true }

end Sys2Proof.Machine
end

