-- ==== Sys2Proof/Machine/State.lean ====
section
/-!
DEFINITION. The state of the device, as plain data, with its reset; the reasons a command can stop with.
Registers of control space are held by address in `ctrl` (a register not listed holds its reset value); what the
spec gives the machine beside registers stands in fields of its own.
-/

set_option maxRecDepth 20000

namespace Sys2Proof.Machine

/-- Why a command can stop with a fault. -/
inductive Fault where
  /-- Raised by no meaning: every condition the spec gives an effect takes a next state.  Kept so that the type is
  not empty.  Safe: it stops the machine. -/
  | none
deriving DecidableEq, Repr

/-- Why a command can be refused. -/
inductive Refusal where
  /-- Raised by an arm of `exec` that has no meaning yet.  Safe: it stops the machine. -/
  | notModelled (mnemonic : String)
deriving DecidableEq, Repr

/-- What upsets have turned over in the check words of an array with a fixed SECDED code (R234), by word: data bits in
[31:0], check bits in [38:32]. -/
abbrev Flips := SMap (BitVec 39)

/-! ## Delay lines and crossings (spec/02) -/

/-- One delay line (R44 to R46): its trim (none: the fused trim), its near-miss count, whether the count has grown
since the last pass, and the number of the last pass at which it had grown. -/
structure DelayLine where
  trim : Option (BitVec 6)
  nearMiss : Nat
  grown : Bool
  since : Nat
deriving DecidableEq, Repr

/-- The fuse values of a delay line. -/
structure LineFuse where
  fused : BitVec 6
  floor : BitVec 6
deriving DecidableEq, Repr

/-- The phase of a pulse crossing's four-phase handshake (R55). -/
inductive PulsePhase where
  | idle | requested | acked
deriving DecidableEq, Repr

/-- What a crossing holds (R53 to R58). -/
structure Crossing where
  words : List Word            -- HCQ, DCQ: words in the ring, oldest first
  waiting : List Word          -- words of held producers, oldest first
  held : Option Word           -- HFR: the held value
  next : Option Word           -- HFR: the pending value
  cur : Option Word            -- HFR: the source's current value, offered again after RESYNC
  dest : Word                  -- what the destination last received
  counter : Nat                -- pulse: the source counter
  flight : Nat                 -- pulse: the count in flight
  phase : PulsePhase
  timedOut : Bool              -- requests are being answered under R60
  cold : Bool                  -- the RESYNC it is in, if any, is that of its window's power-up
deriving DecidableEq, Repr

/-! ## Queues and the event hub (spec/09) -/

/-- Producer state of a message queue (R265). -/
inductive ProdState where
  | idle | opened | absorbing
deriving DecidableEq, Repr

/-- A push that is held (R265, R267). -/
structure HeldPush where
  who : Who
  last : Bool
  w : PW
deriving DecidableEq, Repr

/-- One message queue: committed and uncommitted words, producer state and owner, the last popped word, held
pushes, the QCTL and QWM settings, and the upsets of its storage, by half words from the oldest word on. -/
structure MQueue where
  words : List PW
  opened : List PW
  prod : ProdState
  owner : Who
  last : PW
  held : List HeldPush
  openLimit : Nat
  evmode : Nat
  wmHigh : Nat
  wmLow : Nat
  flips : Flips
deriving DecidableEq, Repr

/-- A queue of a tile that has just powered up (R274, R276). -/
def MQueue.reset : MQueue :=
  { words := [], opened := [], prod := .idle, owner := .core 0, last := ⟨0, false⟩, held := [],
    openLimit := 0, evmode := 0, wmHigh := 48, wmLow := 16, flips := [] }

/-- One event source of the hub (R277 to R282). -/
structure EvSource where
  masked : Bool
  prio : Nat
  target : Nat
  isLevel : Bool
  count : Nat
  level : Bool
  insvc : Bool
  svcCore : Nat
  arrived : Nat
  acked : Nat
  sat : Bool
  ackOver : Bool
deriving DecidableEq, Repr

/-- Source `n` after reset (R284, R286). -/
def EvSource.reset (n : Nat) : EvSource :=
  { masked := true, prio := 0, target := if n < 2048 then n else 0, isLevel := false, count := 0, level := false,
    insvc := false, svcCore := 0, arrived := 0, acked := 0, sat := false, ackOver := false }

/-- A setting on its way into the AON domain through crossing 10 (R290). -/
structure AonSetting where
  who : Who
  addr : Nat
  value : Word
  asks : Bool                  -- its requester asks again for the answer
deriving DecidableEq, Repr

/-- A write that crossing 10 held has been answered: it entered the crossing, or R60 turned it away. -/
structure AonAck where
  who : Who
  addr : Nat
  entered : Bool
deriving DecidableEq, Repr

/-! ## Power and time (spec/13) -/

/-- A wake kept for a tile or the device (R416, R422): its cause and slot. -/
structure WakeNote where
  cause : Nat
  slot : Nat
deriving DecidableEq, Repr

/-- An access held at a domain in transition (R224, R424), and whether its 50 µs have passed. -/
structure HeldAccess where
  dom : Nat
  who : Who
  write : Bool
  addr : Nat
  expired : Bool
deriving DecidableEq, Repr

/-- The power block's state beside its registers. -/
structure Power where
  volt : SMap Nat              -- present voltage of a levelled domain, mV (unlisted 500)
  ramping : List Nat           -- levelled domains ramping upward
  waiting : List Nat           -- domains whose upward ramp waits for a slot, ascending
  capped : SMap Nat            -- thermal limit per die (0-7 compute, 8-11 I/O), as levels below 7
  pkgDrop : Nat                -- levels the package limit stands below 7
  pkgBelow : Nat               -- 100 µs windows in a row below 95 % of LIMIT_W
  devWake : Option WakeNote    -- wake kept for the device
  devHold : Bool               -- HOLD is in force, and with it L0 and M0
  napFrom : SMap Nat           -- AON count at which a napping tile passed PNR
  goingOff : List Nat          -- OFF requests that wait for an entry or exit to end
  held : List HeldAccess
  powerGood : Bool             -- PWRGD_MAIN
  aonGood : Bool               -- PWRGD_AON, VAON
  thermTrip : Bool             -- THERMTRIP_N asserted
  rstLow : Bool                -- RST_N is low
  devOff : Bool                -- the device is in OFF: a reset only leaves it
  factory : Bool               -- factory test (R481)
  devNapped : List Nat         -- tiles that the device entry in progress put into NAP
  devLinks : List Nat          -- links that it took out of ACTIVE
  memWas : SMap Nat            -- memory levels in force before HOLD entry, by controller
  devDorm : Bool               -- the device entry in progress is to DORMANT, not to HOLD
  xferWait : Bool              -- the transfer in flight lowered its source tile's cap limit (R426)
deriving DecidableEq, Repr

/-- The time base and the AON counter (R431 to R435). -/
structure Clock where
  gt : Word                    -- global time, tbu
  frac : BitVec 32             -- its fraction, 2^-64 s
  slewed : Nat                 -- slewed since SLEW_LEFT last moved, 2^-64 s, less than a tbu (R432)
  phase : Nat                  -- since the last AON tick, in REFCLK periods × 32,768 (model's own)
  timeArmed : Bool             -- TIME_ALARM has not fired since it was written
  aon : BitVec 48              -- the AON count
  aonArmed : Bool
  internal : Bool              -- the internal oscillator drives the AON counter
  srcChanged : Bool            -- the AON domain's record of a change of source while the time base was off
  srcMoved : Bool              -- the source has changed since point B3 was passed (R434)
deriving DecidableEq, Repr


/-! ## Links (spec/10) -/

/-- A flit in the receive buffer: virtual channel, TYPE, payload, and whether it holds a buffer that a credit pays
for. -/
structure RxFlit where
  vc : Nat
  type : Nat
  payload : List Byte
  counted : Bool
deriving DecidableEq, Repr

/-- A packet waiting in a router slice, with the virtual channel it is on, the upsets of its words, and whether it has
found no credit yet (R338). -/
structure RtPkt where
  slice : Nat
  vc : Nat
  p : Packet
  flips : Flips
  waited : Bool
deriving DecidableEq, Repr

/-- A packet that has just come to slice `i` on channel `vc`. -/
def RtPkt.new (i vc : Nat) (p : Packet) : RtPkt := ⟨i, vc, p, [], false⟩

/-- A packet the slice has given the transmitter: its whole bytes, its flits still to send (TYPE and payload), whether
its first flit has been sent, and the packet as it waited in the slice. -/
structure TxPkt where
  vc : Nat
  bytes : List Byte
  flits : List (Nat × List Byte)
  begun : Bool
  back : RtPkt
deriving DecidableEq, Repr

/-- A link's state beside its registers (R301 to R324). -/
structure LinkSt where
  replay : List (List Byte)          -- unacknowledged sequenced flits, oldest first
  rx : List RxFlit                   -- receive buffer, oldest first
  rxPart : SMap (List Byte)          -- at the slice: payload of the packet open on each VC
  txq : List TxPkt                   -- packets waiting to be sent, oldest first
  rxOpen : List Nat                  -- VCs with a packet open at the receiver
  awaiting : Bool                    -- a NAK was sent and REPLAY is awaited
  rxNum : Nat                        -- number of the next sequenced flit to arrive
  sinceAck : Nat                     -- flits accepted since the last LCTL sent
  noProgress : Nat                   -- replays sent with the oldest flit unchanged
  asked : Option (Nat × Nat)         -- LCTL code that expects an answer, and times sent
  alloc : List Nat                   -- allocations in force
  failedFull : Nat                   -- full trainings failed in a row
  winUncorr : Nat                    -- uncorrectable codewords in this window
  winRetrain : Nat                   -- retrainings in this window
  cwBad : Nat                        -- bad codewords in a row
  cwSeq : Option Nat                 -- last CWSEQ
  ignoreUntil : Option Nat           -- credit fields before this number are ignored (R316)
  full : Bool                        -- the training in progress is a full one
  fresh : Bool                       -- no link-layer state is held (R306)
  try100 : Bool                      -- the automatic rate has fallen back (R305)
  retiring : Bool                    -- RETIRE written, RETIRE message not yet sent
  waking : Bool                      -- the wake pattern is being sent
  initGot : Bool                     -- INIT has been received in this training
  initOk : Bool                      -- and was acceptable
  wasUp : Bool                       -- the training in progress left ACTIVE
  farRetire : Bool                   -- the far side's RETIRE is to be answered (R324 step 3)
  noAsk : List Nat                   -- LCTL requests not to be made again by themselves: refused or never answered
  rate : Option Nat                  -- LNK_CTL.RATE as the last full training took it (R327)
  lock100 : Bool                     -- this training locked at 100 Gb/s (R302)
  woke : Bool                        -- the training in progress follows a wake from OFF (R321)
  txCw : List (List Byte)            -- flits sent that no codeword holds yet (R295)
  txSeq : Nat                        -- CWSEQ of the next codeword
  scram : BitVec 58                  -- the transmit scrambler
deriving DecidableEq, Repr

/-- A link that holds no state. -/
def LinkSt.reset : LinkSt :=
  { replay := [], rx := [], rxPart := [], txq := [], rxOpen := [], awaiting := false, rxNum := 0, sinceAck := 0,
    noProgress := 0, asked := none, alloc := [], failedFull := 0, winUncorr := 0, winRetrain := 0, cwBad := 0,
    cwSeq := none, ignoreUntil := none, full := false, fresh := true, try100 := false, retiring := false,
    waking := false, initGot := false, initOk := false, wasUp := false, farRetire := false, noAsk := [], rate := none,
    lock100 := false, woke := false, txCw := [], txSeq := 0, scram := 0 }

/-! ## Router and collectives (spec/11) -/

/-- What an outstanding remote request is for. -/
inductive OutKind where
  | load       -- a load, VLD, RM.LD, atomic or CTRL read of a bundle
  | store      -- a posted store (PUT)
  | write      -- a CTRL write
  | qmsg
deriving DecidableEq, Repr

/-- An outstanding remote request (R344, R345): its die, requester, kind, global address and the packet sent; whether
a RETRY is waiting out its delay. -/
structure Outst where
  die : Nat
  core : Nat
  kind : OutKind
  gaddr : Nat
  p : Packet
  slice : Nat
  retry : Bool
deriving DecidableEq, Repr

/-- A QMSG in a tile's hold (R349). -/
structure QmsgHeld where
  ptile : Nat
  queue : Nat
  owner : Who
  words : List PW
deriving DecidableEq, Repr

/-- What one child contributed: the words of an integer operation, or reams. -/
structure CollPart where
  words : List PW
  reams : List Ream
deriving DecidableEq, Repr

/-- A collective context's progress beside its registers (R352 to R356). -/
structure CollSt where
  locals : List Nat             -- addresses of the local contributions counted for the current SEQ
  ups : List CollPart           -- what the children sent for it
  ahead : List Nat              -- addresses of submissions held for SEQ + 1
  heard : List Nat              -- child links heard from
deriving DecidableEq, Repr

/-- A context with nothing in progress. -/
def CollSt.reset : CollSt := ⟨[], [], [], []⟩

/-- The network time exchange (R357, R358). -/
structure TsyncSt where
  seq : Nat                     -- SEQ of the latest REQ
  answered : Bool
  t1 : Word
  good : Nat                    -- applied offsets within ±5 ns in a row
deriving DecidableEq, Repr



/-! ## Memory (spec/07, spec/08) -/

/-- A line held by a home slice (R213): where it lies, the line of local DRAM it holds, and whether a store has
changed it. -/
structure CacheTag where
  seg : Nat          -- physical tile × 16 + segment
  slot : Nat         -- line of the segment
  line : Nat         -- local address / 64
  dirty : Bool
deriving DecidableEq, Repr

/-- A conversion that runs (R247): the granule, the next stack address of each controller that has begun its walk,
the controllers that have completed their part, and those that have been off since it started, which walk before they
serve the granule. -/
structure Conv where
  g : Nat
  pos : SMap Nat
  done : List Nat
  owed : List Nat
deriving DecidableEq, Repr

/-! ## Mirroring (spec/12) -/

/-- A COUCH request that has no answer yet (R381). -/
structure CouchReq where
  p : Packet
  g : Nat            -- granule, for DATA
  sends : Nat        -- times sent
deriving DecidableEq, Repr

/-- The couch engine's state beside its registers. -/
structure CouchSt where
  marks : SMap Nat                   -- granules marked dirty, with the trackers that hold the mark, as bits (R367)
  pend : List Nat                    -- granules PENDING, rising
  pre : List (Nat × Nat)             -- PREIMAGED granules and their pre-image slots
  flight : List (Nat × Nat)          -- granules in flight and their slot numbers
  busy : List (Nat × Nat)            -- pre-image slots in use and their granules
  waiting : List (Nat × Option Nat)  -- PENDING granules with a write held, and the pre-image slot each is to take
  counted : List (Who × Nat)         -- held writes that PRE_WAITS has counted
  next : Nat                         -- next slot number of the epoch
  began : Bool                       -- BEGIN is answered OK
  reqs : List CouchReq
  rot : Nat                          -- rotation over the group links
  tag : Nat
  heard : Bool                       -- an HB arrived in this period
  rxCount : Nat                      -- COUNT of the BEGIN being received
  rxChunks : SMap Nat                -- chunks arrived, per slot, as bits
  rxNext : Nat                       -- next slot of the apply
  rxBegin : List (Nat × Packet)      -- BEGINs held during APPLYING, and their links, oldest first
  rxEnd : Option (Nat × Packet)      -- END to be answered when the apply ends
deriving DecidableEq, Repr

/-- Nothing marked, sent or received. -/
def CouchSt.reset : CouchSt :=
  { marks := [], pend := [], pre := [], flight := [], busy := [], waiting := [], counted := [], next := 0, began := false,
    reqs := [], rot := 0, tag := 0, heard := false, rxCount := 0, rxChunks := [], rxNext := 0,
    rxBegin := [], rxEnd := none }


/-! ## The chain (spec/12, R390 to R393) -/

/-- The chain logic's state beside its registers: the frame that awaits its ACK (16 bytes) and how often it has been
sent, the ENUM that awaits ENUM_DONE likewise, whether the ENUM was sent before the frame and so waits longer, the SEQ
of the next frame, and whether a master has been demoted. -/
structure ChainSt where
  sent : Option (List Byte)
  times : Nat
  enum : Option (List Byte)
  enumTimes : Nat
  enumFirst : Bool
  seq : Nat
  demoted : Bool
deriving DecidableEq, Repr



/-! ## Start-up, service and pins (spec/14, spec/15) -/

/-- A fuse command that runs (R442): its number, FUSE_ARG, and for KEY_PROG the hash, as words. -/
structure FuseJob where
  cmd : Nat
  arg : Word
  hash : List Word
deriving DecidableEq, Repr

/-- The image that was booted (R442, R446, R458): its header digest, ROLLBACK and VERSION. -/
structure Booted where
  digest : List Word
  rollback : Nat
  version : Nat
deriving DecidableEq, Repr

/-- The data register a JTAG instruction selects (R494). -/
inductive JtagReg where
  | idcode | boundary | bypass | debug
deriving DecidableEq, Repr

/-- The JTAG port: instruction register, data register selected, the boundary register's update stage, and what drives
the outputs from it: 0 nothing, 1 EXTEST, 2 EXTEST_PULSE, 3 EXTEST_TRAIN. -/
structure Jtag where
  ir : BitVec 8
  reg : JtagReg
  boundary : List Bool
  driving : Nat
deriving DecidableEq, Repr

/-- After Test-Logic-Reset. -/
def Jtag.reset : Jtag := ⟨1, .idcode, [], 0⟩

/-- An outbound PCIe read or command without its completion (R489): who waits (none: PCIE_OUT_CMD), its address, and
whether the value leaves as an answer (PCIE_OUT_WINDOW) or goes to a core's held load. -/
structure PcieAsk where
  who : Option Who
  addr : Nat
  out : Bool
deriving DecidableEq, Repr

/-- The completion of an outbound window read, for the requester that asked. -/
structure PcieAns where
  who : Who
  addr : Nat
  value : PW
deriving DecidableEq, Repr


/-! ## Cores (spec/03 to spec/07) -/

/-- A response that a core's access awaits: STATUS, data and mask. -/
structure CoreResp where
  status : Nat
  data : List Byte
  mask : List Bool
deriving DecidableEq, Repr

/-- An ETLB entry: the fields of ETLB_HI and ETLB_LO as written (R197, R201). -/
structure TlbEntry where
  hi : Word
  lo : Word
deriving DecidableEq, Repr

/-- A line held by a core: local address / 64 (the service memories included), whether it is marked private (R206),
its bytes and the poison of its 16 words, and the upsets of its words. -/
structure CLine where
  line : Nat
  priv : Bool
  data : List Byte
  poison : List Bool
  flips : Flips
deriving DecidableEq, Repr

/-- The kind of destination of a store buffer entry (R185): cacheable DRAM, scratchpad, a device of this device, or
remote.  An uncached store of DRAM leaves before its bundle commits and has no entry. -/
inductive SbKind where
  | cacheable | scratch | device | remote
deriving DecidableEq, Repr

/-- A store buffer entry (R185): global physical address, the bytes from there within one line, the poison of the
words they touch, the kind of destination, and the upsets of its words, by word of the line.  Entries of a bundle that
has not committed stand in the bundle's own list. -/
structure SbEntry where
  addr : Nat
  bytes : List Byte
  poison : List Bool
  kind : SbKind
  flips : Flips
deriving DecidableEq, Repr

/-- One access or wait of a bundle that is executing, in the order R73 gives: the index of its syllable first.
Addresses are global physical; `attr` is the ETLB attribute of local DRAM. -/
inductive Act where
  | room (n : Nat)                                                     -- n free store buffer entries (R185)
  | load (i addr n attr : Nat)
  | form (i : Nat)                                                     -- the header of RM.LD is read: now the limbs
  | pref (i addr hint attr : Nat)
  | store (i addr : Nat) (bytes : List Byte) (poison : List Bool) (attr : Nat)
  | amo (i addr : Nat) (o : Amo) (b cmp : PW)
  | fence (i : Nat) (k : Fence)
  | drain (i : Nat)                                                    -- IFLUSH: the store buffer is empty
  | wait (i : Nat)
  | nap (i : Nat)                                                      -- SLEEP with request NAP
  | mark (i : Nat)                                                     -- EPOCH with request MARK
deriving DecidableEq, Repr

/-- What an access of syllable `i` returned: its bytes and the poison of the check word under each (R108). -/
structure Got where
  i : Nat
  bytes : List Byte
  poison : List Bool
deriving DecidableEq, Repr

/-- What was predicted for a bundle (R167 to R170): the address fetched after it, the direction, whether the target
buffer held it, and the global history and the return stack's top as they are restored when it mispredicts. -/
structure Predn where
  next : Word
  taken : Bool
  hit : Bool
  hist : List Bool
  top : Nat
deriving DecidableEq, Repr

/-- A bundle that is executing: its address and syllables, the accesses still to do, what the done ones returned, its
own store entries, the performance events it has met, whether its first access has been sent and awaits its response,
whether it can no longer be abandoned (R91), and whether its first access has waited for a drain (event 0x13). -/
structure Cur where
  addr : Word
  syls : List Syl
  todo : List Act
  got : List Got
  stores : List SbEntry
  pushes : List SbEntry                -- words for the gather buffer, performed at commit (R348)
  events : List (Nat × Nat)
  pr : Predn
  sent : Bool
  fixed : Bool
  behind : Bool
deriving DecidableEq, Repr

/-- A bundle in the bundle queue (R162, R165): formed from the line buffer, with the cause its fetch met, if any:
code and BADADDR; whether it has issued ahead of older ones, and the lines that its loads then filled and that wait in
the fill buffer (R172, R177). -/
structure Fetched where
  addr : Word
  syls : List Syl
  fault : Option (Nat × Word)
  events : List (Nat × Nat)            -- line fills its fetch caused, and what its loads met when it issued
  pr : Predn
  issued : Bool
  fills : List CLine
deriving DecidableEq, Repr

/-- A branch target buffer entry (R169). -/
structure BtbEntry where
  set : Nat
  tag : Nat
  target : Word
  kind : Nat
deriving DecidableEq, Repr

/-- An entry of a tagged direction table (R168). -/
structure TagEntry where
  tag : Nat
  ctr : Nat
  useful : Nat
deriving DecidableEq, Repr

/-- Prediction state (R168 to R170): base counters by index, tagged entries by table × 2,048 + index, the global
history (newest first, 256 outcomes), the target buffer (most recently used first), the return stack and its top. -/
structure Pred where
  base : SMap Nat
  tagged : SMap TagEntry
  hist : List Bool
  btb : List BtbEntry
  ras : SMap Word
  top : Nat
deriving DecidableEq, Repr

/-- Cleared prediction state (R171). -/
def Pred.clear : Pred := ⟨[], [], [], [], [], 0⟩

/-- A core (R64, R92, R162, R185, R197, R205). -/
structure Core where
  running : Bool                       -- released by service firmware
  pc : Word
  g : Vector PW 64
  v : Vector VReg 32
  acc : Vector Ream 4
  sys : SMap Word                      -- system registers by number (unlisted: reset value)
  etlb : SMap TlbEntry
  l1d : List CLine                     -- most recently used first
  l1i : List CLine
  lineBuf : List CLine                 -- at most 2
  ask : Option Nat                     -- the line asked for ahead of fetch and not yet there (R165)
  fills : List CLine                   -- fill buffer of R177: lines of the bundle in progress
  bundles : List Fetched               -- bundle queue, at most 4
  forming : List Syl                   -- syllables of the bundle being given
  late : List (List Syl)               -- whole bundles given while an older one stalls
  cur : Option Cur
  sb : List SbEntry                    -- committed store buffer entries, oldest first, at most 16
  pred : Pred
  misp : Option (List Bool × Nat)      -- a mispredicted branch has resolved: the history and top to restore (R179)
  missed : Nat                         -- L1I line fills since a bundle was last formed (event 0x09 of R190)
  waiting : Bool                       -- the bundle is held in WAIT
  sleeping : Bool                      -- the bundle is held in SLEEP with request NAP
  sleepRes : Option Nat                -- how the sleep or the nap resolved (R413, R415)
  resp : Option CoreResp
  gather : List PW                     -- gather buffer (R348)
  gstate : Nat                         -- 0 empty, 1 bound, 2 ABSORBING
  gaddr : Nat
  pstoreAddr : Word                    -- address recorded with PSTORE_ERR.CODE (R227)
  pstoreCode : Nat                     -- the code of a service core, which has no PSTORE_ERR register
  flips : Flips                        -- upsets of the register files (R67): g, then v, then accumulators, by word
deriving DecidableEq, Repr

/-- A core after reset (R66, R83, R204); registers the spec leaves unknown hold 0 (assumption log entry 1),
and the predictor is cleared (DESIGN CHOICE, assumption log entry 24). -/
def Core.reset : Core :=
  { running := false, pc := 0, g := Vector.replicate 64 ⟨0, false⟩, v := Vector.replicate 32 VReg.zero,
    acc := Vector.replicate 4 Ream.clear, sys := [], etlb := [], l1d := [], l1i := [], lineBuf := [], ask := none,
    fills := [], bundles := [], forming := [], late := [], cur := none, sb := [], pred := Pred.clear, misp := none, missed := 0,
    waiting := false, sleeping := false, sleepRes := none, resp := none, gather := [], gstate := 0, gaddr := 0,
    pstoreAddr := 0, pstoreCode := 0, flips := [] }

/-- A register write that a gate in transition holds (R38, R424). -/
structure HeldWrite where
  who : Who
  addr : Nat
  value : Word
deriving DecidableEq, Repr

/-- What the device sends out of its pins. -/
inductive Out where
  | thermTrip
  /-- A flit left on link `n` (R297). -/
  | flit (n : Nat) (bytes : List Byte)
  /-- A codeword left on link `n`: its header, and the flit bits as scrambled, in sending order (R295). -/
  | codeword (n : Nat) (header : BitVec 20) (bits : List Bool)
  /-- Link `n` sent the wake pattern (R319). -/
  | wakePattern (n : Nat)
  /-- A chain frame of 16 bytes and its CRC left on CHAIN_OUT (`down`) or CHAIN_IN (R391). -/
  | chainFrame (down : Bool) (bytes : List Byte)
  /-- WAKE_OUT was pulled low for 10 µs (R483). -/
  | wakeOut
  /-- The SMBus target acknowledged or refused a transaction, and the bytes it returned (R492). -/
  | smbus (ack : Bool) (bytes : List Byte)
  /-- A PMBus transaction was started: regulator address, PROTO, command code and bytes written (R493). -/
  | pmbus (taddr proto command : Nat) (bytes : List Byte)
  /-- A PCIe request was issued: KIND, address, bytes, and whether they are poisoned (R489). -/
  | pcie (kind addr size : Nat) (bytes : List Byte) (poison : Bool)
  /-- An inbound PCIe request was completed: status (0 done, 1 UR), the bytes returned, and their poison (R488). -/
  | pcieDone (status : Nat) (bytes : List Byte) (poison : Bool)
  /-- A hot reset was sent (R490). -/
  | hotReset
  /-- A management frame was sent; with `bad`, its frame check sequence is inverted (R245, R464). -/
  | mgmt (bytes : List Byte) (bad : Bool)
  /-- What the JTAG port shifted out (R494). -/
  | tdo (bits : List Bool)
  /-- What a QPOP or EV_CLAIM command returned to its reader (R269, R280). -/
  | answer (who : Who) (value : PW)
deriving DecidableEq, Repr

/-! ## The whole device -/

/-- The state of the device. -/
structure State where
  pending : List Instr                 -- commands that wait, first in, first out
  ctrl : SMap Word                     -- registers of control space, by main address
  hub : SMap EvSource                  -- event sources
  aonPend : List Nat                   -- AON arrivals that wait for the hub (R289)
  woken : List Nat                     -- cores held in WAIT or SLEEP for which an interrupt became pending (R136)
  aonQueue : List AonSetting           -- crossing 10: the held value, then the pending one (R290)
  aonWait : List AonSetting            -- writes held at crossing 10, oldest first, their requesters not acknowledged
  aonAcks : List AonAck                -- held writes that have been answered, for their requesters to see
  lines : SMap DelayLine               -- delay lines, by window address + line
  lineFuses : SMap LineFuse            -- their fuse values
  passes : SMap Nat                    -- calibration passes of a window since power-up
  calPos : SMap Nat                    -- windows with a pass in progress: the line it examines next, + 1 (R48)
  xings : SMap Crossing                -- crossings, by XSTAT address
  queues : SMap MQueue                 -- message queues, by physical tile × 32 + queue
  power : Power
  clock : Clock
  cores : SMap Core                    -- logical cores, service cores at 0x1000 and 0x1001, cores of spare positions from 0x2000
  links : SMap LinkSt                  -- links
  rtWait : List RtPkt                  -- packets in the router slices
  outst : List Outst                   -- outstanding remote requests
  nextTag : Nat                        -- TAG of the next request
  qholds : List QmsgHeld               -- QMSG packets held by tiles, in arrival order
  coll : SMap CollSt                   -- collective contexts
  collOwed : List (Nat × Nat × Word)   -- status words of failed operations still to write: context, address, word
  tsync : TsyncSt
  straps : Straps
  epochWait : List Nat                 -- slices that owe the epoch event of an INJ_BANK write
  mem : List Host.Cell                 -- bytes of every storage array, by storage address (log entry 5)
  chk : SMap Nat                       -- check fields of their words, by word address
  segLines : List Nat                  -- valid lines of segments: (ptile × 16 + segment) × 4096 + line, rising
  tags : List CacheTag                 -- lines held by home slices
  spareOf : SMap Nat                   -- which spare serves a row or block last mapped, + 1
  hardWait : List (Nat × Nat)          -- hard errors whose spare mapping is due: block, LOC
  conv : Option Conv
  beaten : List Nat                    -- blocks whose beater has visited the last word of its pass, rising
  flash : SMap Byte                    -- boot flash, secondary device from 2^31; unlisted 0xFF
  flashCap : Nat × Nat                 -- capacities in bytes, 0 where absent
  couch : CouchSt
  chain : ChainSt
  bb : SMap (List Byte)                -- black box records, 32 bytes each (unlisted: empty)
  wptr : List Nat                      -- the three copies of WPTR (R465)
  fuse : Option FuseJob
  booted : Booted
  sigCode : Option Nat                 -- code of the signature engine operation that runs
  xspiRes : Option Nat                 -- result of the xSPI command that runs
  mgmtSending : Bool                   -- TX_KICK has been written and owned descriptors remain
  smbIndex : Nat                       -- BB_INDEX of the SMBus target
  jtag : Jtag
  pcieAsks : List PcieAsk              -- oldest first
  pcieAns : List PcieAns
  pcieHeld : List PcieReq              -- inbound requests that memory holds, in arrival order
  msix : SMap Byte                     -- BAR2, each byte against its reset value
  ctrlHeld : List HeldWrite            -- register writes held at a gate in transition, oldest first (R424)
  out : List Out                       -- what the device has sent out of its pins, newest last
  freeTick : Nat                       -- counts the free values used (model's own)
deriving DecidableEq, Repr

/-- A delay line that nothing has touched. -/
def DelayLine.reset : DelayLine := ⟨none, 0, false, 0⟩

/-- Fuse values of a line where the fuse list names none (assumption log entry 2). -/
def LineFuse.reset : LineFuse := ⟨0, 0⟩

/-- A crossing with nothing in it. -/
def Crossing.reset : Crossing :=
  { words := [], waiting := [], held := none, next := none, cur := none, dest := 0, counter := 0, flight := 0,
    phase := .idle, timedOut := false, cold := true }

/-- The power block's state after reset: nothing ramps, nothing is limited, the rails are good. -/
def Power.reset : Power :=
  { volt := [], ramping := [], waiting := [], capped := [], pkgDrop := 0, pkgBelow := 0, devWake := none, devHold := false,
    napFrom := [], goingOff := [], held := [], powerGood := true, aonGood := true,
    thermTrip := false, rstLow := false, devOff := false, factory := false, devNapped := [], devLinks := [],
    memWas := [], devDorm := false, xferWait := false }

/-- Time after reset (R431, R433). -/
def Clock.reset : Clock :=
  { gt := 0, frac := 0, slewed := 0, phase := 0, timeArmed := false, aon := 0, aonArmed := false, internal := false, srcChanged := false, srcMoved := false }

/-- The device right after reset: every register at its reset value, nothing queued, no command waiting. -/
def State.reset : State :=
  { pending := [], ctrl := [], hub := [], aonPend := [], woken := [], aonQueue := [], aonWait := [], aonAcks := [], lines := [], lineFuses := [],
    passes := [], calPos := [],
    xings := [], queues := [], power := Power.reset, clock := Clock.reset, cores := [],
    links := [], rtWait := [], outst := [], nextTag := 0, qholds := [], coll := [], collOwed := [], tsync := ⟨0, true, 0, 0⟩,
    straps := ⟨0, 0, false, false, false⟩,
    epochWait := [],
    mem := [], chk := [], segLines := [], tags := [], spareOf := [], hardWait := [], conv := none, beaten := [], flash := [],
    flashCap := (0, 0), couch := CouchSt.reset, chain := ⟨none, 0, none, 0, false, 0, false⟩,
    bb := [], wptr := [0, 0, 0], fuse := none, booted := ⟨[], 0, 0⟩, sigCode := none, xspiRes := none,
    mgmtSending := false, smbIndex := 0, jtag := Jtag.reset, pcieAsks := [], pcieAns := [], pcieHeld := [], msix := [], ctrlHeld := [],
    out := [], freeTick := 0 }

end Sys2Proof.Machine
end

