-- ==== Sys2Proof/Machine/Ops.lean ====
section
/-!
DEFINITION. The named operations every family uses: registers of control space, cores, domains and their gates,
wakes, event arrivals, and what the device sends out.
-/

namespace Sys2Proof.Machine

/-! ## Registers -/

/-- The register at main address `a` (R8): its reset value where the state lists nothing. -/
def State.rd (s : State) (a : Nat) : Word := s.ctrl.get (resetVal a) a

/-- `s` with the register at `a` holding `v`. -/
def State.wr (s : State) (a : Nat) (v : Word) : State := { s with ctrl := s.ctrl.put (resetVal a) a v }

/-- Field `f` of the register at `a`. -/
def State.fld (s : State) (a : Nat) (f : Fld) : Nat := fget f (s.rd a)

/-- Whether field `f` of the register at `a` is non-zero. -/
def State.has (s : State) (a : Nat) (f : Fld) : Bool := s.fld a f != 0

/-- `s` with field `f` of the register at `a` holding `v`. -/
def State.setF (s : State) (a : Nat) (f : Fld) (v : Nat) : State := s.wr a (fput f v (s.rd a))

/-- Field `f` raised by `n`, saturating at its width. -/
def State.satF (s : State) (a : Nat) (f : Fld) (n : Nat) : State :=
  s.setF a f (min (2 ^ (f.hi - f.lo + 1) - 1) (s.fld a f + n))

/-- Field `f` raised by `n`, wrapping at its width. -/
def State.incF (s : State) (a : Nat) (f : Fld) (n : Nat) : State := s.setF a f (s.fld a f + n)

/-- Field `f` of the register at `a` lowered by `n`, never below 0 (the WA access of R11). -/
def State.decF (s : State) (a : Nat) (f : Fld) (n : Nat) : State := s.setF a f (s.fld a f - n)

/-- Registers whose main address lies from `lo` to `hi - 1` take their reset values. -/
def State.resetRegs (s : State) (lo hi : Nat) : State := { s with ctrl := s.ctrl.eraseRange lo hi }

/-- What leaves the device at its pins, newest last. -/
def State.emit (s : State) (o : Out) : State := { s with out := s.out ++ [o] }

/-! ## Blocks, tiles and cores -/

/-- First address of the control block of physical tile `p` (R37). -/
def tileBlk (p : Nat) : Nat := 0xC000000000 + p * 0x100000
/-- First address of die fabric `d`'s block. -/
def dieBlk (d : Nat) : Nat := 0xC010000000 + d * 0x1000000
/-- First address of memory controller `d`'s block. -/
def mcBlk (d : Nat) : Nat := 0xC020000000 + d * 0x100000
/-- First address of link `n`'s block. -/
def linkBlk (n : Nat) : Nat := 0xC030000000 + n * 0x10000
/-- First address of router slice `i`'s block. -/
def sliceBlk (i : Nat) : Nat := 0xC040000000 + i * 0x4000000

/-- The address of a handshake window (R49). -/
def winBase : Window → Nat
  | .tile p => tileBlk p + 0xFF000
  | .die d => dieBlk d + 0xFFF000
  | .mc d => mcBlk d + 0xFF000
  | .link n => linkBlk n + 0xF000
  | .slice i => sliceBlk i + 0x3FFF000
  | .time => 0xC07FFFF000
  | .svc => 0xC09FFFF000
  | .pcie => 0xC0AFFFF000

/-- The power domain a window lies in (R49, R408). -/
def winDom : Window → Nat
  | .tile p => p
  | .die d => 136 + d
  | .mc d => 144 + d
  | .link n => 152 + n
  | .slice i => 296 + i
  | .pcie => 300
  | .svc => 301
  | .time => 302

/-- The physical tile that serves logical tile `t` of the 128, none where the slot is absent (R25, R27, R30). -/
def State.physTile (s : State) (t : Nat) : Option Nat :=
  let w := s.rd (TILE_MAP.adr (t / 16) (t % 16))
  if 128 ≤ t || fset? TILE_MAP.ABSENT w || 17 ≤ fget TILE_MAP.POSITION w then none
  else some (t / 16 * 17 + fget TILE_MAP.POSITION w)

/-- The handshake window of a domain: its lines and crossings are lost, and a pass in progress with them. -/
def State.loseWindow (s : State) (w : Window) : State :=
  let a := winBase w
  { s with lines := s.lines.eraseRange a (a + 0x1000), passes := s.passes.eraseRange a (a + 1),
           calPos := s.calPos.eraseRange a (a + 1), xings := s.xings.eraseRange a (a + 0x1000) }

/-- The logical tile that physical tile `p` serves, if any. -/
def State.logTile (s : State) (p : Nat) : Option Nat :=
  ((numsFrom 0 16).map (fun k => p / 17 * 16 + k)).find? fun t => s.physTile t == some p

/-- The first core of physical tile `p`: 16 times its logical tile's number, and 0x2000 above its physical core number
while the position serves no slot (R25, R27, R29). -/
def State.firstCore (s : State) (p : Nat) : Nat :=
  match s.logTile p with
  | some t => t * 16
  | none => 0x2000 + p * 16

/-- `c` is a core of a tile: a logical core, or a core of a position that serves no slot (R25). -/
def ofTile (c : Nat) : Bool := c < 2048 || 0x2000 ≤ c

/-- The physical tile of core `c`, none for a service core and for a slot marked absent (R27, R29). -/
def State.coreTile (s : State) (c : Nat) : Option Nat :=
  if c < 2048 then s.physTile (c / 16)
  else if 0x2000 ≤ c && (s.logTile ((c - 0x2000) / 16)).isNone then some ((c - 0x2000) / 16)
  else none

/-- The core with number `c`: logical cores 0 to 2,047, service cores 0x1000 and 0x1001, and from 0x2000 on the cores of
positions that serve no slot, by physical core number (R25, R29). -/
def State.core (s : State) (c : Nat) : Core := s.cores.get Core.reset c

/-- `s` with core `c` replaced. -/
def State.setCore (s : State) (c : Nat) (k : Core) : State := { s with cores := s.cores.put Core.reset c k }

/-- `s` with core `c` changed by `f`. -/
def State.updCore (s : State) (c : Nat) (f : Core → Core) : State := s.setCore c (f (s.core c))

/-- The fill buffer changed by `f`: the lines of the bundle in progress and those of queued bundles (R177). -/
def Core.mapFills (k : Core) (f : List CLine → List CLine) : Core :=
  { k with fills := f k.fills, bundles := k.bundles.map fun b => { b with fills := f b.fills } }

/-! ## System registers of a core -/

/-- A system register after core reset; those whose reset is "—" hold 0 (assumption log entry 1). -/
def sysReset (n : Nat) : Word := if n = 0x010 then 2 else if n = 0x026 then 0x3FFFE else 0

/-- The stored value of system register `n`. -/
def Core.sysRd (k : Core) (n : Nat) : Word := k.sys.get (sysReset n) n

/-- `k` with system register `n` holding `v`. -/
def Core.sysWr (k : Core) (n : Nat) (v : Word) : Core := { k with sys := k.sys.put (sysReset n) n v }

/-- Field `f` of system register `n`. -/
def Core.sf (k : Core) (n : Nat) (f : Fld) : Nat := fget f (k.sysRd n)

/-- `k` with field `f` of system register `n` holding `v`. -/
def Core.setSf (k : Core) (n : Nat) (f : Fld) (v : Nat) : Core := k.sysWr n (fput f v (k.sysRd n))

/-- PERF_OVF is pending (R191). -/
def Core.perfOvf (k : Core) : Bool :=
  (numsFrom 0 8).any fun i => let w := k.sysRd (0x070 + i); w.getLsbD 31 && w.getLsbD 30

/-! ## Domains (R408, R423, R424) -/

/-- DOM_STAT.STATE of domain `k`: 0 OFF, 1 ON or RUN, 2 NAP, 3 ENTERING, 4 EXITING, 5 POWERING. -/
def State.dom (s : State) (k : Nat) : Nat := s.fld (DOM_STAT.adr k) DOM_STAT.STATE

/-- The domain is ON, or the tile in RUN. -/
def State.isOn (s : State) (k : Nat) : Bool := s.dom k == 1

/-- `s` with domain `k` in state `v`. -/
def State.setDom (s : State) (k v : Nat) : State := s.setF (DOM_STAT.adr k) DOM_STAT.STATE v

/-- The event hub runs: the service complex domain is on (R286, R289). -/
def State.hubOn (s : State) : Bool := s.isOn 301

/-- How a domain's deckle gate treats an access (R423, R424). -/
inductive Gate where
  | opened | off | transition
deriving DecidableEq, Repr

/-- The gate of domain `k`; a tile in NAP is closed for what is not AWAKE. -/
def State.gate (s : State) (k : Nat) : Gate :=
  if s.dom k = 1 then (if s.power.goingOff.contains k then .transition else .opened)
  else if s.dom k = 0 || s.dom k = 2 then .off
  else .transition

/-- The deckle gate of domain `k` answers an access: a service core's is counted in DECKLE_HIT (R423). -/
def State.deckle (s : State) (who : Who) (k : Nat) : State :=
  match who with
  | .svc _ => if k < 303 && s.gate k != .opened then s.satF (DOM_STAT.adr k) DOM_STAT.DECKLE_HIT 1 else s
  | _ => s

/-! ## Performance levels (R403 to R405) -/

/-- The voltage of level `n`, mV (R403). -/
def levelVolt : Nat → Nat
  | 0 => 500 | 1 => 550 | 2 => 600 | 3 => 650 | 4 => 700 | 5 => 750 | 6 => 820 | _ => 900

/-- The highest level whose voltage does not exceed `v` mV (R404). -/
def levelAt (v : Nat) : Nat := (numsFrom 0 8).foldl (fun b n => if levelVolt n ≤ v then n else b) 0

/-- Tiles, die fabrics, router slices and the service complex are levelled (R403). -/
def levelled (k : Nat) : Bool := k < 144 || (296 ≤ k && k < 300) || k == 301

/-- The die whose thermal limit binds domain `k`: compute dies 0 to 7, I/O dies 8 to 11 (R428). -/
def thermalDie (k : Nat) : Nat :=
  if k < 136 then k / 17 else if k < 144 then k - 136 else if k < 300 then 8 + (k - 296) else 8

/-- The power cap limit of a tile with `tokens`: the highest level whose cost does not exceed them (R425). -/
def State.capLevel (s : State) (tokens : Nat) : Nat :=
  (numsFrom 0 8).foldl (fun b n => if s.fld (LVL_COST.adr n) LVL_COST.TOKENS ≤ tokens then n else b) 0

/-- The lowest of DOM_CTL.LEVEL, the cap limit of a tile, the thermal limit of the die and the package limit; HOLD
keeps every levelled domain at L0 (R404, R418). -/
def State.effLevel (s : State) (k : Nat) : Nat :=
  let l := s.fld (DOM_CTL.adr k) DOM_CTL.LEVEL
  let cap := if k < 136 && s.has PCAP_POOL.adr PCAP_POOL.ENABLE
    then s.capLevel (s.fld (TILE_ALLOC.adr k) TILE_ALLOC.TOKENS) else 7
  let th := 7 - s.power.capped.get 0 (thermalDie k)
  let pk := 7 - s.power.pkgDrop
  if s.power.devHold then 0 else min l (min cap (min th pk))

/-- The present voltage of a levelled domain. -/
def State.volt (s : State) (k : Nat) : Nat := s.power.volt.get 500 k

/-- The lowest-numbered waiting upward ramp starts when a slot is free (R405). -/
def State.rampNext (s : State) : State :=
  match s.power.waiting with
  | [] => s
  | k :: r =>
    if s.power.ramping.length < 32 then
      { s with power := { s.power with ramping := nset s.power.ramping k, waiting := r } }.setF
        (DOM_STAT.adr k) DOM_STAT.RAMPING 1
    else s

/-- A domain's effective level has changed: LEVEL_EFF and LIMITED show it and the calender ramps toward it; an upward
ramp waits while 32 others run, and one that turns down frees its place (R404, R405). -/
def State.rampStart (s : State) (k : Nat) : State :=
  if !levelled k || !s.isOn k then s
  else
    let e := s.effLevel k
    let s := s.setF (DOM_STAT.adr k) DOM_STAT.LEVEL_EFF e
    let s := s.setF (DOM_STAT.adr k) DOM_STAT.LIMITED (b2n (e < s.fld (DOM_CTL.adr k) DOM_CTL.LEVEL))
    let up := s.power.ramping.filter fun j => j ≠ k
    let wt := s.power.waiting.filter fun j => j ≠ k
    if s.volt k < levelVolt e then
      (if up.length < 32 then
        { s with power := { s.power with ramping := nset up k, waiting := wt } }.setF (DOM_STAT.adr k) DOM_STAT.RAMPING 1
       else { s with power := { s.power with ramping := up, waiting := nset wt k } })
    else if levelVolt e < s.volt k then
      ({ s with power := { s.power with ramping := up, waiting := wt } }.setF (DOM_STAT.adr k) DOM_STAT.RAMPING 1).rampNext
    else ({ s with power := { s.power with ramping := up, waiting := wt } }.setF (DOM_STAT.adr k) DOM_STAT.RAMPING 0).rampNext

/-! ## Wakes (R411, R415, R416, R421, R422) -/

/-- A limit has changed: every levelled domain follows its effective level (R404). -/
def State.relevel (s : State) : State := ((numsFrom 0 302).filter levelled).foldl (fun s k => s.rampStart k) s

/-- The 16 cores of physical tile `p`. -/
def State.tileCores (s : State) (p : Nat) : List Nat := numsFrom (s.firstCore p) 16

/-- A change of die `d`'s tile map from that of `old`: each physical core keeps its registers, caches and running state,
and its requests stay its own, under the number that the new map gives it (R27, R28; DESIGN CHOICE, assumption log
entry 73). -/
def State.recore (s old : State) (d : Nat) : State :=
  let moved := (numsFrom (d * 17) 17).filter fun p => old.firstCore p != s.firstCore p
  let cleared := moved.foldl (fun s p => (numsFrom (old.firstCore p) 16).foldl (fun s c => s.setCore c Core.reset) s) s
  let s := moved.foldl (fun s p => (numsFrom 0 16).foldl (fun s k =>
    s.setCore (s.firstCore p + k) (old.core (old.firstCore p + k))) s) cleared
  let renumber (c : Nat) : Nat := match moved.find? fun p => old.firstCore p == c / 16 * 16 with
    | some p => s.firstCore p + c % 16
    | none => c
  if moved.isEmpty then s
  else { s with outst := s.outst.map fun o => { o with core := renumber o.core }, woken := s.woken.map renumber }

/-- The cores of tile `p` that are held in SLEEP with request NAP take result code `code` (R413). -/
def State.sleepResult (s : State) (p code : Nat) : State :=
  (s.tileCores p).foldl (fun s c =>
    if (s.core c).sleeping then s.updCore c (fun k => { k with sleepRes := some code }) else s) s

/-- The last-wake word (LAST_WAKE_k, DEV_LAST_WAKE). -/
def lastWake (cause slot aon : Nat) (during : Bool) : Word :=
  BitVec.ofNat 64 (cause * 2 ^ 60 + b2n during * 2 ^ 59 + slot * 2 ^ 48 + aon)

/-- AON ticks since tile `p`, in NAP, passed PNR (R430). -/
def State.napSpent (s : State) (p : Nat) : Nat := (s.clock.aon.toNat + 2 ^ 48 - s.power.napFrom.get 0 p) % 2 ^ 48

/-- Tile `p` starts NAP exit, step 1 of R415. -/
def State.napExitStart (s : State) (p cause slot : Nat) (during : Bool) : State :=
  let spent := s.napSpent p
  let s := (s.setDom p 4).wr (LAST_WAKE.adr p) (lastWake cause slot s.clock.aon.toNat during)
  let s := s.incF (NAP_RES.adr p) NAP_RES.TICKS spent
  { s with power := { s.power with napFrom := s.power.napFrom.put 0 p 0 } }

/-- A wake reaches tile `p` (R411): a napping tile starts exit, an entering tile abandons its entry and its
sleepers take code 2 (R416); a tile in any other state is not asleep. -/
def State.wakeTile (s : State) (p cause slot : Nat) : State :=
  if s.dom p = 2 then s.napExitStart p cause slot false
  else if s.dom p = 3 then
    (((s.setDom p 1).wr (LAST_WAKE.adr p) (lastWake cause slot s.clock.aon.toNat false)).setF (DOM_CTL.adr p)
      DOM_CTL.NAP_NOW 0).sleepResult p 2
  else s

/-- Whether tile `p` counts as asleep for the watcher: from the start of entry until exit starts (R412). -/
def State.tileAsleep (s : State) (p : Nat) : Bool := s.dom p == 2 || s.dom p == 3

/-- The service cores have stopped between bundles: point B3 of an entry to DORMANT is passed (R420 step 3). -/
def State.svcStopped (s : State) : Bool :=
  s.fld PWR_DEV_STAT.adr PWR_DEV_STAT.STATE == 3 && s.fld PWR_DEV_STAT.adr PWR_DEV_STAT.POINT == 3

/-- Whether the device counts as asleep: HOLD, DORMANT, or entering (R288, R418). -/
def State.devAsleep (s : State) : Bool :=
  let st := s.fld PWR_DEV_STAT.adr PWR_DEV_STAT.STATE
  st == 1 || st == 2 || st == 3

/-- HOLD ends: the levels and memory levels in force before entry return, and the ramps start (R421). -/
def State.holdEnd (s : State) : State :=
  let s := s.power.memWas.foldl (fun s p => s.setF (DOM_STAT.adr (144 + p.1)) DOM_STAT.LEVEL_NOW p.2) s
  State.relevel { s with power := { s.power with devHold := false, memWas := [] } }

/-- A device wake (R418, R421, R422): HOLD ends at once, DORMANT starts its exit, an entry keeps the wake for its
next abort point. -/
def State.wakeDevice (s : State) (cause slot : Nat) : State :=
  let st := s.fld PWR_DEV_STAT.adr PWR_DEV_STAT.STATE
  let lw := lastWake cause slot s.clock.aon.toNat false
  if st = 1 then
    ((s.wr DEV_LAST_WAKE.adr lw).setF PWR_DEV_STAT.adr PWR_DEV_STAT.STATE 0).holdEnd
  else if st = 2 then ((s.wr DEV_LAST_WAKE.adr lw).setF PWR_DEV_STAT.adr PWR_DEV_STAT.STATE 4).emit .wakeOut
  else if st = 3 then
    (match s.power.devWake with
     | some _ => s
     | none => { s with power := { s.power with devWake := some ⟨cause, slot⟩ } })
  else s

/-! ## The wake watcher and arrivals (R277, R284, R288, R289) -/

/-- Event source `n` of the hub. -/
def State.src (s : State) (n : Nat) : EvSource := s.hub.get (EvSource.reset n) n

/-- `s` with event source `n` replaced. -/
def State.setSrc (s : State) (n : Nat) (e : EvSource) : State := { s with hub := s.hub.put (EvSource.reset n) n e }

/-- The AON sources: the link energy detectors, WAKE_IN, the AON alarm and the SMBus wake (R289). -/
def aonSource (n : Nat) : Bool :=
  (6400 ≤ n && n < 6976 && (n - 6400) % 4 == 3) || n == 7040 || n == 7041 || n == 7042

/-- The sleeping targets of watcher slot `i` on source `n` (R288): the tile, the device. -/
def State.slotHit (s : State) (i n : Nat) : Bool × Bool :=
  let act := s.fld (WW_SLOT.adr i) WW_SLOT.ACTION
  let tile := act != 1 && (match s.physTile ((s.src n).target / 16) with | some p => s.tileAsleep p | none => false)
  (tile, act != 0 && s.devAsleep)

/-- Watcher slot `i` fires for its sleeping targets: it sets its FIRED bit and starts the wakes (R288). -/
def State.fireSlot (s : State) (i n : Nat) (hit : Bool × Bool) : State :=
  let s := if hit.1 || hit.2 then s.wr WW_FIRED.adr (s.rd WW_FIRED.adr ||| BitVec.ofNat 64 (2 ^ i)) else s
  let s := if hit.1 then (match s.physTile ((s.src n).target / 16) with | some p => s.wakeTile p 1 i | none => s) else s
  if hit.2 then s.wakeDevice 1 i else s

/-- The enabled slots that satisfy `f` of their source fire together: each finds its targets as they were before
(R288, R291). -/
def State.fireWhere (s : State) (f : Nat → Bool) : State :=
  let hits := (numsFrom 0 64).filterMap fun i =>
    let w := s.rd (WW_SLOT.adr i)
    let n := fget WW_SLOT.SOURCE w
    if fset? WW_SLOT.ENABLE w && f n then some (i, n, s.slotHit i n) else none
  hits.foldl (fun s x => s.fireSlot x.1 x.2.1 x.2.2) s

/-- Every enabled slot that watches source `n` fires (R288, R291). -/
def State.fireSlots (s : State) (n : Nat) : State := s.fireWhere fun m => m == n

/-- Slots that watch a level source that is high fire when their target is asleep (R288). -/
def State.fireLevels (s : State) : State := s.fireWhere fun n => (s.src n).isLevel && (s.src n).level

/-- A source is pending: COUNT > 0, or its input is high (R277, R278). -/
def EvSource.pend (e : EvSource) : Bool := if e.isLevel then e.level else e.count != 0

/-- Source `e` is claimable for core `c` with threshold `th` (R280). -/
def EvSource.claimable (e : EvSource) (c th : Nat) : Bool :=
  e.target == c && !e.masked && e.pend && !e.insvc && th ≤ e.prio

/-- EV_CORE_CTL_c.THRESHOLD. -/
def State.threshold (s : State) (c : Nat) : Nat := s.fld (EV_CORE_CTL.adr c) EV_CORE_CTL.THRESHOLD

/-- The better of two claimable sources: the higher priority, among equals the lower number (R280). -/
def betterSource (best : Option (Nat × EvSource)) (n : Nat) (e : EvSource) : Option (Nat × EvSource) :=
  match best with
  | none => some (n, e)
  | some (m, b) => if b.prio < e.prio then some (n, e) else some (m, b)

/-- The source a claim for core `c` takes: only listed sources can be pending. -/
def State.bestSource (s : State) (c : Nat) : Option (Nat × EvSource) :=
  s.hub.foldl (fun best p =>
    if p.1 < 7712 && p.2.claimable c (s.threshold c) then betterSource best p.1 p.2 else best) none

/-- EVENT is pending at core `c` (R283). -/
def State.eventPending (s : State) (c : Nat) : Bool := s.hubOn && (s.bestSource c).isSome

/-- Interrupt PERF_OVF or EVENT is pending for core `c` (R136). -/
def State.pendingAt (s : State) (c : Nat) : Bool := s.eventPending c || (s.core c).perfOvf

/-- An interrupt that becomes pending for core `c`, held in WAIT or SLEEP, ends the wait whatever becomes of it then
(R136, R413). -/
def State.noteCore (s : State) (c : Nat) : State :=
  if ((s.core c).waiting || (s.core c).sleeping) && s.eventPending c then { s with woken := nset s.woken c } else s

/-- `k` arrivals counted at a source: COUNT and ARRIVED rise, an arrival at 0xFFFF sets SAT instead (R277). -/
def EvSource.addCount (e : EvSource) (k : Nat) : EvSource :=
  let c := min 0xFFFF (e.count + k)
  { e with count := c, arrived := (e.arrived + (c - e.count)) % 2 ^ 32, sat := e.sat || e.count + k > 0xFFFF }

/-- `k` arrivals at source `n`.  Watching slots fire; the hub counts them while it runs, keeps those of AON sources
for later otherwise (R289); a doorbell of an absent tile discards them (R284). -/
def State.arrive (s : State) (n k : Nat) : State :=
  if 7712 ≤ n || k = 0 || (s.src n).isLevel then s
  else if !s.hubOn then
    (if aonSource n then { (s.fireSlots n) with aonPend := (s.fireSlots n).aonPend ++ [n] } else s)
  else if n < 2048 && (s.physTile ((s.src n).target / 16)).isNone then
    s.satF EV_HUB_STAT.adr EV_HUB_STAT.DB_DROPPED k
  else
    let s := s.setSrc n ((s.src n).addCount k)
    (s.fireSlots n).noteCore (s.src n).target

/-- One arrival. -/
def State.event (s : State) (n : Nat) : State := s.arrive n 1

/-- The free values a command uses are numbered by this counter. -/
def State.tick (s : State) : State := { s with freeTick := s.freeTick + 1 }

end Sys2Proof.Machine
end

