-- ==== Sys2Proof/Machine/Crossings.lean ====
section
/-!
DEFINITION. Crossings between clocked and clockless logic (spec/02, R51 to R63).
-/

namespace Sys2Proof.Machine

/-- The address of XSTAT_x in window `w`, which keys the crossing's contents. -/
def xKey (w : Window) (x : Nat) : Nat := XSTAT.adr (winBase w) x

/-- What crossing `x` of window `w` holds. -/
def State.xing (s : State) (w : Window) (x : Nat) : Crossing := s.xings.get Crossing.reset (xKey w x)

/-- `s` with what the crossing holds replaced. -/
def State.setXing (s : State) (w : Window) (x : Nat) (c : Crossing) : State :=
  { s with xings := s.xings.put Crossing.reset (xKey w x) c }

/-- The crossing's kind (R62). -/
def xKind (w : Window) (x : Nat) : Nat := crossingKind (winBase w) x

/-- XSTAT.STATE: 0 READY, 1 RESYNC, 2 HELD. -/
def State.xState (s : State) (w : Window) (x : Nat) : Nat := s.fld (xKey w x) XSTAT.STATE

/-- `s` with XSTAT.STATE replaced. -/
def State.setXState (s : State) (w : Window) (x v : Nat) : State := s.setF (xKey w x) XSTAT.STATE v

/-- Depth of a queue crossing (R52). -/
def xDepth (w : Window) (x : Nat) : Nat :=
  match w with
  | .link _ => if x ≤ 1 then 32 else 16
  | .mc _ => 64
  | _ => 16

/-- Whether the crossing's producer is clockless (R60, R62). -/
def xClockless (w : Window) (x : Nat) : Bool :=
  match w with
  | .link _ => x == 1
  | .mc _ => x == 0
  | .svc => x == 1 || x == 6 || x == 9 || x == 10 || x == 16
  | .pcie => x == 1
  | _ => false

/-- XSTAT.LEVEL from the contents: words of a queue, 1 for a pending HFR value, the pulse counter (R62 table). -/
def Crossing.level (c : Crossing) (kind : Nat) : Nat :=
  if kind ≤ 2 then c.words.length
  else if kind = 3 then (if c.next.isSome then 1 else 0)
  else if kind = 4 then c.counter
  else 0

/-- Whether the crossing holds something for its destination. -/
def Crossing.waitingData (c : Crossing) : Bool :=
  !c.words.isEmpty || c.held.isSome || c.counter != 0 || c.flight != 0

/-- Store the contents and show their LEVEL; data that waits for a stopped clock shows STATE HELD (R57). -/
def State.putXing (s : State) (w : Window) (x : Nat) (c : Crossing) : State :=
  let s := (s.setXing w x c).setF (xKey w x) XSTAT.LEVEL (c.level (xKind w x))
  if s.has (xKey w x) XSTAT.DST_STOPPED && s.xState w x = 0 && c.waitingData then s.setXState w x 2 else s

/-- Set a sticky bit of XSTAT. -/
def State.xFlag (s : State) (w : Window) (x : Nat) (f : Fld) : State := s.setF (xKey w x) f 1

/-- XCNT_x of window `w`. -/
def xCnt (w : Window) (x : Nat) : Nat := XCNT.adr (winBase w) x

/-- XSUM.FLAGGED as read: the crossings with OVERRUN, RESYNC_SEEN or TIMEOUT set. -/
def State.readXsum (s : State) (w : Nat) : Word :=
  BitVec.ofNat 64 ((numsFrom 0 32).foldl (fun n x =>
    if s.rd (XSTAT.adr w x) &&& 7 != 0 then n + 2 ^ x else n) 0)

/-- Crossing 10 of the service complex window, which holds its writers instead of replacing a pending value (R54,
R290). -/
def xHoldsWriters (w : Window) (x : Nat) : Bool := w == .svc && x == 10

/-- A source offers a value to an HFR (R54, R61): held when nothing is held, else pending; a second pending value
replaces the first with OVERRUN, and at crossing 10 is held; in RESYNC the value only becomes the source's current one
(R58). -/
def State.hfrOffer (s : State) (w : Window) (x : Nat) (v : Word) : State :=
  if xKind w x ≠ 3 then s
  else
    let c := { s.xing w x with cur := some v }
    if s.xState w x = 1 then
      (if xHoldsWriters w x then s.setXing w x { s.xing w x with waiting := c.waiting ++ [v] } else s.setXing w x c)
    else
      match c.held, c.next with
      | none, _ => s.putXing w x { c with held := some v }
      | some _, none => s.putXing w x { c with next := some v }
      | some _, some _ =>
        if xHoldsWriters w x then s.putXing w x { c with waiting := c.waiting ++ [v] }
        else (s.putXing w x { c with next := some v }).xFlag w x XSTAT.OVERRUN

/-- The destination's acknowledgement: the held value is delivered and the pending one is offered, behind which a held
writer's becomes pending (R54, R290). -/
def State.hfrAck (s : State) (w : Window) (x : Nat) : State :=
  let c := s.xing w x
  if xKind w x ≠ 3 || s.xState w x ≠ 0 then s
  else
    match c.held with
    | none => s
    | some v => s.putXing w x { c with dest := v, held := c.next, next := c.waiting.head?, waiting := c.waiting.drop 1 }

/-- The request of a pulse crossing rises with the counter's contents, which restarts from 0 (R55). -/
def Crossing.pulseRequest (c : Crossing) : Crossing :=
  if c.phase = .idle && c.counter ≠ 0 then { c with flight := c.counter, counter := 0, phase := .requested } else c

/-- An event at a pulse crossing (R55): the 4-bit counter rises, at 15 it stays with OVERRUN; an idle handshake
rises at once unless the crossing is in RESYNC. -/
def State.pulseEvent (s : State) (w : Window) (x : Nat) : State :=
  if xKind w x ≠ 4 then s
  else
    let c := s.xing w x
    if c.counter = 15 then s.xFlag w x XSTAT.OVERRUN
    else
      let c := { c with counter := c.counter + 1 }
      s.putXing w x (if s.xState w x = 1 then c else c.pulseRequest)

/-- The event source a pulse crossing delivers to (R62): for the service complex, the management link's (7,656) and the
xSPI transfer's (7,650); none where the spec gives another destination. -/
def pulseSource (w : Window) (x : Nat) : Option Nat :=
  match w with
  | .mc d => if 4 ≤ x && x ≤ 11 then some (6976 + 8 * d + (x - 4)) else none
  | .link n => if 6 ≤ x && x ≤ 9 then some (6400 + 4 * n + (x - 6)) else none
  | .time => if 1 ≤ x && x ≤ 16 then some (7167 + x) else none
  | .svc => if x = 3 then some 7656 else if x = 8 then some 7650 else none
  | _ => none

/-- The destination takes the count in flight, adds it to its event source and raises the acknowledge (R55). -/
def State.pulseDeliver (s : State) (w : Window) (x : Nat) : State :=
  let c := s.xing w x
  if xKind w x = 4 && c.phase = .requested && s.xState w x = 0 then
    let s := s.putXing w x { c with phase := .acked, dest := BitVec.ofNat 64 c.flight, flight := 0 }
    (match pulseSource w x with
     | some n => s.arrive n c.flight
     | none => s)
  else s

/-- The four-phase handshake completes; a non-zero counter raises the next request at once (R55). -/
def State.pulseDone (s : State) (w : Window) (x : Nat) : State :=
  let c := s.xing w x
  if xKind w x = 4 && c.phase = .acked then
    let c := { c with phase := .idle }
    s.putXing w x (if s.xState w x = 1 then c else c.pulseRequest)
  else s

/-- Words of held producers enter the ring while it has room (R53). -/
def Crossing.refill (c : Crossing) (depth : Nat) : Crossing :=
  let k := depth - c.words.length
  { c with words := c.words ++ c.waiting.take k, waiting := c.waiting.drop k }

/-- A producer writes a word: it enters the ring, or is held while the ring is full or in RESYNC (R53, R58); after
the R60 time-out a clockless request in RESYNC is answered and counted instead. -/
def State.xWrite (s : State) (w : Window) (x : Nat) (v : Word) : State :=
  if xKind w x ≠ 1 && xKind w x ≠ 2 then s
  else
    let c := s.xing w x
    if s.xState w x = 1 && c.timedOut && xClockless w x then
      (s.satF (xCnt w x) XCNT.DISCARD 1).xFlag w x XSTAT.TIMEOUT
    else
      let c := { c with waiting := c.waiting ++ [v] }
      s.putXing w x (if s.xState w x = 1 then c else c.refill (xDepth w x))

/-- The consumer takes the oldest word; an empty queue, one in RESYNC or one with its consumer's clock stopped makes
it wait (R53, R57). -/
def State.xRead (s : State) (w : Window) (x : Nat) : State :=
  let c := s.xing w x
  if (xKind w x ≠ 1 && xKind w x ≠ 2) || s.xState w x ≠ 0 then s
  else
    match c.words with
    | [] => s
    | v :: r => s.putXing w x (({ c with words := r, dest := v }).refill (xDepth w x))

/-- No destination clock edge for 1 µs (R57). -/
def State.dstStopped (s : State) (w : Window) (x : Nat) : State :=
  if xKind w x = 0 then s
  else
    let s := s.xFlag w x XSTAT.DST_STOPPED
    if s.xState w x = 0 && (s.xing w x).waitingData then s.setXState w x 2 else s

/-- The destination clock returns: delivery resumes in order (R57). -/
def State.dstReturn (s : State) (w : Window) (x : Nat) : State :=
  let s := s.setF (xKey w x) XSTAT.DST_STOPPED 0
  if s.xState w x = 2 then s.setXState w x 0 else s

/-- What a resynchronisation discards (R58 step 3): the words of a queue, the values of an HFR, the counter of a
pulse crossing; a counter crossing holds nothing (R59). -/
def Crossing.discards (c : Crossing) (kind : Nat) : Nat :=
  if kind ≤ 2 then c.words.length
  else if kind = 3 then b2n c.held.isSome + b2n c.next.isSome
  else if kind = 4 then c.counter
  else 0

/-- RESYNC starts (R58): the contents are discarded and counted; RESYNC_SEEN is set unless the cause is power-on
reset. A crossing already in RESYNC goes through one resynchronisation (R61), and answers as before until it is READY
(R60).  DESIGN CHOICE: a pulse count that was captured and is in flight is dropped and adds nothing to DISCARD; the spec
names only the counter (log entry 68). -/
def State.resyncStart (s : State) (w : Window) (x : Nat) (powerOn : Bool) : State :=
  if xKind w x = 0 then s
  else
    let c := s.xing w x
    let s := s.satF (xCnt w x) XCNT.DISCARD (c.discards (xKind w x))
    let again := s.xState w x = 1 && c.timedOut
    let s := s.putXing w x { c with words := [], held := none, next := none, dest := 0, counter := 0, flight := 0,
                                    phase := .idle, timedOut := again, cold := powerOn }
    let s := s.setXState w x 1
    if powerOn then s else s.xFlag w x XSTAT.RESYNC_SEEN

/-- A reset on either side; a cause other than power-on reset raises event 7,705 (R58, R60). -/
def State.xSideReset (s : State) (w : Window) (x : Nat) (powerOn : Bool) : State :=
  if xKind w x = 0 then s
  else
    let s := s.resyncStart w x powerOn
    if powerOn then s else s.event 7705

/-- A write of 1 to XCTL.RESYNC; the bit reads 1 until the crossing is READY (R58). -/
def State.xResync (s : State) (w : Window) (x : Nat) : State :=
  if xKind w x = 0 then s
  else (s.resyncStart w x false).setF (XCTL.adr (winBase w) x) XCTL.RESYNC 1

/-- Both sides have zeroed their pointers (R58 steps 4 and 5): READY, RESYNCS rises, held requests proceed, an HFR
source offers its current value again.  A side whose clock stands cannot, and the crossing stays in RESYNC (R57).
DESIGN CHOICE: the current value is the one last offered, also after a reset of the source's side, of which the spec does
not say what value it leaves (log entry 68). -/
def State.resyncComplete (s : State) (w : Window) (x : Nat) : State :=
  if s.xState w x ≠ 1 || xKind w x = 0 || s.has (xKey w x) XSTAT.DST_STOPPED then s
  else
    let c := { s.xing w x with timedOut := false, cold := false }
    let c := if xHoldsWriters w x then
        { c with held := c.waiting.head?, next := (c.waiting.drop 1).head?, waiting := c.waiting.drop 2 }
      else if xKind w x = 3 then { c with held := c.cur } else c
    let c := if xKind w x = 4 then c.pulseRequest else if xKind w x = 3 then c else c.refill (xDepth w x)
    let s := (s.putXing w x c).setXState w x 0
    let s := s.satF (xCnt w x) XCNT.RESYNCS 1
    s.setF (XCTL.adr (winBase w) x) XCTL.RESYNC 0

/-- A clockless request has been held in RESYNC for 50 µs: it, and every later one until READY, is answered as by a
deckle gate and counted (R60). -/
def State.resyncHoldTimeout (s : State) (w : Window) (x : Nat) : State :=
  let c := s.xing w x
  if s.xState w x = 1 && xClockless w x && !c.waiting.isEmpty then
    let s := s.satF (xCnt w x) XCNT.DISCARD c.waiting.length
    (s.putXing w x { c with waiting := [], timedOut := true }).xFlag w x XSTAT.TIMEOUT
  else s

/-! ## Events that blocks raise -/

/-- The pulse crossing that carries a block's events for source `n` to the hub (R62). -/
def eventCrossing (n : Nat) : Option (Window × Nat) :=
  if 6400 ≤ n && n < 6976 then some (.link ((n - 6400) / 4), 6 + (n - 6400) % 4)
  else if 6976 ≤ n && n < 7040 then some (.mc ((n - 6976) / 8), 4 + (n - 6976) % 8)
  else if 7168 ≤ n && n < 7184 then some (.time, n - 7167)
  else none

/-- The resynchronisation of a window's power-up has ended before its block raises an event or a requester writes (R58
step 4: within 8 periods). -/
def State.xWarm (s : State) (w : Window) (x : Nat) : State :=
  if s.xState w x = 1 && (s.xing w x).cold then s.resyncComplete w x else s

/-- A block raises an event for source `n` (R55, R62, R325): through its pulse crossing, whose handshake completes at once
where it is READY, idle and its destination clock runs, and which keeps the event otherwise; without a crossing, or
while the block's domain is off, straight to the hub. -/
def State.pulse (s : State) (n : Nat) : State :=
  match eventCrossing n with
  | none => s.event n
  | some (w, x) =>
    if !s.isOn (winDom w) || !s.hubOn then s.event n
    else
      let s := s.xWarm w x
      let free := (s.xing w x).phase == .idle && s.xState w x == 0 && !s.has (xKey w x) XSTAT.DST_STOPPED
      let s := s.pulseEvent w x
      if free then (s.pulseDeliver w x).pulseDone w x else s

end Sys2Proof.Machine
end

