-- ==== Sys2Proof/Machine/Ecc.lean ====
section
/-!
DEFINITION. The check codes (spec/08, R234 to R239): the SECDED and the light code of a 32-bit word, how a read
classifies it, and the error logs that count what it finds (R260).
-/

namespace Sys2Proof.Machine

/-- Parity of the ones of the low `n` bits. -/
def parity : Nat → Nat → Bool
  | 0, _ => false
  | n + 1, x => xor (x % 2 == 1) (parity n (x / 2))

/-- The masks of check bits c0 to c6 (R235). -/
def secMasks : List Nat :=
  [0x00001FFF, 0x007FE00F, 0x1F81E0F0, 0x638E2311, 0xACB24D22, 0xD5549644, 0xFA691888]

/-- Bits of a list of truth values, the first least significant. -/
def packBits : List Bool → Nat
  | [] => 0
  | b :: r => b2n b + 2 * packBits r

/-- The SECDED check field of a data word (R235). -/
def secCheck (d : Nat) : Nat := packBits (secMasks.map fun m => parity 32 (d &&& m))

/-- The column of data bit `i` (R235). -/
def secColumn (i : Nat) : Nat := packBits (secMasks.map fun m => nbit i m)

/-- The byte parities of a data word, bytes 0 to 3 in bits [3:0] (R237). -/
def lightParity (d : Nat) : Nat := packBits ((numsFrom 0 4).map fun k => parity 8 (d / 2 ^ (8 * k)))

/-- The classes of a word as read (R236, R238). -/
inductive EccClass where
  | clean | checkCorrected | dataCorrected | uncorrectable | poison
deriving DecidableEq, Repr

/-- CLASS of DIAG_RDATA and ERR_SYND (R259). -/
def EccClass.code : EccClass → Nat
  | .clean => 0
  | .checkCorrected => 1
  | .dataCorrected => 2
  | .uncorrectable => 3
  | .poison => 4

/-- A word as delivered: its class, syndrome and data. -/
structure Decoded where
  cls : EccClass
  syn : Nat
  data : Nat
deriving DecidableEq, Repr

/-- Whether the word is delivered poisoned (R239, R240). -/
def Decoded.poisoned (x : Decoded) : Bool := x.cls == .uncorrectable || x.cls == .poison

/-- A correction was made. -/
def Decoded.corrected (x : Decoded) : Bool := x.cls == .checkCorrected || x.cls == .dataCorrected

/-- Decoding in the SECDED code (R236). -/
def secDecode (d c : Nat) : Decoded :=
  let syn := c ^^^ secCheck d
  if syn = 0 then ⟨.clean, syn, d⟩
  else if syn = 0x7F then ⟨.poison, syn, d⟩
  else if [1, 2, 4, 8, 16, 32, 64].contains syn then ⟨.checkCorrected, syn, d⟩
  else
    match (numsFrom 0 32).find? fun i => secColumn i == syn with
    | some i => ⟨.dataCorrected, syn, d ^^^ 2 ^ i⟩
    | none => ⟨.uncorrectable, syn, d⟩

/-- Decoding in the light code (R238). -/
def lightDecode (d c : Nat) : Decoded :=
  let mis := (c % 16) ^^^ lightParity d
  let mk := c / 16 % 8
  let syn := mis + 16 * mk
  if [3, 5, 6, 7].contains mk then ⟨.poison, syn, d⟩
  else if mis ≠ 0 then ⟨.uncorrectable, syn, d⟩
  else if mk = 0 then ⟨.clean, syn, d⟩
  else ⟨.checkCorrected, syn, d⟩

/-- Decoding in the code of the array (R234). -/
def eccDecode (light : Bool) (d c : Nat) : Decoded := if light then lightDecode d c else secDecode d c

/-- The check field of a word as encoded (R235, R237, R239). -/
def eccEncode (light poison : Bool) (d : Nat) : Nat :=
  if light then lightParity d + (if poison then 0x70 else 0)
  else if poison then secCheck d ^^^ 0x7F else secCheck d

/-- DIAG_RDATA or ERR_SYND of a stored word (R259). -/
def syndWord (d c : Nat) (x : Decoded) : Word :=
  BitVec.ofNat 64 (x.cls.code * 2 ^ 61 + x.syn * 2 ^ 48 + c * 2 ^ 32 + d)

/-! ## Upsets of arrays with the fixed SECDED code (R234, R236) -/

/-- A check word as an array delivers it under upsets: its byte offset, the stored data and check field, and how they
decode. -/
structure Upset where
  off : Nat
  d : Nat
  c : Nat
  x : Decoded
deriving DecidableEq, Repr

/-- The word at offset `off` with data `d`, poisoned or not, under upsets `f`. -/
def Upset.of (off : Nat) (poison : Bool) (d : Nat) (f : BitVec 39) : Upset :=
  let d' := d ^^^ f.toNat % 2 ^ 32
  let c := eccEncode false poison d ^^^ f.toNat / 2 ^ 32
  ⟨off, d', c, secDecode d' c⟩

/-- The word holds an error: poison alone is none (R240). -/
def Upset.error (u : Upset) : Bool := u.x.corrected || u.x.cls == .uncorrectable

/-- The upsets of `n` words from word `w` on. -/
def Flips.part (f : Flips) (w n : Nat) : Flips :=
  (f.filter fun x => w ≤ x.1 && x.1 < w + n).map fun x => (x.1 - w, x.2)

/-- The upsets without those of `n` words from word `w` on. -/
def Flips.without (f : Flips) (w n : Nat) : Flips := f.eraseRange w (w + n)

/-- Bytes from offset `a` of an array's line as they are read under upsets `f`, with the poison of each check word they
touch, and the errors found.  `pz` marks the words as stored. -/
def readFlips (f : Flips) (a : Nat) (bs : List Byte) (pz : List Bool) : List Byte × List Bool × List Upset :=
  if f.isEmpty then (bs, pz, [])
  else
    let us := (numsFrom 0 pz.length).map fun i =>
      let w := a / 4 + i
      let d := ofBytes ((numsFrom (4 * w) 4).map fun b => if a ≤ b then bs.getD (b - a) 0 else 0)
      Upset.of (4 * w) (pz.getD i false) d (f.get 0 w)
    ((numsFrom a bs.length).map fun b =>
       match us[b / 4 - a / 4]? with | some u => BitVec.ofNat 8 (u.x.data / 2 ^ (8 * (b % 4))) | none => 0,
     us.map fun u => u.x.poisoned, us.filter Upset.error)

/-- An error found here is uncorrectable. -/
def spoilt (us : List Upset) : Bool := us.any fun u => u.x.cls == .uncorrectable

/-! ## Error logs (R260) -/

/-- The address of an error log and the event sources of its corrections, its uncorrectable errors and its OVERFLOW
(none: no event). -/
structure ErrLog where
  log : Nat
  ce : Nat
  ue : Nat
  ov : Option Nat
deriving DecidableEq, Repr

/-- The log of physical tile `p`. -/
def tileLog (p : Nat) : ErrLog :=
  ⟨tileBlk p + 0x2000, 7264 + 16 * (p / 17), 7265 + 16 * (p / 17), some (7269 + 16 * (p / 17))⟩
/-- The log of memory controller `d`. -/
def mcLog (d : Nat) : ErrLog := ⟨mcBlk d + 0x2000, 6976 + 8 * d, 6977 + 8 * d, some (6983 + 8 * d)⟩
/-- The log of die fabric `d`. -/
def dieLog (d : Nat) : ErrLog := ⟨dieBlk d + 0x4000, 7270 + 16 * d, 7271 + 16 * d, none⟩

/-- An error is counted, captured and gives its arrival (R260): a capture is taken when FIRST is 0, an uncorrectable
error replaces a captured correction, any other sets OVERFLOW, each time with its arrival (R497). -/
def State.logErr (s : State) (l : ErrLog) (unc : Bool) (addr synd : Word) : State :=
  let st := ERR_STAT.adr l.log
  let first := s.has st ERR_STAT.FIRST
  let held := s.fld (ERR_SYND.adr l.log) ERR_SYND.CLASS
  let take := !first || (unc && held < 3)
  let s := if unc then (s.satF (ERR_COUNT.adr l.log) ERR_COUNT.UE 1).setF st ERR_STAT.UE 1
    else (s.satF (ERR_COUNT.adr l.log) ERR_COUNT.CE 1).setF st ERR_STAT.CE 1
  let s := s.pulse (if unc then l.ue else l.ce)
  if take then ((s.wr (ERR_ADDR.adr l.log) addr).wr (ERR_SYND.adr l.log) synd).setF st ERR_STAT.FIRST 1
  else
    let s := s.setF st ERR_STAT.OVERFLOW 1
    match l.ov with | some n => s.pulse n | none => s

/-- ERR_ADDR of an error. -/
def errAddr (source unit loc : Nat) : Word :=
  BitVec.ofNat 64 (source * 2 ^ 61 + unit * 2 ^ 56 + loc % 2 ^ 40)

/-- The log of the service complex (spec/14, events 7,657 to 7,659). -/
def svcLog : ErrLog := ⟨0xC090000A00, 7657, 7658, some 7659⟩

/-- Errors found in the words of an array are counted and logged; `base` is the place of what was read in the array. -/
def State.logFlips (s : State) (l : ErrLog) (source unit base : Nat) (us : List Upset) : State :=
  us.foldl (fun s u => s.logErr l (u.x.cls == .uncorrectable) (errAddr source unit (base + u.off)) (syndWord u.d u.c u.x)) s

/-- The log of core `c`: its tile's, and a service core's the service complex's (R260). -/
def State.coreLog (s : State) (c : Nat) : ErrLog := match s.coreTile c with | some p => tileLog p | none => svcLog

/-- Errors found in an array of core `c` (SOURCE 1 to 4 of ERR_ADDR). -/
def State.logCore (s : State) (c source base : Nat) (us : List Upset) : State :=
  s.logFlips (s.coreLog c) source (c % 16) base us

end Sys2Proof.Machine
end

