-- ==== Sys2Proof/Machine/Queues.lean ====
section
/-!
DEFINITION. Message queues (spec/09, R263 to R276): pushes, pops, rewinds, flush, watermarks and their events.
-/

namespace Sys2Proof.Machine

/-- Queue `q` of physical tile `p`. -/
def State.queue (s : State) (p q : Nat) : MQueue := s.queues.get MQueue.reset (p * 32 + q)

/-- `s` with the queue replaced. -/
def State.setQueue (s : State) (p q : Nat) (m : MQueue) : State :=
  { s with queues := s.queues.put MQueue.reset (p * 32 + q) m }

/-- The queue's event source (R273). -/
def queueSource (p q : Nat) : Nat := 2048 + p * 32 + q

/-- COMMITTED > WM_HIGH (R272). -/
def MQueue.aboveHigh (m : MQueue) : Bool := m.wmHigh < m.words.length
/-- COMMITTED < WM_LOW (R272). -/
def MQueue.belowLow (m : MQueue) : Bool := m.words.length < m.wmLow
/-- Free slots (R271). -/
def MQueue.free (m : MQueue) : Nat := 64 - (m.words.length + m.opened.length)

/-- A change of COMMITTED from queue `old` to the queue now in `s`: watermark crossings set their flags and counts,
EVMODE 2 reports high crossings, EVMODE 3 drives the level (R272, R273). -/
def State.depthChanged (s : State) (p q : Nat) (old : MQueue) : State :=
  let m := s.queue p q
  let fl := Q_FLAGS.adr p q
  let ct := Q_COUNT.adr p q
  let up := m.aboveHigh && !old.aboveHigh
  let dn := m.belowLow && !old.belowLow
  let s := if up then (s.setF fl Q_FLAGS.HI_SEEN 1).satF ct Q_COUNT.HI_CROSS 1 else s
  let s := if dn then (s.setF fl Q_FLAGS.LO_SEEN 1).satF ct Q_COUNT.LO_CROSS 1 else s
  let s := if up && m.evmode = 2 then s.event (queueSource p q) else s
  if m.evmode = 3 then
    let n := queueSource p q
    let hi := !m.words.isEmpty
    let rises := hi && !(s.src n).level
    let s := s.setSrc n { s.src n with level := hi }
    if rises then (s.fireSlots n).noteCore (s.src n).target else s
  else s

/-- Q_PROD shows the producer in progress: the code of a requester. -/
def whoCode : Who → Nat
  | .core c => c
  | .svc i => 0x1000 + i
  | .remote _ r => r
  | .pcie => 0x2000
  | .jtag => 0      -- never a producer
  | .engine => 0    -- never a producer

/-- The device number of a requester, given this device's own. -/
def whoDevice (own : Nat) : Who → Nat
  | .remote d _ => d
  | _ => own

/-- Q_PROD follows the producer state (0 when IDLE). -/
def State.showProd (s : State) (p q : Nat) : State :=
  let m := s.queue p q
  let own := s.fld RT_DEVICE.adr RT_DEVICE.DEVICE
  let v : Nat := match m.prod with
    | .idle => 0
    | .opened => 2 ^ 62 + whoDevice own m.owner * 2 ^ 32 + whoCode m.owner
    | .absorbing => 2 * 2 ^ 62 + whoDevice own m.owner * 2 ^ 32 + whoCode m.owner
  s.wr (Q_PROD.adr p q) (BitVec.ofNat 64 v)

/-- Replace the queue and show its producer. -/
def State.putQueue (s : State) (p q : Nat) (m : MQueue) : State := (s.setQueue p q m).showProd p q

/-- Words of Q_COUNT.DISCARDED. -/
def State.qDiscard (s : State) (p q n : Nat) : State := s.satF (Q_COUNT.adr p q) Q_COUNT.DISCARDED n

/-- A rewind (R265, R268): every uncommitted word is removed and REWINDS counts it; the state becomes `st`. -/
def State.rewind (s : State) (p q : Nat) (st : ProdState) (owner : Who) : State :=
  let m := s.queue p q
  (s.putQueue p q { m with opened := [], prod := st, owner := owner,
                           flips := m.flips.without (2 * m.words.length) 128 }).satF (Q_COUNT.adr p q) Q_COUNT.REWINDS 1

/-- Commit the packet `ws` behind the committed words: one change of COMMITTED, one arrival in EVMODE 1. -/
def State.commitPacket (s : State) (p q : Nat) (ws : List PW) : State :=
  let m := s.queue p q
  let s := s.putQueue p q { m with words := m.words ++ ws, opened := [], prod := .idle }
  let s := s.depthChanged p q m
  if m.evmode = 1 then s.event (queueSource p q) else s

/-- Whether a push by `who` must be held (R265, R267, R268): another producer is in progress, or the push needs a
slot and finds none.  A poisoned word, an absorbed one and one that makes the packet oversize need no slot. -/
def MQueue.pushHeld (m : MQueue) (who : Who) (w : PW) : Bool :=
  match m.prod with
  | .idle => !w.poison && m.free == 0
  | .opened =>
    if m.owner ≠ who then true
    else !w.poison && m.opened.length != 64 && m.free == 0
  | .absorbing => m.owner != who

/-- A push that is not held (R265, R268). -/
def State.pushNow (s : State) (p q : Nat) (who : Who) (last : Bool) (w : PW) : State :=
  let m := s.queue p q
  match m.prod with
  | .absorbing =>
    let s := s.qDiscard p q 1
    if last then s.putQueue p q { m with prod := .idle } else s
  | _ =>
    if w.poison then
      (s.rewind p q (if last then .idle else .absorbing) who).setF (Q_FLAGS.adr p q) Q_FLAGS.BAD 1
    else if m.prod = .opened && m.opened.length = 64 then
      ((s.rewind p q (if last then .idle else .absorbing) who).setF (Q_FLAGS.adr p q) Q_FLAGS.OVERSIZE 1).qDiscard p q 1
    else if last then s.commitPacket p q (m.opened ++ [w])
    else s.putQueue p q { m with opened := m.opened ++ [w], prod := .opened, owner := who }

/-- A push at the queue: performed, or held until a slot frees or the other producer ends (R265, R267). -/
def State.push (s : State) (p q : Nat) (who : Who) (last : Bool) (w : PW) : State :=
  let m := s.queue p q
  if m.pushHeld who w then s.setQueue p q { m with held := m.held ++ [⟨who, last, w⟩] }
  else s.pushNow p q who last w

/-- QABORT (R265): the owner's open packet is rewound, without a flag; in ABSORBING the owner ends it; from anyone
else, or in IDLE, no effect. -/
def State.qabortAt (s : State) (p q : Nat) (who : Who) : State :=
  let m := s.queue p q
  if m.owner ≠ who then s
  else match m.prod with
    | .idle => s
    | .opened => s.rewind p q .idle who
    | .absorbing => s.putQueue p q { m with prod := .idle }

/-- OPEN_LIMIT µs of silence (R268): an open packet is rewound with STALE and absorbed; ABSORBING ends. -/
def State.staleAt (s : State) (p q : Nat) : State :=
  let m := s.queue p q
  if m.openLimit = 0 then s
  else match m.prod with
    | .idle => s
    | .opened => (s.rewind p q .absorbing m.owner).setF (Q_FLAGS.adr p q) Q_FLAGS.STALE 1
    | .absorbing => s.putQueue p q { m with prod := .idle }

/-- The first held push that the queue can take now. -/
def MQueue.takeHeld (m : MQueue) : List HeldPush → List HeldPush → Option (HeldPush × List HeldPush)
  | _, [] => none
  | seen, h :: r => if m.pushHeld h.who h.w then m.takeHeld (seen ++ [h]) r else some (h, seen ++ r)

/-- A held push is accepted once the queue can take it (R267); who pushed it, if any was. -/
def State.acceptHeld (s : State) (p q : Nat) : State × Option Who :=
  let m := s.queue p q
  match m.takeHeld [] m.held with
  | none => (s, none)
  | some (h, rest) => ((s.setQueue p q { m with held := rest }).pushNow p q h.who h.last h.w, some h.who)

/-- Held pushes of `who` are withdrawn: the queue takes nothing (R267). -/
def State.withdraw (s : State) (p q : Nat) (who : Who) : State :=
  let m := s.queue p q
  s.setQueue p q { m with held := m.held.filter fun h => h.who ≠ who }

/-- The oldest word as queue storage delivers it (R236): corrected, or poisoned where it is uncorrectable, with the
errors found. -/
def MQueue.oldest (m : MQueue) (w : PW) : PW × List Upset :=
  let r := readFlips (m.flips.part 0 2) 0 (toBytes 8 w.val.toNat) [w.poison, w.poison]
  if (m.flips.part 0 2).isEmpty then (w, []) else (⟨BitVec.ofNat 64 (ofBytes r.1), r.2.1.any id⟩, r.2.2)

/-- A pop (R269): the oldest committed word, or the last value again with UNDERRUN. -/
def State.popAt (s : State) (p q : Nat) : State × PW :=
  let m := s.queue p q
  match m.words with
  | [] => (s.setF (Q_FLAGS.adr p q) Q_FLAGS.UNDERRUN 1, m.last)
  | w :: r =>
    let x := m.oldest w
    let t := s.logFlips (tileLog p) 5 q 0 x.2
    ((t.setQueue p q { m with words := r, last := x.1, flips := m.flips.part 2 128 }).depthChanged p q m, x.1)

/-- A flush (R270): every word is discarded and counted; an open packet's owner is absorbed. -/
def State.flushAt (s : State) (p q : Nat) : State :=
  let m := s.queue p q
  let s := s.qDiscard p q (m.words.length + m.opened.length)
  let s := s.putQueue p q { m with words := [], opened := [], flips := [],
                                   prod := if m.prod = .opened then .absorbing else m.prod }
  s.depthChanged p q m

/-- A write of QCTL.EVMODE (R273): a change across counting and level kinds clears the source's count into ACKED
and changes its kind. -/
def State.evmodeAt (s : State) (p q mode : Nat) : State :=
  let m := s.queue p q
  let n := queueSource p q
  let s := s.setQueue p q { m with evmode := mode }
  let e := s.src n
  if mode = 3 && m.evmode ≠ 3 then
    let hi := !m.words.isEmpty
    let s := s.setSrc n { e with isLevel := true, level := hi, count := 0, acked := (e.acked + e.count) % 2 ^ 32 }
    if hi then (s.fireSlots n).noteCore e.target else s
  else if mode ≠ 3 && m.evmode = 3 then s.setSrc n { e with isLevel := false, level := false, count := 0 }
  else s

/-- A write of QWM (R272): marks above 64 store 64; the live bits follow, with no flag and no count. -/
def State.qwmAt (s : State) (p q : Nat) (v : Word) : State :=
  let m := s.queue p q
  s.setQueue p q { m with wmHigh := min 64 (fget QWM.WM_HIGH v), wmLow := min 64 (fget QWM.WM_LOW v) }

/-- QSTAT as read (R263, R271). -/
def State.readQstat (s : State) (p q : Nat) : Word :=
  let m := s.queue p q
  BitVec.ofNat 64 (m.free * 2 ^ 32 + m.opened.length * 2 ^ 24 + m.words.length * 2 ^ 16
    + b2n (m.prod == .absorbing) * 2 ^ 15 + b2n (m.prod == .opened) * 2 ^ 14
    + b2n m.aboveHigh * 2 ^ 12 + b2n m.belowLow * 2 ^ 11 + (s.rd (Q_FLAGS.adr p q)).toNat % 2 ^ 8)

/-- QCTL as read. -/
def State.readQctl (s : State) (p q : Nat) : Word :=
  let m := s.queue p q
  BitVec.ofNat 64 (m.openLimit * 2 ^ 32 + m.evmode * 2 ^ 4)

/-- QWM as read. -/
def State.readQwm (s : State) (p q : Nat) : Word :=
  let m := s.queue p q
  BitVec.ofNat 64 (m.wmHigh * 2 ^ 16 + m.wmLow * 2 ^ 8 + b2n m.aboveHigh * 2 + b2n m.belowLow)

/-- A write of QCTL: OPEN_LIMIT and EVMODE are stored, a 1 in FLUSH flushes. -/
def State.qctlAt (s : State) (p q : Nat) (v : Word) : State :=
  let s := s.setQueue p q { s.queue p q with openLimit := fget QCTL.OPEN_LIMIT v }
  let s := s.evmodeAt p q (fget QCTL.EVMODE v)
  if fset? QCTL.FLUSH v then s.flushAt p q else s

/-- How the tile of a queue answers an access (R274, R423, R424): an absent slot or an OFF tile takes nothing; a
napping or entering tile is woken and the access is held; a tile in transition holds it. -/
inductive QGate where
  | run (p : Nat)
  | sleeping (p : Nat)
  | off (p : Nat)
  | absent
deriving DecidableEq, Repr

/-- The gate of logical tile `t`'s queues. -/
def State.qgate (s : State) (t : Nat) : QGate :=
  match s.physTile t with
  | none => .absent
  | some p => if s.dom p = 1 then .run p else if s.dom p = 0 then .off p else .sleeping p

end Sys2Proof.Machine
end

