-- ==== Sys2Proof/Machine/Storage.lean ====
section
/-!
DEFINITION. The storage arrays behind the address spaces (spec/07, spec/08): where a word is kept, spares and
retirement, the code map, reads that classify, count and track (R236, R252, R260), writes that merge (R248), lines
whose valid bit is 0 (R249), and the recurrence tables (R252, R253).
-/

namespace Sys2Proof.Machine

/-- A line of a storage array: line `line` of segment `seg` of physical tile `p`, the line at stack address `x` of
stack `d`, or the line at offset `x` of service SRAM. -/
inductive Place where
  | seg (p seg line : Nat)
  | dram (d x : Nat)
  | svc (x : Nat)
deriving DecidableEq, Repr

/-- Base of the block whose repair group serves the place. -/
def Place.blk : Place → Nat
  | .seg p _ _ => tileBlk p
  | .dram d _ => mcBlk d
  | .svc _ => 0

/-- LOC of the place's first byte (REC_ENTRY_i.LOC). -/
def Place.loc : Place → Nat
  | .seg _ g l => g * 0x40000 + l * 64
  | .dram _ x => x
  | .svc x => x

/-- The error log of a place. -/
def Place.log : Place → ErrLog
  | .seg p _ _ => tileLog p
  | .dram d _ => mcLog d
  | .svc _ => svcLog

/-- ERR_ADDR for the word at offset `o` of a place. -/
def Place.errAddr (pl : Place) (o : Nat) : Word :=
  match pl with
  | .seg _ g _ => Machine.errAddr 0 g (pl.loc + o)
  | .dram _ _ => Machine.errAddr 6 0 (pl.loc + o)
  | .svc _ => Machine.errAddr 0 0 (pl.loc + o)

/-- Event of a hard error in a place's unit, and of spares exhausted (R260). -/
def Place.hardEvent : Place → Nat
  | .seg p _ _ => 7266 + 16 * (p / 17)
  | .dram d _ => 6978 + 8 * d
  | .svc _ => 7712

/-! ## Spares, retirement and the code map -/

/-- Listed registers from address `lo` to `hi - 1`. -/
def State.listed (s : State) (lo hi : Nat) : List (Nat × Word) := s.ctrl.filter fun r => lo ≤ r.1 && r.1 < hi

/-- The spare that serves a row or block: the entry last mapped for it, else the highest valid entry that names it
(R254 to R256). `key` names the row or block, `lo` is the first of `n` entries, `f` their name field. -/
def State.spareAt (s : State) (key lo n name : Nat) (f : Fld) : Option Nat :=
  let hits := (s.listed lo (lo + 8 * n)).filter fun r => nbit 63 r.2.toNat && fget f r.2 == name
  let is := hits.map fun r => (r.1 - lo) / 8
  let k := s.spareOf.get 0 key
  if k ≠ 0 && is.contains (k - 1) then some (k - 1) else is.getLast?

/-- Key of a segment row for `spareOf`. -/
def rowKey (p g row : Nat) : Nat := p * 2 ^ 20 + g * 2 ^ 10 + row
/-- Key of a DRAM block for `spareOf`. -/
def blockKey (d b : Nat) : Nat := 2 ^ 40 + d * 2 ^ 26 + b

/-- The spare row that serves row `row` of a segment. -/
def State.rowSpare (s : State) (p g row : Nat) : Option Nat :=
  s.spareAt (rowKey p g row) (SPARE_MAP.adr p g 0) 8 row SPARE_MAP.ROW

/-- The spare block that serves 1 KiB block `b` of stack `d`. -/
def State.blockSpare (s : State) (d b : Nat) : Option Nat :=
  s.spareAt (blockKey d b) (DRAM_REMAP.adr d 0) 1024 b DRAM_REMAP.BLOCK

/-- Storage address of a spare row and of a spare block. -/
def rowStore (p g r : Nat) : Nat := 2 ^ 42 + p * 32768 + g * 2048 + r * 256
/-- Storage address of spare block `i` of stack `d`. -/
def blockStore (d i : Nat) : Nat := 2 ^ 40 + d * 2 ^ 20 + i * 1024

/-- Storage address of the place's first byte. -/
def State.storeAt (s : State) : Place → Nat
  | .seg p g l =>
    match s.rowSpare p g (l / 4) with
    | some r => rowStore p g r + l % 4 * 64
    | none => 2 ^ 41 + p * 2 ^ 22 + g * 2 ^ 18 + l * 64
  | .dram d x =>
    match s.blockSpare d (x / 1024) with
    | some i => blockStore d i + x % 1024
    | none => d * 2 ^ 36 + x
  | .svc x => 2 ^ 43 + x

/-- The listed DRAM_RETIRE entry that is valid for the 4 KiB unit of stack address `x`. -/
def State.retiredUnit (s : State) (d x : Nat) : Option Word :=
  ((s.listed (DRAM_RETIRE.adr d 0) (DRAM_RETIRE.adr d 64)).find? fun r =>
    fset? DRAM_RETIRE.VALID r.2 && fget DRAM_RETIRE.UNIT r.2 == x / 4096).map (·.2)

/-- The place lies in a retired segment or DRAM unit (R253, R257). -/
def State.retiredAt (s : State) : Place → Bool
  | .seg p g _ => nbit g (s.fld (SEG_REPAIR.adr p) SEG_REPAIR.RETIRED)
  | .dram d x => (s.retiredUnit d x).isSome
  | .svc _ => true

/-- Reads of the place return poison and writes are discarded (R257). -/
def State.blockedUnit (s : State) : Place → Bool
  | .dram d x => (match s.retiredUnit d x with | some w => fset? DRAM_RETIRE.BLOCKED w | none => false)
  | _ => false

/-- The granule of local DRAM whose lines lie at stack address `x` of stack `d` (R222, R247). -/
def granuleOf (mode d x : Nat) : Nat :=
  if mode = 0 then x / 2 ^ 27
  else if mode = 1 then d * 64 + x / 2 ^ 30
  else if x < 2 ^ 35 then x / 2 ^ 27
  else 256 + d * 32 + (x - 2 ^ 35) / 2 ^ 30

/-- The stack addresses of stack `d` that hold granule `g`: first and one past the last (R222, R247). -/
def granuleRange (mode d g : Nat) : Nat × Nat :=
  if mode = 0 || (mode = 2 && g < 256) then (g * 2 ^ 27, (g + 1) * 2 ^ 27)
  else if mode = 1 then
    (if g / 64 = d then (g % 64 * 2 ^ 30, (g % 64 + 1) * 2 ^ 30) else (0, 0))
  else if (g - 256) / 32 = d then (2 ^ 35 + g % 32 * 2 ^ 30, 2 ^ 35 + (g % 32 + 1) * 2 ^ 30)
  else (0, 0)

/-- DRAM_MAP.MODE. -/
def State.dramMode (s : State) : Nat := s.fld DRAM_MAP.adr DRAM_MAP.MODE

/-- Where the conversion walk of controller `d` stands: the next stack address of granule `c.g`. -/
def State.convPos (s : State) (c : Conv) (d : Nat) : Nat :=
  let r := granuleRange s.dramMode d c.g
  if c.done.contains d then r.2 else c.pos.get r.1 d

/-- Whether the place is in the light code (R234, R246, R247); ahead of a conversion's walk the old code holds. -/
def State.lightAt (s : State) : Place → Bool
  | .seg p g _ => nbit g (s.fld (SEG_REPAIR.adr p) SEG_REPAIR.LIGHT)
  | .svc _ => false
  | .dram d x =>
    let g := granuleOf s.dramMode d x
    let l := s.has (DRAM_CODE.adr g) DRAM_CODE.LIGHT
    match s.conv with
    | some c => if c.g = g && s.convPos c d ≤ x then !l else l
    | none => l

/-! ## Raw words -/

/-- The canonical form of the storage arrays: addresses strictly rising, and no byte listed that an unlisted address
reads as. -/
def Memory.wf (m : List Host.Cell) : Bool := SMap.wf 0 m

/-- Byte of a storage array. -/
def State.byteAt (s : State) (k : Nat) : Byte := SMap.get s.mem 0 k

/-- Store one byte of a storage array. -/
def State.setByte (s : State) (k : Nat) (b : Byte) : State := { s with mem := SMap.put s.mem 0 k b }

/-- The stored data and check field of the word at storage address `k`; a DRAM word that nothing has written reads as
a free value (R250). -/
def State.rawRead (s : State) (pl : Place) (k : Nat) : State × Nat × Nat :=
  let c := s.chk.get 0 (k / 4)
  match pl with
  | .dram _ _ =>
    if c = 0 then
      let r := (Config.freeRaw s.freeTick).toNat
      (s.tick, r % 2 ^ 32, r / 2 ^ 32)
    else (s, ofBytes ((numsFrom k 4).map s.byteAt), c - 1)
  | _ => (s, ofBytes ((numsFrom k 4).map s.byteAt), c)

/-- Store a word with its check field at storage address `k`. -/
def State.rawWrite (s : State) (pl : Place) (k d c : Nat) : State :=
  let s := (((s.setByte k (BitVec.ofNat 8 d)).setByte (k + 1) (BitVec.ofNat 8 (d / 2 ^ 8))).setByte (k + 2)
    (BitVec.ofNat 8 (d / 2 ^ 16))).setByte (k + 3) (BitVec.ofNat 8 (d / 2 ^ 24))
  match pl with
  | .dram _ _ => { s with chk := s.chk.put 0 (k / 4) (c % 128 + 1) }
  | _ => { s with chk := s.chk.put 0 (k / 4) (c % 128) }

/-! ## The recurrence table (R252, R253) -/

/-- The 32 entries of a block's table, each with its index. -/
def State.recEntries (s : State) (b : Nat) : List (Nat × Word) :=
  (numsFrom 0 32).map fun i => (i, s.rd (REC_ENTRY.adr b i))

/-- The entry of the word at `loc`. -/
def State.recFind (s : State) (b loc : Nat) : Option (Nat × Word) :=
  (s.recEntries b).find? fun e => fset? REC_ENTRY.VALID e.2 && fget REC_ENTRY.LOC e.2 == loc

/-- An entry's content. -/
def recWord (st count loc : Nat) : Word :=
  BitVec.ofNat 64 (2 ^ 63 + st * 2 ^ 61 + min 255 count * 2 ^ 48 + loc % 2 ^ 40)

/-- The lowest COUNT of the listed entries, the earliest on a tie. -/
def lowestCount : List (Nat × Word) → Option (Nat × Word)
  | [] => none
  | e :: r =>
    match lowestCount r with
    | none => some e
    | some m => if fget REC_ENTRY.COUNT e.2 ≤ fget REC_ENTRY.COUNT m.2 then some e else some m

/-- The slot a new entry takes: a free one, else the COUNTING entry with the lowest COUNT (R253). -/
def State.recSlot (s : State) (b : Nat) : Option Nat :=
  match (s.recEntries b).find? fun e => !fset? REC_ENTRY.VALID e.2 with
  | some e => some e.1
  | none => (lowestCount ((s.recEntries b).filter fun e => fget REC_ENTRY.STATE e.2 == 0)).map (·.1)

/-- A hard error: counted, with its arrival, and its spare mapping due (R252, R260). -/
def State.hardError (s : State) (pl : Place) (loc : Nat) : State :=
  if s.hardWait.contains (pl.blk, loc) then s
  else
    let l := pl.log.log
    let s := ((s.satF (ERR_COUNT.adr l) ERR_COUNT.HARD 1).setF (ERR_STAT.adr l) ERR_STAT.HARD 1).pulse pl.hardEvent
    { s with hardWait := s.hardWait ++ [(pl.blk, loc)] }

/-- A correction acts on the recurrence entry of its word (R252). -/
def State.track (s : State) (pl : Place) (loc : Nat) (write : Bool) : State :=
  let b := pl.blk
  if s.retiredAt pl then s
  else
    match s.recFind b loc with
    | some (i, e) =>
      let n := fget REC_ENTRY.COUNT e + 1
      if fget REC_ENTRY.STATE e = 0 then
        (if write then s.wr (REC_ENTRY.adr b i) (recWord 1 0 loc)
         else s.wr (REC_ENTRY.adr b i) (recWord 0 n loc))
      else if fget REC_ENTRY.STATE e = 1 then
        let s := s.wr (REC_ENTRY.adr b i) (recWord 1 n loc)
        if s.fld (REC_CTL.adr b) REC_CTL.HARD_AFTER ≤ n then s.hardError pl loc else s
      else s
    | none =>
      match s.recSlot b with
      | none => s.satF (REC_CTL.adr b) REC_CTL.UNTRACKED 1
      | some i => s.wr (REC_ENTRY.adr b i) (if write then recWord 1 0 loc else recWord 0 1 loc)

/-- A read found class `x` in the stored word `d`, `c` at offset `o` of a place: a correction is counted, logged and
tracked, an uncorrectable error is counted and logged (R236, R252, R260). -/
def State.found (s : State) (pl : Place) (o : Nat) (x : Decoded) (d c : Nat) (write : Bool) : State :=
  if x.corrected then
    (s.logErr pl.log false (pl.errAddr o) (syndWord d c x)).track pl (pl.loc + o) write
  else if x.cls = .uncorrectable then s.logErr pl.log true (pl.errAddr o) (syndWord d c x)
  else s

/-! ## Words and lines as accesses see them -/

/-- Key of a segment line in `segLines`. -/
def lineKey (p g l : Nat) : Nat := (p * 16 + g) * 4096 + l

/-- The place is a segment line whose valid bit is 0 (R249). -/
def State.emptyLine (s : State) : Place → Bool
  | .seg p g l => !s.segLines.contains (lineKey p g l)
  | _ => false

/-- A read of word `i` of a line: its data and whether it is poisoned. -/
def State.readWord (s : State) (pl : Place) (i : Nat) : State × Nat × Bool :=
  if s.emptyLine pl then (s, 0, false)
  else if s.blockedUnit pl then (s.tick, (Config.freeWord s.freeTick).toNat % 2 ^ 32, true)
  else
    let (s1, d, c) := s.rawRead pl (s.storeAt pl + 4 * i)
    let x := eccDecode (s.lightAt pl) d c
    (s1.found pl (4 * i) x d c false, x.data, x.poisoned)

/-- Read `n` words from word `i` on. -/
def State.readWords (s : State) (pl : Place) (i : Nat) : Nat → State × List (Nat × Bool)
  | 0 => (s, [])
  | n + 1 =>
    let (s1, d, p) := s.readWord pl i
    let (s2, r) := s1.readWords pl (i + 1) n
    (s2, (d, p) :: r)

/-- A line takes its valid bit: every word zero and clean, without a read of the old contents (R249). -/
def State.openLine (s : State) (pl : Place) : State :=
  match pl with
  | .seg p g l =>
    if s.emptyLine pl then
      let k := s.storeAt pl
      let s := (numsFrom 0 16).foldl (fun s i => s.rawWrite pl (k + 4 * i) 0 0) s
      { s with segLines := nset s.segLines (lineKey p g l) }
    else s
  | _ => s

/-- The bytes of `new` over those of `old`, least significant first. -/
def mergeBytes : List (Option Byte) → Nat → Nat
  | [], _ => 0
  | b :: r, old => (match b with | some v => v.toNat | none => old % 256) + 256 * mergeBytes r (old / 256)

/-- A write of some or all bytes of word `i` of a line, poisoned or not (R248). -/
def State.writeWord (s : State) (pl : Place) (i : Nat) (bs : List (Option Byte)) (poison : Bool) : State :=
  if s.blockedUnit pl || bs.all (·.isNone) then s
  else
    let s := s.openLine pl
    let k := s.storeAt pl + 4 * i
    let light := s.lightAt pl
    if bs.all (·.isSome) then
      let d := mergeBytes bs 0
      s.rawWrite pl k d (eccEncode light poison d)
    else
      let (s, d, c) := s.rawRead pl k
      if light then
        let d' := mergeBytes bs d
        let keep := (numsFrom 0 4).map fun j =>
          if (bs.getD j none).isSome then nbit j (lightParity d') else nbit j c
        s.rawWrite pl k d' (packBits keep + (if poison then 0x70 else c / 16 * 16))
      else
        let x := secDecode d c
        let s := s.found pl (4 * i) x d c true
        let d' := mergeBytes bs x.data
        s.rawWrite pl k d' (eccEncode false (poison || x.poisoned) d')

/-- The bytes `bs` that fall on word `i` when written from offset `o` of the line. -/
def wordBytes (o i : Nat) (bs : List Byte) : List (Option Byte) :=
  (numsFrom (4 * i) 4).map fun j => if j < o then none else bs[j - o]?

/-- Words of a line that `n` bytes from offset `o` touch: the first and how many. -/
def touched (o n : Nat) : Nat × Nat := (o / 4, if n = 0 then 0 else (o + n - 1) / 4 - o / 4 + 1)

/-- Write bytes at offset `o` of a line; `pz` marks each touched word as poisoned or not. -/
def State.writeLine (s : State) (pl : Place) (o : Nat) (bs : List Byte) (pz : List Bool) : State :=
  let t := touched o bs.length
  (numsFrom 0 t.2).foldl (fun s j =>
    s.writeWord pl (t.1 + j) (wordBytes o (t.1 + j) bs) (pz.getD j false)) s

/-- Read `n` bytes at offset `o` of a line, with the poison of each touched word. -/
def State.readLine (s : State) (pl : Place) (o n : Nat) : State × List Byte × List Bool :=
  let t := touched o n
  let (s, ws) := s.readWords pl t.1 t.2
  (s, ((ws.map fun w => toBytes 4 w.1).flatten.drop (o % 4)).take n, ws.map (·.2))

/-- The bytes of a list of words with their poison, least significant byte first. -/
def wordsBytes (ws : List (Nat × Bool)) : List Byte × List Bool :=
  ((ws.map fun w => toBytes 4 w.1).flatten, ws.map (·.2))

end Sys2Proof.Machine
end

