-- ==== Sys2Proof/Machine/Memory.lean ====
section
/-!
DEFINITION. Local memory (spec/07): the gates on the way (R22, R423, R424), home slices and the home map (R212 to
R217), DRAM placement (R222), scratchpad (R208), the boot flash window (R444), service SRAM (R453), the marks that
mirroring takes of writes (R369, R376), and posted-store failures (R227).  An access here lies in one 64-byte line.
-/

namespace Sys2Proof.Machine

/-- How memory answers an access: performed; by a deckle gate (0x0A); no responder (0x0B); an error (0x0C); or held
where it is, to be asked again. -/
inductive Ans where
  | ok | off | noResp | error | held
deriving DecidableEq, Repr

/-! ## Gates -/

/-- A gate on the way of an access: the domain and how it stands. -/
abbrev Gates := List (Nat × Gate)

/-- Forget that an access is held. -/
def State.unhold (s : State) (who : Who) (write : Bool) (addr : Nat) : State :=
  { s with power := { s.power with held := s.power.held.filter fun h =>
      !(h.who == who && h.write == write && h.addr == addr) } }

/-- An access meets the gates on its way (R423, R424): none where all are open; answered where one is off, or where
it has been held for 50 µs; held where one is in transition. -/
def State.enter (s : State) (who : Who) (write : Bool) (addr : Nat) (gs : Gates) : State × Option Ans :=
  match gs.find? fun g => g.2 == .off with
  | some g => ((s.unhold who write addr).deckle who g.1, some .off)
  | none =>
    match gs.find? fun g => g.2 == .transition with
    | none => (s.unhold who write addr, none)
    | some g =>
      match s.power.held.find? fun h => h.who == who && h.write == write && h.addr == addr with
      | some h =>
        if h.expired then ((s.unhold who write addr).deckle who h.dom, some .off) else (s, some .held)
      | none =>
        let h : HeldAccess := { dom := g.1, who := who, write := write, addr := addr, expired := false }
        ({ s with power := { s.power with held := s.power.held ++ [h] } }, some .held)

/-- Domain `k` as a gate. -/
def State.gateOf (s : State) (k : Nat) : Nat × Gate := (k, s.gate k)

/-- The physical tile of a core of this device. -/
def State.whoTile (s : State) : Who → Option Nat
  | .core c => s.coreTile c
  | _ => none

/-- The die that traffic of die `x` for die `d` comes to next, over the bridge that FABRIC_ROUTE names (R20, R221); `d`
where it names none that die `x` has. -/
def State.nextDie (s : State) (x d : Nat) : Nat :=
  match nbits (2 * d + 1) (2 * d) (s.fld (FABRIC_ROUTE.adr x) FABRIC_ROUTE.DIR) with
  | 1 => if x % 4 = 0 then d else x - 1
  | 2 => if x % 4 = 3 then d else x + 1
  | 3 => (x + 4) % 8
  | _ => d

/-- The dies that traffic from die `x` to die `d` passes, both ends among them (R22); a cycle is left after 8 of them. -/
def State.diePath (s : State) : Nat → Nat → Nat → List Nat
  | 0, _, d => [d]
  | n + 1, x, d => if x = d then [d] else x :: s.diePath n (s.nextDie x d) d

/-- The die fabrics between tile `p` and die `d`: each bridge on the way answers for one that is off (R22). -/
def State.pathGates (s : State) (p d : Nat) : Gates := (s.diePath 8 (p / 17) d).map fun e => s.gateOf (136 + e)

/-- The die fabrics an access passes on its way to die `d`, or to tile `t` of it (R22). -/
def State.fabricGates (s : State) (who : Who) (d : Nat) (t : Option Nat) : Gates :=
  match s.whoTile who with
  | some p => if t = some p then [] else s.pathGates p d
  | none => [s.gateOf (136 + d)]

/-- No die fabric on the way from `who` to tile `p` stops an access (R22). -/
def State.wayOpen (s : State) (who : Who) (p : Nat) : Bool :=
  (s.fabricGates who (p / 17) (some p)).all fun g => g.2 == .opened

/-- The gate of the requester's own die fabric, which its accesses to what lies on no compute die pass (R22). -/
def State.ownGate (s : State) (who : Who) : Gates :=
  match s.whoTile who with
  | some p => [s.gateOf (136 + p / 17)]
  | none => []

/-- Memory controller `d`: its domain, and MC_STATE (R224). -/
def State.mcGates (s : State) (d : Nat) : Gates :=
  let st := s.fld (MC_STATE.adr d) MC_STATE.STATE
  [s.gateOf (144 + d), (144 + d, if st = 2 then .opened else if st = 1 || st = 3 then .transition else .off)]

/-- Controller `d` owes its part of a conversion of the granule of stack address `x` (R247). -/
def State.convOwes (s : State) (d x : Nat) : Bool :=
  match s.conv with
  | some c => c.owed.contains d && !c.done.contains d && granuleOf s.dramMode d x == c.g
  | none => false

/-- The gates of the line at stack address `x` of controller `d`: a controller that was off when a conversion started
walks its part before it serves the granule (R247). -/
def State.stackGates (s : State) (d x : Nat) : Gates :=
  s.mcGates d ++ if s.convOwes d x then [(144 + d, .transition)] else []

/-- Some valid home map entry names segment `g` of the logical tile that physical tile `p` serves. -/
def State.homeNamed (s : State) (p g : Nat) : Bool :=
  match s.logTile p with
  | none => false
  | some t => (s.listed (HOME_MAP.adr 0) (HOME_MAP.adr 1024)).any fun r =>
      fset? HOME_MAP.VALID r.2 && fget HOME_MAP.LTILE r.2 == t && fget HOME_MAP.SEG r.2 == g

/-- SEG_CTL.MODE of a segment. -/
def State.segMode (s : State) (p g : Nat) : Nat := s.fld (SEG_CTL.adr p g) SEG_CTL.MODE

/-- The device is in DORMANT, on its way out, or past B1 on the way there: AWAKE segments follow RETAIN (R420). -/
def State.awakeEnds (s : State) : Bool :=
  let st := s.fld PWR_DEV_STAT.adr PWR_DEV_STAT.STATE
  st == 2 || st == 4 || (st == 3 && s.power.devDorm && 1 ≤ s.fld PWR_DEV_STAT.adr PWR_DEV_STAT.POINT)

/-- A segment stays AWAKE in NAP (R410, R420). -/
def State.segAwake (s : State) (p g : Nat) : Bool :=
  !s.awakeEnds && (nbits (2 * g + 1) (2 * g) (s.fld (TILE_RET.adr p) TILE_RET.POL) == 2 || (s.segMode p g == 0 && s.homeNamed p g))

/-- An access to what a napping tile keeps wakes it (R411). -/
def State.accessWake (s : State) (p : Nat) : State := if s.tileAsleep p then s.wakeTile p 2 0 else s

/-- An access of `who` to segment `g` of tile `p`: the fabrics on the way, then the tile's gate, with the wake of R411
once it has come there. -/
def State.segGates (s : State) (who : Who) (p g : Nat) : State × Gates :=
  let way := s.fabricGates who (p / 17) (some p)
  if s.dom p = 2 && s.segAwake p g then (s, way)
  else
    let t := if s.segAwake p g || !s.wayOpen who p then s else s.accessWake p
    (t, way ++ [t.gateOf p])

/-! ## Placement (R212, R222) -/

/-- The home index of a local DRAM address (R212). -/
def homeIndex (a : Nat) : Nat := nbits 15 6 a ^^^ nbits 25 16 a ^^^ nbits 35 26 a ^^^ nbits 39 36 a

/-- The stack and stack address of a local DRAM address (R222). -/
def dramPlace (mode a : Nat) : Nat × Nat :=
  let mix := nbits 14 12 a ^^^ nbits 23 21 a ^^^ nbits 32 30 a
  if mode = 0 then (mix, a / 2 ^ 15 * 2 ^ 12 + a % 2 ^ 12)
  else if mode = 1 then (nbits 38 36 a, a % 2 ^ 36)
  else if nbit 38 a then (nbits 37 35 a, 2 ^ 35 + a % 2 ^ 35)
  else (mix, nbits 37 15 a * 2 ^ 12 + a % 2 ^ 12)

/-- The place in DRAM of the line of address `a`. -/
def State.dramLine (s : State) (a : Nat) : Nat × Nat := dramPlace s.dramMode (a / 64 * 64)

/-! ## Home slices (R213, R216) -/

/-- The tag of the line of address `a` in a slice. -/
def State.slotOf (s : State) (p g a : Nat) : Option CacheTag :=
  s.tags.find? fun t => t.seg == p * 16 + g && t.line == a / 64

/-- Write one line's words to DRAM, whole words with their poison; a walk of the code map or the couch marks are not
concerned (R247, R370). -/
def State.writeWords (s : State) (pl : Place) (ws : List (Nat × Bool)) : State :=
  (ws.zip (numsFrom 0 ws.length)).foldl (fun s w =>
    s.writeWord pl w.2 ((toBytes 4 w.1.1).map some) w.1.2) s

/-- A slice writes a changed line back to DRAM (R213); a controller in OFF or FAILED loses it (R227). Not done yet
(false) where the controller holds the write. -/
def State.writeBack (s : State) (t : CacheTag) : State × Bool :=
  let pl := Place.seg (t.seg / 16) (t.seg % 16) t.slot
  let (d, x) := s.dramLine (t.line * 64)
  match s.enter .engine true (t.line * 64) (s.pathGates (t.seg / 16) d ++ s.stackGates d x) with
  | (s, none) =>
    let (s, ws) := s.readWords pl 0 16
    (s.writeWords (.dram d x) ws, true)
  | (s, some .off) =>
    let syn := fput ERR_SYND.CLASS 3 (Config.freeWord s.freeTick &&& 0xE07F007FFFFFFFFF#64)
    (s.tick.logErr (mcLog d) true (errAddr 6 0 x) syn, true)
  | (s, some _) => (s, false)

/-- A line leaves its slice. -/
def State.dropTag (s : State) (t : CacheTag) : State :=
  { s with tags := s.tags.filter (fun u => !(u.seg == t.seg && u.slot == t.slot)),
           segLines := s.segLines.filter (· ≠ lineKey (t.seg / 16) (t.seg % 16) t.slot) }

/-- A home slice evicts the line in a slot (R213): written to DRAM where a store has changed it, then dropped. -/
def State.evict (s : State) (t : CacheTag) : State × Bool :=
  if t.dirty then
    match s.writeBack t with
    | (s, true) => (s.dropTag t, true)
    | (s, false) => (s, false)
  else (s.dropTag t, true)

/-- The first slot of a segment that holds no line (assumption log entry 7). -/
def State.freeSlot (s : State) (p g : Nat) : Option Nat :=
  let used := (s.tags.filter fun t => t.seg == p * 16 + g).map (·.slot)
  if used.length ≥ 4096 then none
  else (numsFrom 0 (used.length + 1)).find? fun i => !used.contains i

/-- Make room in a slice: a free slot, else the slot of a line evicted, which is a free value (R213 names no victim). -/
def State.takeSlot (s : State) (p g : Nat) : State × Option Nat :=
  match s.freeSlot p g with
  | some i => (s, some i)
  | none =>
    let v := (Config.freeWord s.freeTick).toNat % 4096
    let s := s.tick
    match s.tags.find? fun t => t.seg == p * 16 + g && t.slot == v with
    | none => (s, some v)
    | some t =>
      match s.evict t with
      | (s, true) => (s, some v)
      | (s, false) => (s, none)

/-- Where an access to a DRAM line is performed. -/
inductive Point where
  | slice (t : CacheTag) (moving : Bool)      -- at the slice, which holds the line
  | stack (d x : Nat)                         -- at the memory controller
deriving DecidableEq, Repr

/-- Reach the memory controller of a line, from the requester or from the home slice in tile `src`. -/
def State.reachStack (s : State) (who : Who) (write : Bool) (a : Nat) (src : Option Nat) : State × (Ans ⊕ Point) :=
  let (d, x) := s.dramLine a
  let gs := match src with
    | some p => s.pathGates p d
    | none => s.fabricGates who d none
  match s.enter who write a (gs ++ s.stackGates d x) with
  | (s, some r) => (s, .inl r)
  | (s, none) => (s, .inr (.stack d x))

/-- Bring the line of `a` into the slice (R213): its words, with their poison, in the segment's code. -/
def State.allocate (s : State) (who : Who) (write : Bool) (a p g : Nat) : State × (Ans ⊕ Point) :=
  match s.reachStack who write a (some p) with
  | (s, .inr (.stack d x)) =>
    (match s.takeSlot p g with
     | (s, none) => (s, .inl .held)
     | (s, some i) =>
       let (s, ws) := s.readWords (.dram d x) 0 16
       let s := s.writeWords (.seg p g i) ws
       let t : CacheTag := { seg := p * 16 + g, slot := i, line := a / 64, dirty := false }
       ({ s with tags := s.tags ++ [t] }, .inr (.slice t false)))
  | r => r

/-- The point of order of an access to local DRAM address `a` (R213, R216): the home slice, which allocates where
`alloc` says so and the entry is not moving, or the memory controller. -/
def State.reach (s : State) (who : Who) (write alloc : Bool) (a : Nat) : State × (Ans ⊕ Point) :=
  let e := s.rd (HOME_MAP.adr (homeIndex a))
  if !fset? HOME_MAP.VALID e then s.reachStack who write a none
  else
    let g := fget HOME_MAP.SEG e
    match s.physTile (fget HOME_MAP.LTILE e) with
    | none => (s, .inl .noResp)
    | some p =>
      let (s, gs) := s.segGates who p g
      match s.enter who write a gs with
      | (s, some r) => (s, .inl r)
      | (s, none) =>
        let mv := fset? HOME_MAP.MOVING e
        match s.slotOf p g a with
        | some t => (s, .inr (.slice t mv))
        | none =>
          if alloc && !mv && s.segMode p g = 0 then s.allocate who write a p g
          else s.reachStack who write a (some p)

/-- The place of a point of order. -/
def Point.place : Point → Place
  | .slice t _ => .seg (t.seg / 16) (t.seg % 16) t.slot
  | .stack d x => .dram d x

/-! ## Mirroring's marks (R368, R369, R376) -/

/-- Granule `g` lies in a valid extent. -/
def State.mirrored (s : State) (g : Nat) : Bool :=
  (s.listed (CE_EXT_SRC.adr 0) (CE_EXT_SRC.adr 256)).any fun r =>
    (r.1 - CE_EXT_SRC.adr 0) % 16 == 0 && fset? CE_EXT_SRC.VALID r.2 && fget CE_EXT_SRC.BASE r.2 ≤ g
      && g < fget CE_EXT_SRC.BASE r.2 + fget CE_EXT_SRC.GRANULES r.2

/-- The granules of the dirty bitmap, rising: each bit is the OR over the eight trackers. -/
def CouchSt.dirty (c : CouchSt) : List Nat := c.marks.map fun m => m.1

/-- Granule `g` is marked in the trackers `ds`. -/
def CouchSt.mark (c : CouchSt) (ds g : Nat) : CouchSt := { c with marks := c.marks.put 0 g (c.marks.get 0 g ||| ds) }

/-- The tracker of memory subsystem `d` loses its marks (R367). -/
def CouchSt.loseTracker (c : CouchSt) (d : Nat) : CouchSt :=
  { c with marks := (c.marks.map fun m => (m.1, if nbit d m.2 then m.2 - 2 ^ d else m.2)).filter fun m => m.2 ≠ 0 }

/-- The trackers of memory subsystems `ds` that are on. -/
def State.trackers (s : State) (ds : List Nat) : Nat :=
  ds.foldl (fun b d => if s.isOn (144 + d) then b + 2 ^ d else b) 0

/-- A write performed at `a` marks its granule dirty where it lies in a valid extent, in the tracker of the stack the
line lies in (R367, R369; DEDUCED, assumption log entry 39). -/
def State.mirrorMark (s : State) (a : Nat) : State :=
  if s.mirrored (a / 65536) then { s with couch := s.couch.mark (s.trackers [(s.dramLine a).1]) (a / 65536) } else s

/-- The lowest pre-image slot that no granule uses or is to take (R376). -/
def State.freePre (s : State) : Option Nat :=
  (numsFrom 0 (s.couch.busy.length + s.couch.waiting.length + 1)).find? fun k =>
    k < s.fld CE_PRE.adr CE_PRE.SLOTS && !(s.couch.busy.any fun b => b.1 == k)
      && !(s.couch.waiting.any fun w => w.2 == some k)

/-- A write reaches its point of order for a PENDING granule and is held there (R376): the granule waits for its copy
into the slot that was free when the first such write came; with none, PRE_FULL is set and PRE_WAITS counts each
write once. -/
def State.mirrorHold (s : State) (who : Who) (a : Nat) : State × Bool :=
  let g := a / 65536
  let c := s.couch
  if !c.pend.contains g then (s, false)
  else
    let slot := match c.waiting.find? fun w => w.1 == g with
      | some w => w.2
      | none => s.freePre
    let c := if c.waiting.any fun w => w.1 == g then c else { c with waiting := c.waiting ++ [(g, slot)] }
    if slot.isSome || c.counted.contains (who, a) then ({ s with couch := c }, true)
    else
      let s := { s with couch := { c with counted := c.counted ++ [(who, a)] } }
      (((s.setF CE_EVT.adr CE_EVT.PRE_FULL 1).satF CE_CNT.adr CE_CNT.PRE_WAITS 1).event 7188, true)

/-! ## DRAM -/

/-- What memory returns: the state, the answer, and for a read the bytes with the poison of each touched word. -/
structure MemRes where
  st : State
  ans : Ans
  bytes : List Byte
  poison : List Bool
deriving DecidableEq, Repr

/-- An answer without data. -/
def MemRes.of (s : State) (a : Ans) : MemRes := ⟨s, a, [], []⟩

/-- A read of `n` bytes of local DRAM at `a`. -/
def State.dramRead (s : State) (who : Who) (alloc : Bool) (a n : Nat) : MemRes :=
  match s.reach who false alloc a with
  | (s, .inl r) => .of s r
  | (s, .inr pt) =>
    let (s, bs, pz) := s.readLine pt.place (a % 64) n
    ⟨s, .ok, bs, pz⟩

/-- The way of the DRAM copy that a store to a line of a moving entry takes too (R216 step 2): none where no copy is
due or the way is open. -/
def State.copyWay (s : State) (pt : Point) (a : Nat) : State × Option Ans :=
  match pt with
  | .slice t true =>
    let (d, x) := s.dramLine a
    s.enter .engine true a (s.pathGates (t.seg / 16) d ++ s.stackGates d x)
  | _ => (s, none)

/-- Store bytes at a point of order; `copy` writes those of a moving entry's line to DRAM as well (R216 step 2). -/
def State.writeAt (s : State) (pt : Point) (copy : Bool) (a : Nat) (bs : List Byte) (pz : List Bool) : State :=
  let s := s.writeLine pt.place (a % 64) bs pz
  match pt with
  | .stack _ _ => s
  | .slice t mv =>
    let s := { s with tags := s.tags.map fun u => if u.seg == t.seg && u.slot == t.slot then { u with dirty := true } else u }
    if mv && copy then
      let (d, x) := s.dramLine a
      s.writeLine (.dram d x) (a % 64) bs pz
    else s

/-- A write to local DRAM at `a`, marked for mirroring unless `quiet` (R369, R370). It is held where a moving entry's
copy to DRAM is held; a copy that the controller cannot take is made when the line leaves the slice. -/
def State.dramWrite (s : State) (who : Who) (alloc quiet : Bool) (a : Nat) (bs : List Byte) (pz : List Bool) : MemRes :=
  let (s, held) := if quiet then (s, false) else s.mirrorHold who a
  if held then .of s .held
  else
    match s.reach who true alloc a with
    | (s, .inl r) => .of s r
    | (s, .inr pt) =>
      match s.copyWay pt a with
      | (s, some .held) => .of s .held
      | (s, r) =>
        let s := s.writeAt pt r.isNone a bs pz
        .of (if quiet then s else s.mirrorMark a) .ok

/-! ## Scratchpad (R194, R208) -/

/-- The segment and line of scratchpad offset `o` (from 0x80_0000_0000), none where the logical tile is absent. -/
def State.scratchAt (s : State) (o : Nat) : Option (Nat × Nat × Nat) :=
  (s.physTile (o / 2 ^ 22)).map fun p => (p, o / 2 ^ 18 % 16, o / 64 % 4096)

/-- Reach a scratchpad line: answered without a responder where the tile is absent or the segment is not in SCRATCH
mode. -/
def State.reachScratch (s : State) (who : Who) (write : Bool) (a : Nat) : State × (Ans ⊕ Place) :=
  match s.scratchAt (a - 2 ^ 39) with
  | none => (s, .inl .noResp)
  | some (p, g, l) =>
    let (s, gs) := s.segGates who p g
    match s.enter who write a gs with
    | (s, some r) => (s, .inl r)
    | (s, none) => if s.segMode p g = 1 then (s, .inr (.seg p g l)) else (s, .inl .noResp)

/-! ## Boot flash and service SRAM (R444, R453, R454) -/

/-- A byte of boot flash. -/
def State.flashByte (s : State) (o : Nat) : Byte := s.flash.get 0xFF o

/-- Where byte `b` of flash device `dev` is held. -/
def flashKey (dev b : Nat) : Nat := dev * 2 ^ 32 + b

/-- Flash device `dev` holds the `n` bytes from `b` on. -/
def State.flashHas (s : State) (dev b n : Nat) : Bool := b + n ≤ if dev = 0 then s.flashCap.1 else s.flashCap.2

/-- A read of the boot flash window: held while a program or erase runs on the device, no responder beyond its
capacity. -/
def State.flashRead (s : State) (who : Who) (a n : Nat) : MemRes :=
  let o := a - 0xE000000000
  let busy := s.has XSPI_CMD.adr XSPI_CMD.GO && s.fld XSPI_CMD.adr XSPI_CMD.OP ≠ 1
    && s.fld XSPI_CMD.adr XSPI_CMD.DEV = o / 2 ^ 31
  match s.enter who false a (s.ownGate who ++ [s.gateOf 301]) with
  | (s, some r) => .of s r
  | (s, none) =>
    if !s.flashHas (o / 2 ^ 31) (o % 2 ^ 31) n then .of s .noResp
    else if busy then .of s .held
    else ⟨s, .ok, (numsFrom (flashKey (o / 2 ^ 31) (o % 2 ^ 31)) n).map s.flashByte, []⟩

/-- Whether a requester reaches the service cores' own regions. -/
def svcWho : Who → Bool
  | .svc _ => true
  | .engine => true
  | _ => false

/-- Bit of SVC_XMAP for the page of service SRAM offset `o`. -/
def State.svcPageX (s : State) (o : Nat) : Bool :=
  nbit (o / 65536 % 64) (s.rd (if o / 65536 < 64 then SVC_XMAP_0.adr else SVC_XMAP_1.adr)).toNat

/-- A write to service SRAM: discarded with XWRITE on an executable page (R454). -/
def State.sramWrite (s : State) (o : Nat) (bs : List Byte) (pz : List Bool) : State :=
  if s.svcPageX o then s.setF SVC_STAT.adr SVC_STAT.XWRITE 1
  else s.writeLine (.svc (o / 64 * 64)) (o % 64) bs pz

/-- A read of service SRAM. -/
def State.sramRead (s : State) (o n : Nat) : State × List Byte × List Bool :=
  s.readLine (.svc (o / 64 * 64)) (o % 64) n

/-! ## Any local memory address -/

/-- The regions of R194 and R453 that are memory. -/
inductive Region where
  | dram | scratch | queue | ctrl | flash | sram | rom | none
deriving DecidableEq, Repr

/-- The region of a local address for a requester. -/
def regionOf (who : Who) (a : Nat) : Region :=
  if a < 2 ^ 39 then .dram
  else if a < 0x8020000000 then .scratch
  else if 0xA000000000 ≤ a && a < 0xA000800000 then .queue
  else if 0xC000000000 ≤ a && a < 0xE000000000 then .ctrl
  else if 0xE000000000 ≤ a && a < 0xE100000000 then .flash
  else if svcWho who && 0xF000000000 ≤ a && a < 0xF000800000 then .sram
  else if svcWho who && 0xF100000000 ≤ a && a < 0xF100040000 then .rom
  else .none

/-- A read of local memory: DRAM, scratchpad, boot flash, and for a service core its SRAM and ROM. -/
def State.memRead (s : State) (who : Who) (alloc : Bool) (a n : Nat) : MemRes :=
  match regionOf who a with
  | .dram => s.dramRead who alloc a n
  | .scratch =>
    (match s.reachScratch who false a with
     | (s, .inl r) => .of s r
     | (s, .inr pl) =>
       let (s, bs, pz) := s.readLine pl (a % 64) n
       ⟨s, .ok, bs, pz⟩)
  | .flash => s.flashRead who a n
  | .sram =>
    let (s, bs, pz) := s.sramRead (a - 0xF000000000) n
    ⟨s, .ok, bs, pz⟩
  | .rom => ⟨s, .ok, (numsFrom (a - 0xF100000000) n).map Config.bootRom, []⟩
  | _ => .of s .noResp

/-- A write to local memory. A store to the boot flash window that its gates let through is not performed, and counted
(R22, R444). -/
def State.memWrite (s : State) (who : Who) (alloc : Bool) (a : Nat) (bs : List Byte) (pz : List Bool) : MemRes :=
  match regionOf who a with
  | .dram => s.dramWrite who alloc false a bs pz
  | .scratch =>
    (match s.reachScratch who true a with
     | (s, .inl r) => .of s r
     | (s, .inr pl) => .of (s.writeLine pl (a % 64) bs pz) .ok)
  | .flash =>
    (match s.enter who true a (s.ownGate who ++ [s.gateOf 301]) with
     | (s, some r) => .of s r
     | (s, none) => .of (s.satF XSPI_STAT.adr XSPI_STAT.WIN_WRITES 1) .error)
  | .sram => .of (s.sramWrite (a - 0xF000000000) bs pz) .ok
  | _ => .of s .noResp

/-- What an atomic stores: its new value and poison, none where it stores nothing (R111, R113). -/
def Amo.new (o : Amo) (old b cmp : PW) : Option PW :=
  match o with
  | .add => some ⟨old.val + b.val, old.poison || b.poison⟩
  | .swap => some ⟨b.val, b.poison⟩
  | .cas => if old.poison || cmp.poison || old.val ≠ cmp.val then none else some ⟨b.val, b.poison⟩

/-- An atomic on the 8 bytes at `a` (R112 to R114): read and write at its point of order in one step. The old value
with its poison is returned. One that misses brings its line into the home slice, under any ETLB attribute: R112 and
R213 leave that open (assumption log entry 70). -/
def State.memAmo (s : State) (who : Who) (o : Amo) (a : Nat) (b cmp : PW) : State × Ans × PW :=
  let rg := regionOf who a
  if rg ≠ .dram && rg ≠ .scratch && rg ≠ .sram then (s, .noResp, ⟨0, false⟩)
  else
    let r := s.memRead who true a 8
    match r.ans with
    | .ok =>
      let old : PW := ⟨BitVec.ofNat 64 (ofBytes r.bytes), r.poison.any id⟩
      (match o.new old b cmp with
       | none => (r.st, .ok, old)
       | some v =>
         let h := if rg = .dram then s.mirrorHold who a else (s, false)
         if h.2 then (h.1, .held, ⟨0, false⟩)
         else
           let w := r.st.memWrite who true a (toBytes 8 v.val.toNat) [v.poison, v.poison]
           (w.st, w.ans, old))
    | e => (r.st, e, ⟨0, false⟩)

/-! ## Posted-store failures (R227) -/

/-- Where core `c` keeps PSTORE_ERR, if its tile is present. -/
def State.pstoreAdr (s : State) (c : Nat) : Option Nat :=
  (s.coreTile c).map fun p => PSTORE_ERR.adr p (c % 16)

/-- A posted store of core `c` at `a` failed with `code`: recorded, or counted in LOST while one is pending or the core
is being reset (R469). -/
def State.pstoreFail (s : State) (c a code : Nat) : State :=
  match s.pstoreAdr c with
  | some r =>
    if s.fld r PSTORE_ERR.CODE = 0 && (s.core c).running then
      (s.setF r PSTORE_ERR.CODE code).updCore c fun k => { k with pstoreAddr := BitVec.ofNat 64 a }
    else s.satF r PSTORE_ERR.LOST 1
  | none =>
    if (s.core c).pstoreCode = 0 then
      s.updCore c fun k => { k with pstoreCode := code, pstoreAddr := BitVec.ofNat 64 a }
    else s

/-- The pending code of core `c` (0 none). -/
def State.pstoreCode (s : State) (c : Nat) : Nat :=
  match s.pstoreAdr c with
  | some r => s.fld r PSTORE_ERR.CODE
  | none => (s.core c).pstoreCode

/-- The pending code returns to 0. -/
def State.pstoreClear (s : State) (c : Nat) : State :=
  match s.pstoreAdr c with
  | some r => s.setF r PSTORE_ERR.CODE 0
  | none => s.updCore c fun k => { k with pstoreCode := 0 }

/-- The code a failed answer gives (R226, R227, R343). -/
def Ans.code : Ans → Nat
  | .off => 0x0A
  | .noResp => 0x0B
  | _ => 0x0C

end Sys2Proof.Machine
end

