-- ==== Sys2Proof/Machine/Repair.lean ====
section
/-!
DEFINITION. Segments, re-homing, memory controllers (spec/07, R209, R210, R216, R224, R407) and repair: code
changes, conversions, the fill, spares, the recurrence table's upkeep, the beater, diagnostics (spec/08, R246 to R259).
-/

namespace Sys2Proof.Machine

/-! ## Reaching a unit -/

/-- Do `f` at tile `p` as an access to its control block would: a napping tile is woken, and nothing is done unless
the tile is in RUN (R411, R423, R424). -/
def State.atTile (s : State) (p : Nat) (f : State → State) : State :=
  let s := s.accessWake p
  if s.isOn p then f s else s

/-- The block, domain and repair places of a unit. -/
def unitBlk : RUnit → Nat
  | .tile p => tileBlk p
  | .mc d => mcBlk d

/-- Do `f`, which hardware starts by itself, where the unit's domain is on: it wakes no tile (R411). -/
def State.onUnit (s : State) (u : RUnit) (f : State → State) : State :=
  match u with
  | .tile p => if s.isOn p then f s else s
  | .mc d => if s.isOn (144 + d) then f s else s

/-- Do `f` where the unit's domain is on. -/
def State.atUnit (s : State) (u : RUnit) (f : State → State) : State :=
  match u with
  | .tile p => s.atTile p f
  | .mc d => if s.isOn (144 + d) then f s else s

/-- The place of the word at a unit's LOC, and the word's number in its line. -/
def unitPlace (u : RUnit) (loc : Nat) : Place :=
  match u with
  | .tile p => .seg p (loc / 0x40000 % 16) (loc / 64 % 4096)
  | .mc d => .dram d (loc % 2 ^ 36 / 64 * 64)

/-- Number of the word in its line. -/
def wordNo (loc : Nat) : Nat := loc / 4 % 16

/-! ## Segment mode and erasure (R209, R210, R246) -/

/-- Every valid bit of a segment is cleared and every cached line dropped. -/
def State.eraseSeg (s : State) (p g : Nat) : State :=
  { s with segLines := s.segLines.filter (fun k => k / 4096 ≠ p * 16 + g),
           tags := s.tags.filter (fun t => t.seg ≠ p * 16 + g) }

/-- A MODE write (R209): refused where the segment is a home slice in use; an accepted change erases; 3 leaves MODE. -/
def State.setSegMode (s : State) (p g mode : Nat) : State :=
  let old := s.segMode p g
  let r := SEG_CTL.adr p g
  if mode = 3 || mode = old then s.setF r SEG_CTL.REFUSED 0
  else if old = 0 && s.homeNamed p g then s.setF r SEG_CTL.REFUSED 1
  else ((s.eraseSeg p g).setF r SEG_CTL.MODE mode).setF r SEG_CTL.REFUSED 0

/-- A write of 1 to ERASE (R210). -/
def State.segErase (s : State) (p g : Nat) : State := (s.eraseSeg p g).setF (SEG_CTL.adr p g) SEG_CTL.REFUSED 0

/-- A write of SEG_CTL as a whole: MODE is judged first; a refused write changes nothing. -/
def State.writeSegCtl (s : State) (p g : Nat) (v : Word) : State :=
  let s := s.setSegMode p g (fget SEG_CTL.MODE v)
  if fset? SEG_CTL.ERASE v && !s.has (SEG_CTL.adr p g) SEG_CTL.REFUSED then s.segErase p g else s

/-- A write of SEG_REPAIR.LIGHT (R246): each changed bit is refused where its segment is a home slice in use, and
otherwise erases the segment. -/
def State.setSegCodes (s : State) (p light : Nat) : State :=
  let r := SEG_REPAIR.adr p
  let old := s.fld r SEG_REPAIR.LIGHT
  let changed := (numsFrom 0 16).filter fun g => nbit g old != nbit g light
  let bad := changed.filter fun g => s.segMode p g == 0 && s.homeNamed p g
  let good := changed.filter fun g => !bad.contains g
  let s := good.foldl (fun s g => s.eraseSeg p g) s
  let now := (numsFrom 0 16).map fun g => if good.contains g then nbit g light else nbit g old
  (s.setF r SEG_REPAIR.LIGHT (packBits now)).setF r SEG_REPAIR.REFUSED (b2n !bad.isEmpty)

/-! ## Re-homing (R216) -/

/-- A write of REHOME: ignored whole while START reads 1; a start is refused, with nothing else changed, or marks the
entry moving. -/
def State.startRehome (s : State) (v : Word) : State :=
  if s.has REHOME.adr REHOME.START then s
  else
    let t := s.wr REHOME.adr (v &&& (fmask REHOME.ENTRY ||| fmask REHOME.SEG ||| fmask REHOME.LTILE ||| fmask REHOME.VALID))
    if !fset? REHOME.START v then t
    else
      let badSeg := match s.physTile (fget REHOME.LTILE v) with
        | none => true
        | some p => s.segMode p (fget REHOME.SEG v) != 0
      if !s.has HOME_CTL.adr HOME_CTL.LOCKED || (fset? REHOME.VALID v && badSeg) then s.setF HOME_CTL.adr HOME_CTL.REFUSED 1
      else
        ((t.setF HOME_CTL.adr HOME_CTL.REFUSED 0).setF REHOME.adr REHOME.START 1).setF
          (HOME_MAP.adr (fget REHOME.ENTRY v)) HOME_MAP.MOVING 1

/-- Evict each of the listed lines that can be evicted now. -/
def State.evictAll (s : State) : List CacheTag → State
  | [] => s
  | t :: r => (s.evict t).1.evictAll r

/-- Lines of home map entry `e` that slices hold. -/
def State.linesOf (s : State) (e : Nat) : List CacheTag := s.tags.filter fun t => homeIndex (t.line * 64) == e

/-- The old slice's walk and the switch of all replicas (R216 steps 3 to 5); where a controller still holds a line's
write, the walk waits. -/
def State.switchHome (s : State) : State :=
  if !s.has REHOME.adr REHOME.START then s
  else
    let e := s.fld REHOME.adr REHOME.ENTRY
    let s := s.evictAll (s.linesOf e)
    if !(s.linesOf e).isEmpty then s
    else
      let w := BitVec.ofNat 64 (s.fld REHOME.adr REHOME.SEG * 2 ^ 16 + s.fld REHOME.adr REHOME.LTILE * 2 ^ 8
        + s.fld REHOME.adr REHOME.VALID)
      ((s.wr (HOME_MAP.adr e) w).setF REHOME.adr REHOME.START 0).incF HOME_CTL.adr HOME_CTL.REHOMES 1

/-- A home slice evicts the line in a slot (R213). -/
def State.evictSlot (s : State) (p g slot : Nat) : State :=
  match s.tags.find? fun t => t.seg == p * 16 + g && t.slot == slot with
  | none => s
  | some t => (s.evict t).1

/-! ## Memory controllers (R224, R407) -/

/-- MC_STATE of controller `d`. -/
def State.mcState (s : State) (d : Nat) : Nat := s.fld (MC_STATE.adr d) MC_STATE.STATE

/-- A full training ends in READY or FAILED. -/
def State.trainingDone (s : State) (d : Nat) (ok : Bool) : State :=
  if s.isOn (144 + d) && s.mcState d = 1 then s.setF (MC_STATE.adr d) MC_STATE.STATE (if ok then 2 else 4) else s

/-- A memory level change: the accesses in flight have completed, the controller retrains from its stored settings and
runs at DOM_CTL.LEVEL. -/
def State.memLevel (s : State) (d : Nat) : State :=
  if s.isOn (144 + d) && s.mcState d = 2 then
    s.setF (DOM_STAT.adr (144 + d)) DOM_STAT.LEVEL_NOW
      (if s.power.devHold then 0 else s.fld (DOM_CTL.adr (144 + d)) DOM_CTL.LEVEL)
  else s

/-- IDLE_LIMIT µs without an access; an IDLE_LIMIT of 0 disables the entry. -/
def State.selfRefresh (s : State) (d : Nat) : State :=
  if s.isOn (144 + d) && s.mcState d = 2 && s.has (DOM_CTL.adr (144 + d)) DOM_CTL.IDLE_LIMIT then
    s.setF (MC_STATE.adr d) MC_STATE.STATE 3
  else s

/-- An access is held at controller `d`. -/
def State.heldAt (s : State) (k : Nat) : Bool := s.power.held.any fun h => h.dom == k

/-- The controller leaves self-refresh for the access it holds. -/
def State.selfRefreshEnd (s : State) (d : Nat) : State :=
  if s.mcState d = 3 && s.heldAt (144 + d) then s.setF (MC_STATE.adr d) MC_STATE.STATE 2 else s

/-! ## The code map of DRAM (R247) -/

/-- A write of DRAM_CODE_g.LIGHT: a change starts a conversion, or is refused while one runs. -/
def State.convert (s : State) (g : Nat) (light : Bool) : State :=
  let r := DRAM_CODE.adr g
  if 512 ≤ g || s.has r DRAM_CODE.LIGHT == light then s
  else if s.conv.isSome then s.setF r DRAM_CODE.REFUSED 1
  else
    { ((s.setF r DRAM_CODE.LIGHT (b2n light)).setF r DRAM_CODE.REFUSED 0).setF r DRAM_CODE.CONVERTING 1 with
      conv := some { g := g, pos := [], done := [], owed := (numsFrom 0 8).filter fun d => s.dom (144 + d) != 1 } }

/-- Rewrite words `i` to `i + n - 1` of a line from code `old` to code `new`. -/
def State.recode (s : State) (pl : Place) (old new : Bool) (i : Nat) : Nat → State
  | 0 => s
  | n + 1 =>
    let k := s.storeAt pl + 4 * i
    let (s, d, c) := s.rawRead pl k
    let x := eccDecode old d c
    let s := s.found pl (4 * i) x d c true
    (s.rawWrite pl k x.data (eccEncode new x.poisoned x.data)).recode pl old new (i + 1) n

/-- Controller `d` converts the next line of its walk. -/
def State.convertLine (s : State) (d : Nat) : State :=
  match s.conv with
  | none => s
  | some c =>
    let x := s.convPos c d
    if c.done.contains d || (granuleRange s.dramMode d c.g).2 ≤ x || !s.isOn (144 + d) || s.mcState d ≠ 2 then s
    else
      let new := s.has (DRAM_CODE.adr c.g) DRAM_CODE.LIGHT
      let s := if s.blockedUnit (.dram d x) then s else s.recode (.dram d x) (!new) new 0 16
      { s with conv := some { c with pos := c.pos.put (granuleRange s.dramMode d c.g).1 d (x + 64) } }

/-- Controller `d` has walked its part: its event, and the end of the conversion with the last part. -/
def State.convertDone (s : State) (d : Nat) : State :=
  match s.conv with
  | none => s
  | some c =>
    if 8 ≤ d || c.done.contains d || s.convPos c d < (granuleRange s.dramMode d c.g).2 then s
    else
      let s := s.pulse (6982 + 8 * d)
      let c' := { c with done := nset c.done d }
      if c'.done.length = 8 then { s.setF (DRAM_CODE.adr c.g) DRAM_CODE.CONVERTING 0 with conv := none }
      else { s with conv := some c' }

/-! ## The fill (R251) -/

/-- A write of 1 to FILL_CTL.GO; ignored while GO reads 1. -/
def State.startFill (s : State) (d : Nat) : State :=
  if s.has (FILL_CTL.adr d) FILL_CTL.GO then s
  else (s.setF (FILL_CTL.adr d) FILL_CTL.GO 1).setF (FILL_CTL.adr d) FILL_CTL.DONE 0

/-- The words of a line of the fill: FILL_PATTERN, little-endian. -/
def fillWords (v : Word) (poison : Bool) : List (Nat × Bool) :=
  (List.replicate 8 [(v.toNat % 2 ^ 32, poison), (v.toNat / 2 ^ 32, poison)]).flatten

/-- The fill completes: the pattern stands in every line from FILL_START to FILL_END, DONE is set with its event. -/
def State.endFill (s : State) (d : Nat) : State :=
  let r := FILL_CTL.adr d
  if !s.has r FILL_CTL.GO || !s.isOn (144 + d) || s.mcState d ≠ 2 then s
  else
    let lo := s.fld (FILL_START.adr d) FILL_START.BLOCK
    let hi := s.fld (FILL_END.adr d) FILL_END.BLOCK
    let ws := fillWords (s.rd (FILL_PATTERN.adr d)) (s.has r FILL_CTL.POISON)
    let s := (numsFrom (16 * lo) (16 * (hi + 1 - lo))).foldl (fun s l => s.writeWords (.dram d (64 * l)) ws) s
    ((s.setF r FILL_CTL.GO 0).setF r FILL_CTL.DONE 1).pulse (6981 + 8 * d)

/-! ## Spares (R254 to R257) -/

/-- Copy `n` words, corrected one by one and poisoned where they cannot be, from storage address `src` to `dst`;
a DRAM word that nothing has written stays so. -/
def State.copyWords (s : State) (pl : Place) (light : Bool) (src dst : Nat) : Nat → State
  | 0 => s
  | n + 1 =>
    let c := s.chk.get 0 (src / 4)
    let s := match pl with
      | .dram _ _ =>
        if c = 0 then s
        else
          (let (s, d, c) := s.rawRead pl src
           let x := eccDecode light d c
           s.rawWrite pl dst x.data (eccEncode light x.poisoned x.data))
      | _ =>
        let (s, d, c) := s.rawRead pl src
        let x := eccDecode light d c
        s.rawWrite pl dst x.data (eccEncode light x.poisoned x.data)
    s.copyWords pl light (src + 4) (dst + 4) n

/-- Map a segment row to spare `r`: its valid lines are copied, then SPARE_MAP names the row. -/
def State.mapRow (s : State) (p g row r : Nat) : State :=
  let s := (numsFrom 0 4).foldl (fun s j =>
    let pl := Place.seg p g (row * 4 + j)
    if s.emptyLine pl then s
    else s.copyWords pl (s.lightAt pl) (s.storeAt pl) (rowStore p g r + 64 * j) 16) s
  { s.wr (SPARE_MAP.adr p g r) (BitVec.ofNat 64 (2 ^ 63 + row)) with spareOf := s.spareOf.put 0 (rowKey p g row) (r + 1) }

/-- Map a 1 KiB block of DRAM to spare block `i`. -/
def State.mapBlock (s : State) (d b i : Nat) : State :=
  let s := (numsFrom 0 16).foldl (fun s j =>
    let pl := Place.dram d (b * 1024 + 64 * j)
    s.copyWords pl (s.lightAt pl) (s.storeAt pl) (blockStore d i + 64 * j) 16) s
  { s.wr (DRAM_REMAP.adr d i) (BitVec.ofNat 64 (2 ^ 63 + b)) with spareOf := s.spareOf.put 0 (blockKey d b) (i + 1) }

/-- The lowest-numbered free spare row of a segment. -/
def State.freeRow (s : State) (p g : Nat) : Option Nat :=
  (numsFrom 0 8).find? fun r => !s.has (SPARE_MAP.adr p g r) SPARE_MAP.VALID

/-- The lowest-numbered free remap entry of a controller. -/
def State.freeBlock (s : State) (d : Nat) : Option Nat :=
  let used := (s.listed (DRAM_REMAP.adr d 0) (DRAM_REMAP.adr d 1024)).filter fun r => fset? DRAM_REMAP.VALID r.2
  (numsFrom 0 (min 1024 (used.length + 1))).find? fun i => !s.has (DRAM_REMAP.adr d i) DRAM_REMAP.VALID

/-- The lowest free DRAM_RETIRE entry. -/
def State.freeRetire (s : State) (d : Nat) : Option Nat :=
  (numsFrom 0 64).find? fun i => !s.has (DRAM_RETIRE.adr d i) DRAM_RETIRE.VALID

/-- The recurrence entry of a word is freed. -/
def State.freeEntry (s : State) (b loc : Nat) : State :=
  match s.recFind b loc with
  | some (i, _) => s.wr (REC_ENTRY.adr b i) 0
  | none => s

/-- No spare is left (R257): the entry stays in NO_SPARE, SPARES_OUT and RETIRED are set, with the retirement event. -/
def State.sparesOut (s : State) (pl : Place) (loc : Nat) : State :=
  let b := pl.blk
  let s := match s.recFind b loc with
    | some (i, _) => s.setF (REC_ENTRY.adr b i) REC_ENTRY.STATE 2
    | none => s
  let st := ERR_STAT.adr pl.log.log
  ((s.setF st ERR_STAT.SPARES_OUT 1).setF st ERR_STAT.RETIRED 1).pulse (pl.hardEvent + 1)

/-- The spare mapping that a hard error in a segment is due (R254). -/
def State.spareRow (s : State) (p loc : Nat) : State :=
  if !s.hardWait.contains (tileBlk p, loc) || !s.isOn p then s
  else
    let s := { s with hardWait := s.hardWait.erase (tileBlk p, loc) }
    let g := loc / 0x40000 % 16
    match s.freeRow p g with
    | some r => (s.mapRow p g (loc / 256 % 1024) r).freeEntry (tileBlk p) loc
    | none =>
      let s := s.sparesOut (.seg p g (loc / 64 % 4096)) loc
      let r := SEG_REPAIR.adr p
      s.setF r SEG_REPAIR.RETIRED (s.fld r SEG_REPAIR.RETIRED ||| 2 ^ g)

/-- The spare mapping that a hard error in DRAM is due (R255). -/
def State.spareBlock (s : State) (d loc : Nat) : State :=
  if !s.hardWait.contains (mcBlk d, loc) || !s.isOn (144 + d) then s
  else
    let s := { s with hardWait := s.hardWait.erase (mcBlk d, loc) }
    match s.freeBlock d with
    | some i => (s.mapBlock d (loc / 1024) i).freeEntry (mcBlk d) loc
    | none =>
      let s := s.sparesOut (.dram d (loc / 64 * 64)) loc
      match s.freeRetire d with
      | some i => s.wr (DRAM_RETIRE.adr d i) (BitVec.ofNat 64 (2 ^ 63 + loc / 4096 % 2 ^ 24))
      | none => s

/-- A write of SPARE_MAP (R256): ignored where the entry is in use; VALID = 1 maps the row. -/
def State.writeSpareMap (s : State) (p g r : Nat) (v : Word) : State :=
  let a := SPARE_MAP.adr p g r
  if s.has a SPARE_MAP.VALID then s
  else if fset? SPARE_MAP.VALID v then s.mapRow p g (fget SPARE_MAP.ROW v) r
  else s.setF a SPARE_MAP.ROW (fget SPARE_MAP.ROW v)

/-- A write of DRAM_REMAP (R256). -/
def State.writeRemap (s : State) (d i : Nat) (v : Word) : State :=
  let a := DRAM_REMAP.adr d i
  if s.has a DRAM_REMAP.VALID then s
  else if fset? DRAM_REMAP.VALID v then s.mapBlock d (fget DRAM_REMAP.BLOCK v) i
  else s.setF a DRAM_REMAP.BLOCK (fget DRAM_REMAP.BLOCK v)

/-! ## The recurrence table's upkeep and the beater (R252, R253, R258) -/

/-- The beater of a controller pauses during a fill (R251) and while the stack is not READY (R224). -/
def State.beatPaused (s : State) (u : RUnit) : Bool :=
  match u with
  | .tile _ => false
  | .mc d => s.has (FILL_CTL.adr d) FILL_CTL.GO || s.mcState d != 2

/-- A rewrite that REWRITE_AT triggered: the word is read again and written back corrected; POISON and UNCORRECTABLE
are left; the entry becomes REWRITTEN with COUNT 0. -/
def State.rewrite (s : State) (u : RUnit) (loc : Nat) : State :=
  let b := unitBlk u
  match s.recFind b loc with
  | none => s
  | some (i, e) =>
    if fget REC_ENTRY.STATE e ≠ 0 || fget REC_ENTRY.COUNT e < s.fld (REC_CTL.adr b) REC_CTL.REWRITE_AT
        || s.beatPaused u then s
    else
      let pl := unitPlace u loc
      let k := s.storeAt pl + 4 * wordNo loc
      let light := s.lightAt pl
      let (s, d, c) := s.rawRead pl k
      let x := eccDecode light d c
      let s := if x.poisoned || s.emptyLine pl then s else s.rawWrite pl k x.data (eccEncode light false x.data)
      s.wr (REC_ENTRY.adr b i) (recWord 1 0 loc)

/-- DECAY seconds pass: COUNT of each COUNTING or REWRITTEN entry is halved, and a zero entry is freed. -/
def State.decay (s : State) (u : RUnit) : State :=
  let b := unitBlk u
  if !s.has (REC_CTL.adr b) REC_CTL.DECAY then s
  else
    (s.recEntries b).foldl (fun s e =>
      if !fset? REC_ENTRY.VALID e.2 || 2 ≤ fget REC_ENTRY.STATE e.2 then s
      else if fget REC_ENTRY.COUNT e.2 / 2 = 0 then s.wr (REC_ENTRY.adr b e.1) 0
      else s.setF (REC_ENTRY.adr b e.1) REC_ENTRY.COUNT (fget REC_ENTRY.COUNT e.2 / 2)) s

/-- The unit's domain is powered and keeps its table: also in NAP (R253). -/
def State.powered (s : State) (u : RUnit) : Bool :=
  match u with
  | .tile p => s.dom p != 0 && s.dom p != 5
  | .mc d => s.isOn (144 + d)

/-- The beater runs. -/
def State.beating (s : State) (b : Nat) : Bool :=
  s.has (BEAT_CTL.adr b) BEAT_CTL.ENABLE || s.has (BEAT_CTL.adr b) BEAT_CTL.PASS

/-- A word the pass visits: in a valid line of a segment that is neither retired nor DISABLED; in a controller,
outside retired units. -/
def State.beatable (s : State) (u : RUnit) (loc : Nat) : Bool :=
  let pl := unitPlace u loc
  !s.retiredAt pl && !s.emptyLine pl &&
    (match u with
     | .tile p => s.segMode p (loc / 0x40000 % 16) != 2
     | .mc _ => true)

/-- Skip retired 4 KiB units from stack address `x` on, at most `n` of them. -/
def State.skipUnits (s : State) (d x : Nat) : Nat → Nat
  | 0 => x
  | n + 1 => if (s.retiredUnit d x).isSome then s.skipUnits d ((x / 4096 + 1) * 4096) n else x

/-- The first word at LOC `loc` or after it that the pass visits, none behind the last. -/
def State.beatFrom (s : State) (u : RUnit) (loc : Nat) : Option Nat :=
  match u with
  | .tile p =>
    if loc < 2 ^ 22 && s.beatable u loc then some loc
    else (s.segLines.find? fun k => p * 65536 + loc / 64 < k && k / 65536 == p && s.beatable u (k % 65536 * 64)).map
      fun k => k % 65536 * 64
  | .mc d =>
    let x := s.skipUnits d loc 65
    if x < 2 ^ 36 then some x else none

/-- The word that the walk visits next: each once, in ascending order (R258). -/
def State.beatAt (s : State) (u : RUnit) : Option Nat :=
  if s.beaten.contains (unitBlk u) then none else s.beatFrom u (s.fld (BEAT_STAT.adr (unitBlk u)) BEAT_STAT.POS)

/-- The walk is behind the word at `loc`: POS names the next one, 0 where it was the last. -/
def State.beatPast (s : State) (u : RUnit) (loc : Nat) : State :=
  let b := unitBlk u
  match s.beatFrom u (loc + 4) with
  | some n => s.setF (BEAT_STAT.adr b) BEAT_STAT.POS n
  | none => { s.setF (BEAT_STAT.adr b) BEAT_STAT.POS 0 with beaten := nset s.beaten b }

/-- The beater visits one word, the next of its walk (R258). -/
def State.beat (s : State) (u : RUnit) (loc : Nat) : State :=
  if !s.beating (unitBlk u) || s.beatPaused u || s.beatAt u ≠ some loc then s
  else
    let pl := unitPlace u loc
    let k := s.storeAt pl + 4 * wordNo loc
    let light := s.lightAt pl
    let (s, d, c) := s.rawRead pl k
    let x := eccDecode light d c
    let s := s.found pl (4 * wordNo loc) x d c (!light)
    (if x.corrected && !light then s.rawWrite pl k x.data (eccEncode false false x.data) else s).beatPast u loc

/-- Event of a completed beater pass. -/
def beatEvent : RUnit → Nat
  | .tile p => 7268 + 16 * (p / 17)
  | .mc d => 6980 + 8 * d

/-- A pass ends once its walk has visited every word. -/
def State.beatEnd (s : State) (u : RUnit) (late : Bool) : State :=
  let b := unitBlk u
  if !s.beating b || s.beatPaused u || (s.beatAt u).isSome then s
  else
    let r := BEAT_STAT.adr b
    let s : State := { s with beaten := s.beaten.filter (· ≠ b) }
    ((((s.incF r BEAT_STAT.PASSES 1).setF r BEAT_STAT.LATE (b2n late)).setF r BEAT_STAT.POS 0).setF
      (BEAT_CTL.adr b) BEAT_CTL.PASS 0).pulse (beatEvent u)

/-! ## Diagnostics (R259) -/

/-- READ_RAW: the stored word as it is. -/
def State.diagRead (s : State) (u : RUnit) (loc : Nat) : State :=
  let b := unitBlk u
  let pl := unitPlace u loc
  let (s, d, c) := s.rawRead pl (s.storeAt pl + 4 * wordNo loc)
  let s := s.wr (DIAG_CMD.adr b) (BitVec.ofNat 64 (loc % 2 ^ 40))
  s.wr (DIAG_RDATA.adr b) (syndWord d c (eccDecode (s.lightAt pl) d c))

/-- WRITE_RAW: the word of DIAG_WDATA stored as it is; a segment line becomes valid, its other words zero. -/
def State.diagWrite (s : State) (u : RUnit) (loc : Nat) (raw : Nat) : State :=
  let b := unitBlk u
  let pl := unitPlace u loc
  let s := s.openLine pl
  let s := (s.wr (DIAG_CMD.adr b) (BitVec.ofNat 64 (2 ^ 58 + loc % 2 ^ 40))).wr (DIAG_WDATA.adr b) (BitVec.ofNat 64 raw)
  s.rawWrite pl (s.storeAt pl + 4 * wordNo loc) (raw % 2 ^ 32) (raw / 2 ^ 32 % 128)

/-- A write of DIAG_CMD: GO performs OP on the word at LOC. -/
def State.writeDiag (s : State) (u : RUnit) (v : Word) : State :=
  let b := unitBlk u
  let s := s.wr (DIAG_CMD.adr b) (v &&& (fmask DIAG_CMD.OP ||| fmask DIAG_CMD.LOC))
  if !fset? DIAG_CMD.GO v then s
  else if fget DIAG_CMD.OP v = 0 then s.diagRead u (fget DIAG_CMD.LOC v)
  else if fget DIAG_CMD.OP v = 1 then s.diagWrite u (fget DIAG_CMD.LOC v) (s.rd (DIAG_WDATA.adr b)).toNat
  else s

end Sys2Proof.Machine
end

