-- ==== Sys2Proof/Machine/Calibration.lean ====
section
/-!
DEFINITION. Delay lines and live calibration (spec/02, R44 to R48).
-/

namespace Sys2Proof.Machine

/-- Delay line `i` of the window at `w`. -/
def State.line (s : State) (w i : Nat) : DelayLine := s.lines.get DelayLine.reset (w + i)

/-- `s` with delay line `i` of the window at `w` replaced. -/
def State.setLine (s : State) (w i : Nat) (l : DelayLine) : State :=
  { s with lines := s.lines.put DelayLine.reset (w + i) l }

/-- The fuse values of the line at key `k`. -/
def State.lineFuse (s : State) (k : Nat) : LineFuse := s.lineFuses.get LineFuse.reset k

/-- The trim of a line: the fused one until it is changed (R45, R47). -/
def DelayLine.trimOf (l : DelayLine) (f : LineFuse) : Nat := (l.trim.getD f.fused).toNat

/-- The keys of the window's lines that differ from the reset line, or whose fuse values do. -/
def State.winLines (s : State) (w : Nat) : List Nat :=
  let mine (k : Nat) : Bool := w ≤ k && k < w + 0x1000
  let l := (s.lines.map Prod.fst).filter mine
  l ++ (s.lineFuses.map Prod.fst).filter fun k => mine k && !l.contains k

/-- Lines of the window now at code 63 (CAL_STAT.AT_LIMIT). -/
def State.atLimit (s : State) (w : Nat) : Nat :=
  ((s.winLines w).filter fun k => (s.lines.get DelayLine.reset k).trimOf (s.lineFuse k) == 63).length

/-- What pass number `n` does to one line (R45): the count grew: one step longer, or stays at 63; no growth for 16
passes and more than GUARD above the floor: one step shorter. -/
def DelayLine.pass (l : DelayLine) (f : LineFuse) (guard n : Nat) : DelayLine :=
  let t := l.trimOf f
  if l.grown then
    { l with grown := false, since := n, trim := if t = 63 then l.trim else some (BitVec.ofNat 6 (t + 1)) }
  else if l.since + 16 ≤ n && f.floor.toNat + guard < t then { l with trim := some (BitVec.ofNat 6 (t - 1)) }
  else l

/-- Whether a pass changes the line's trim. -/
def DelayLine.adjusted (l : DelayLine) (f : LineFuse) (guard n : Nat) : Bool :=
  (l.pass f guard n).trimOf f != l.trimOf f

/-- The engine of the window at `w` examines its lines from `lo` to `hi - 1` in turn (R45): their trims, AT_LIMIT and
ADJUSTS; each line at 63 that grew sets LIMIT with event 7,704. -/
def State.calLines (s : State) (w lo hi : Nat) : State :=
  let n := s.passes.get 0 w + 1
  let g := s.fld (CAL_CTL.adr w) CAL_CTL.GUARD
  let old (k : Nat) : DelayLine := s.lines.get DelayLine.reset k
  let keys := (s.winLines w).filter fun k => w + lo ≤ k && k < w + hi
  let adj := (keys.filter fun k => (old k).adjusted (s.lineFuse k) g n).length
  let lim := (keys.filter fun k => (old k).grown && (old k).trimOf (s.lineFuse k) == 63).length
  let fuse := s.lineFuse
  let s := { s with lines := keys.foldl (fun m k => m.put DelayLine.reset k ((old k).pass (fuse k) g n)) s.lines }
  let s := s.incF (CAL_COUNT.adr w) CAL_COUNT.ADJUSTS adj
  let s := s.setF (CAL_STAT.adr w) CAL_STAT.AT_LIMIT (s.atLimit w)
  if lim = 0 then s else (s.setF (CAL_STAT.adr w) CAL_STAT.LIMIT 1).arrive 7704 lim

/-- The pass in progress ends or is abandoned: nothing is busy any more, and STEP reads 0 (R48). -/
def State.calAbandon (s : State) (w : Nat) : State :=
  if s.calPos.get 0 w = 0 then s
  else
    let s : State := { s with calPos := s.calPos.put 0 w 0 }
    (s.setF (CAL_STAT.adr w) CAL_STAT.PASS_BUSY 0).setF (CAL_CTL.adr w) CAL_CTL.STEP 0

/-- The pass has examined every line: it is counted and PASS_DONE set (R45). -/
def State.calDone (s : State) (w : Nat) : State :=
  let s : State := { s with passes := s.passes.put 0 w (s.passes.get 0 w + 1) }
  let s := s.incF (CAL_COUNT.adr w) CAL_COUNT.PASSES 1
  (s.setF (CAL_STAT.adr w) CAL_STAT.PASS_DONE 1).calAbandon w

/-- The pass in progress goes on to line `hi`, and ends when that is past the last. -/
def State.calTo (s : State) (w hi : Nat) : State :=
  let p := s.calPos.get 0 w
  if p = 0 then s
  else
    let s := s.calLines w (p - 1) hi
    if s.fld (CAL_LINES.adr w) CAL_LINES.COUNT ≤ hi then s.calDone w
    else { s with calPos := s.calPos.put 0 w (hi + 1) }

/-- A pass starts at the first line; one that is in progress goes on as it is (R48). -/
def State.calBegin (s : State) (w : Nat) : State :=
  if s.calPos.get 0 w ≠ 0 then s
  else { s with calPos := s.calPos.put 0 w 1 }.setF (CAL_STAT.adr w) CAL_STAT.PASS_BUSY 1

/-- How far the pass in progress comes before anything else happens is a free value: any line up to the last (log
entry 4). -/
def State.calRun (s : State) (w : Nat) : State :=
  let p := s.calPos.get 0 w
  if p = 0 then s
  else
    let left := s.fld (CAL_LINES.adr w) CAL_LINES.COUNT - (p - 1)
    s.tick.calTo w (p - 1 + (left - (Config.freeWord s.freeTick).toNat % (left + 1)))

/-- One whole pass, with nothing between its lines. -/
def State.calPass (s : State) (w : Nat) : State :=
  (s.calBegin w).calTo w (s.fld (CAL_LINES.adr w) CAL_LINES.COUNT)

/-- CAL_CTL.INTERVAL passes: the engine starts one pass where ENABLE is set, FREEZE is clear, INTERVAL is not 0 and
the domain runs (R45, R47). -/
def State.calInterval (s : State) (w : Nat) (dom : Nat) : State :=
  let c := s.rd (CAL_CTL.adr w)
  if fset? CAL_CTL.ENABLE c && !fset? CAL_CTL.FREEZE c && fset? CAL_CTL.INTERVAL c && s.isOn dom then (s.calBegin w).calRun w
  else s

/-- A write of 1 to CAL_CTL.STEP (R45, R48): one pass starts, and STEP reads 1 until it ends; during a pass the write is
ignored, and STEP reads 1 until that pass ends.  DESIGN CHOICE: with FREEZE set no pass starts, which the spec says of no
case; FREEZE stops every engine change and would abandon the pass at its first line (log entry 67). -/
def State.calStep (s : State) (w : Nat) (dom : Nat) : State :=
  if s.has (CAL_CTL.adr w) CAL_CTL.FREEZE || !s.isOn dom then s
  else
    let t := s.setF (CAL_CTL.adr w) CAL_CTL.STEP 1
    if s.calPos.get 0 w = 0 then (t.calBegin w).calRun w else t

/-- A write of CAL_TRIM: the selected line takes the trim, no lower than its floor; an index past the last line
ignores it (R46, R50). -/
def State.calTrim (s : State) (w : Nat) (v : Word) : State :=
  let i := s.fld (CAL_SEL.adr w) CAL_SEL.LINE
  if i < s.fld (CAL_LINES.adr w) CAL_LINES.COUNT then
    let fl := (s.lineFuse (w + i)).floor
    let t := if fget CAL_TRIM.TRIM v < fl.toNat then fl else BitVec.ofNat 6 (fget CAL_TRIM.TRIM v)
    let s := s.setLine w i { s.line w i with trim := some t }
    s.setF (CAL_STAT.adr w) CAL_STAT.AT_LIMIT (s.atLimit w)
  else s

/-- CAL_TRIM as read: FLOOR, FUSED and TRIM of the selected line, 0 past the last. -/
def State.readCalTrim (s : State) (w : Nat) : Word :=
  let i := s.fld (CAL_SEL.adr w) CAL_SEL.LINE
  if i < s.fld (CAL_LINES.adr w) CAL_LINES.COUNT then
    let f := s.lineFuse (w + i)
    BitVec.ofNat 64 (f.floor.toNat * 2 ^ 24 + f.fused.toNat * 2 ^ 16 + (s.line w i).trimOf f)
  else 0

/-- CAL_MARGIN as read: the near-miss count of the selected line, 0 past the last. -/
def State.readCalMargin (s : State) (w : Nat) : Word :=
  let i := s.fld (CAL_SEL.adr w) CAL_SEL.LINE
  if i < s.fld (CAL_LINES.adr w) CAL_LINES.COUNT then BitVec.ofNat 64 (s.line w i).nearMiss else 0

/-- A write of CAL_MARGIN subtracts the written amount from the selected line's count (R11). -/
def State.writeCalMargin (s : State) (w : Nat) (v : Word) : State :=
  let i := s.fld (CAL_SEL.adr w) CAL_SEL.LINE
  if i < s.fld (CAL_LINES.adr w) CAL_LINES.COUNT then
    s.setLine w i { s.line w i with nearMiss := (s.line w i).nearMiss - fget CAL_MARGIN.NEAR_MISS v }
  else s

/-- A near-miss on line `i` (R44). -/
def State.nearMiss (s : State) (w i : Nat) : State :=
  if i < s.fld (CAL_LINES.adr w) CAL_LINES.COUNT then
    let l := s.line w i
    let s := s.setLine w i { l with nearMiss := min 0xFFFFFFFF (l.nearMiss + 1), grown := true }
    s.setF (CAL_STAT.adr w) CAL_STAT.NEAR_MISS_SEEN 1
  else s

/-- A domain that powers up from OFF: its lines are at their fused trims and its calibration registers at reset,
with ENABLE from DOM_CTL.CAL_EN; one pass runs when that is 1 (R47). -/
def State.calPowerUp (s : State) (w : Nat) (dom : Nat) : State :=
  let s := { s with lines := s.lines.eraseRange w (w + 0x1000), passes := s.passes.put 0 w 0, calPos := s.calPos.put 0 w 0 }
  let en := s.fld (DOM_CTL.adr dom) DOM_CTL.CAL_EN
  let s := s.setF (CAL_CTL.adr w) CAL_CTL.ENABLE en
  if en = 1 then s.calPass w else s

end Sys2Proof.Machine
end

