-- ==== Sys2Proof/Machine/Packets.lean ====
section
/-!
DEFINITION. Packets as bytes (spec/11, R332 to R335) and flits as bytes with their CRC-32 (spec/10, R297 to R303).
-/

namespace Sys2Proof.Machine

/-! ## Packets -/

/-- Bytes of the operation body, from byte 16 to where the data starts (R333, R379); none for an undefined OP. -/
def bodyLen (op : Nat) (resp : Bool) : Option Nat :=
  match op with
  | 1 => some 8 | 2 => some 8 | 3 => some 8
  | 4 => some (if resp then 8 else 16)
  | 5 => some 8 | 6 => some 8 | 7 => some 32 | 8 => some 24
  | 9 => some (if resp then 8 else 16)
  | _ => none

end Sys2Proof.Machine

namespace Sys2Proof

/-- ADDR of the packets that carry one (R333). -/
def Packet.addr (p : Packet) : Nat := Machine.ofBytes (p.body.take 8)

/-- The OP a response to this packet carries: GET is answered by GET_RESP (R333). -/
def Packet.respOp (p : Packet) : Nat := if p.op = 2 then 3 else p.op

end Sys2Proof

namespace Sys2Proof.Machine

/-- Check words the data of a packet touches: the mask has one bit each (R334). -/
def maskBits (op addr len : Nat) : Nat :=
  if len = 0 then 0
  else if op = 1 || op = 3 then (addr % 4 + len + 3) / 4
  else (len + 3) / 4

/-- Whether the packet carries data and a mask (R334). -/
def carriesData (op : Nat) (resp : Bool) (len : Nat) : Bool := len != 0 && !(op == 2 && !resp)

/-- Poison bits as mask bytes, 4 × ceil(N / 32) of them. -/
def maskBytes (m : List Bool) : List Byte :=
  toBytes (4 * ((m.length + 31) / 32)) ((m.zipIdx).foldl (fun n b => if b.1 then n + 2 ^ b.2 else n) 0)

/-- The bytes of a packet (R332, R333, R334). -/
def packetBytes (p : Packet) : List Byte :=
  toBytes 2 p.dest ++ toBytes 2 p.src ++ toBytes 1 p.op ++ toBytes 1 (b2n p.resp + 2 * b2n p.oversize)
    ++ toBytes 2 p.len ++ toBytes 2 p.tag ++ toBytes 1 p.hops ++ toBytes 1 p.status ++ toBytes 2 p.srcid
    ++ toBytes 1 (b2n p.epb) ++ toBytes 1 0 ++ p.body ++ p.data ++ maskBytes p.mask

/-- Bytes `lo` to `lo + n - 1` of a byte string as a number. -/
def bytesAt (bs : List Byte) (lo n : Nat) : Nat := ofBytes ((bs.drop lo).take n)

/-- LEN lies among the values R333 and R379 give for the packet's OP, KIND and direction (R335); a reserved KIND of a
COUCH packet has none (R380). -/
def lenOk (op : Nat) (resp oversize : Bool) (len kind : Nat) : Bool :=
  if 4096 < len then false
  else match op with
    | 1 => if resp then len == 0 else 0 < len
    | 2 => !resp && 0 < len
    | 3 => resp
    | 4 => if resp then len == 8 || len == 0 else len == 16
    | 5 => if resp then len == 0 else if oversize then len == 0 else 8 ≤ len && len ≤ 512 && len % 8 == 0
    | 6 => !resp
    | 7 => len == 0
    | 8 => kind ≤ 4 && (if !resp && kind == 2 then len == 4096 else len == 0)
    | 9 => if resp then len == 8 || len == 0 else if kind == 1 then len == 8 else len == 0
    | _ => false

/-- The packet that `bs` spells; none where R335 has a receiver discard it for its OP, LEN or length. The bytes
are whole flit payloads: zero padding of the TAIL or SINGLE follows the packet. -/
def parsePacket (bs : List Byte) : Option Packet :=
  if bs.length < 16 then none
  else
    let op := bytesAt bs 4 1
    let fl := bytesAt bs 5 1
    let resp := nbit 0 fl
    let oversize := nbit 1 fl
    let len := bytesAt bs 6 2 % 8192
    match bodyLen op resp with
    | none => none
    | some bl =>
      let body := (bs.drop 16).take bl
      let kind := if op = 9 then bytesAt body 8 1 else bytesAt body 0 1
      let dl := if carriesData op resp len then len else 0
      let nm := if dl = 0 then 0 else maskBits op (ofBytes (body.take 8)) dl
      let total := 16 + bl + dl + 4 * ((nm + 31) / 32)
      -- the flits fill 58 bytes each, so the padded length is the next multiple
      if !lenOk op resp oversize len kind || bs.length ≠ (total + 57) / 58 * 58 then none
      else
        some { dest := bytesAt bs 0 2, src := bytesAt bs 2 2, op := op, resp := resp, oversize := oversize, len := len,
               tag := bytesAt bs 8 2, hops := bytesAt bs 10 1, status := bytesAt bs 11 1, srcid := bytesAt bs 12 2,
               epb := nbit 0 (bytesAt bs 14 1), body := body, data := (bs.drop (16 + bl)).take dl,
               mask := (numsFrom 0 nm).map fun i => nbit i (bytesAt bs (16 + bl + dl) (4 * ((nm + 31) / 32))) }

/-- Whether virtual channel `vc` carries this packet's class (R341). -/
def vcOk (vc : Nat) (p : Packet) : Bool :=
  if p.op = 6 then vc == 5
  else if p.op = 8 then vc == 6
  else if p.op = 7 then vc == 7
  else if p.resp then vc == 2 || vc == 3
  else if p.op = 5 then vc == 4
  else vc == 0 || vc == 1

/-- The virtual channel on which the device injects a packet (R341). -/
def injectVc (p : Packet) : Nat :=
  if p.op = 6 then 5 else if p.op = 8 then 6 else if p.op = 7 then 7
  else if p.resp then 2 else if p.op = 5 then 4 else 0

/-! ## Flits -/

/-- One step of the reflected CRC-32 with polynomial 0x04C1_1DB7 (R299). -/
def crcBit (c : BitVec 32) : BitVec 32 := if c.getLsbD 0 then (c >>> 1) ^^^ 0xEDB88320#32 else c >>> 1

/-- The CRC register after one byte. -/
def crcByte (c : BitVec 32) (b : Byte) : BitVec 32 :=
  crcBit (crcBit (crcBit (crcBit (crcBit (crcBit (crcBit (crcBit (c ^^^ b.setWidth 32))))))))

/-- The CRC-32 of a flit's first 60 bytes under a seed (R299). -/
def flitCrc (bs : List Byte) (seed : Nat) : BitVec 32 :=
  (bs.foldl crcByte (0xFFFFFFFF#32 ^^^ BitVec.ofNat 32 seed)) ^^^ 0xFFFFFFFF#32

/-- Seed of an unsequenced flit. -/
def unseqSeed : Nat := 0x1000

/-- A flit header (R298). -/
def flitHdr (vc type cvc ccount : Nat) : Nat := vc * 2 ^ 13 + type * 2 ^ 10 + cvc * 2 ^ 7 + ccount

/-- A payload padded with zeros to 58 bytes. -/
def pad58 (bs : List Byte) : List Byte := (bs ++ List.replicate (58 - bs.length) 0).take 58

/-- A whole flit (R297). -/
def mkFlit (hdr : Nat) (payload : List Byte) (seed : Nat) : List Byte :=
  let b := toBytes 2 hdr ++ pad58 payload
  b ++ toBytes 4 (flitCrc b seed).toNat

/-- Whether a flit passes its CRC with this seed. -/
def flitOk (f : List Byte) (seed : Nat) : Bool :=
  f.length == 64 && bytesAt f 60 4 == (flitCrc (f.take 60) seed).toNat

/-- The payload of a packet, 58 bytes a flit, with the flit types of R301. -/
def flitsFrom : Nat → List Byte → Bool → List (Nat × List Byte)
  | 0, _, _ => []
  | k + 1, bs, first =>
    if bs.length ≤ 58 then [(if first then 4 else 3, pad58 bs)]
    else (if first then 1 else 2, bs.take 58) :: flitsFrom k (bs.drop 58) false

/-- The flits of a packet (R301, R332). -/
def packetFlits (bs : List Byte) : List (Nat × List Byte) := flitsFrom (bs.length + 1) bs true

/-- A TYPE that consumes a credit: HEAD, BODY, TAIL, SINGLE, ABORT (R298). -/
def consumesCredit (type : Nat) : Bool := type == 1 || type == 2 || type == 3 || type == 4 || type == 7

/-- A sequenced TYPE: all but IDLE and LCTL (R298). -/
def sequenced (type : Nat) : Bool := type != 0 && type != 6

/-! ## Codewords (R295) -/

/-- One bit of the additive scrambler x^58 + x^39 + 1: its next state and the bit it gives. -/
def scramBit (c : BitVec 58) : BitVec 58 × Bool :=
  let b := xor (c.getLsbD 57) (c.getLsbD 38)
  ((c <<< 1) ||| (if b then 1 else 0), b)

/-- Bits scrambled, and the state the scrambler is left in. -/
def scramble : BitVec 58 → List Bool → BitVec 58 × List Bool
  | c, [] => (c, [])
  | c, b :: r =>
    let x := scramBit c
    let y := scramble x.1 r
    (y.1, xor b x.2 :: y.2)

/-- The bits of a flit in sending order: byte 0 first, the least significant bit of each byte first. -/
def flitBits (f : List Byte) : List Bool := f.flatMap fun b => (numsFrom 0 8).map b.getLsbD

/-- The header of the codeword with CWSEQ `q`: SYNC in bits [19:12], CWSEQ in [11:8]. -/
def cwHeader (q : Nat) : BitVec 20 := BitVec.ofNat 20 (0x5A * 2 ^ 12 + q * 2 ^ 8)

/-- An IDLE flit (R298). -/
def idleFlit : List Byte := mkFlit 0 [] unseqSeed

/-! ## Link control messages -/

/-- The payload of an LCTL message (R302). -/
def lctlPayload (code exp : Nat) (nak : Bool) (rest : List Byte) : List Byte :=
  toBytes 1 code ++ toBytes 1 (b2n nak) ++ toBytes 2 exp ++ rest

/-- Bytes 4 onward of an INIT (R302). -/
def initBytes (m : InitMsg) : List Byte :=
  toBytes 2 m.device ++ toBytes 1 m.link ++ toBytes 1 (b2n m.side + 2 * b2n m.fresh + 4 * b2n m.rate100)
    ++ toBytes 2 m.txNext ++ m.alloc.flatMap (toBytes 2) ++ m.avail.flatMap (toBytes 2)

/-- The INIT that bytes 4 onward of a payload spell. -/
def parseInit (bs : List Byte) : InitMsg :=
  let f := bytesAt bs 3 1
  { device := bytesAt bs 0 2, link := bytesAt bs 2 1, side := nbit 0 f, fresh := nbit 1 f, rate100 := nbit 2 f,
    txNext := bytesAt bs 4 2, alloc := (numsFrom 0 8).map fun v => bytesAt bs (6 + 2 * v) 2,
    avail := (numsFrom 0 8).map fun v => bytesAt bs (22 + 2 * v) 2 }

end Sys2Proof.Machine
end

