-- ==== Sys2Proof/Machine/Links.lean ====
section
/-!
DEFINITION. Links (spec/10): flits with replay and credits, training, power states, retirement.
-/

namespace Sys2Proof.Machine

/-- Link `n`'s state beside its registers. -/
def State.lk (s : State) (n : Nat) : LinkSt := s.links.get LinkSt.reset n
/-- `s` with link `n`'s state replaced. -/
def State.setLk (s : State) (n : Nat) (l : LinkSt) : State := { s with links := s.links.put LinkSt.reset n l }
/-- `s` with link `n`'s state changed by `f`. -/
def State.updLk (s : State) (n : Nat) (f : LinkSt → LinkSt) : State := s.setLk n (f (s.lk n))

/-- LNK_STAT.TSTATE: 0 DISABLED, 1 DETECT, 2 LOCK, 3 ALIGN, 4 CREDIT_INIT, 5 ACTIVE, 6 DOWN, 7 RETIRED, 8 TEST. -/
def State.ts (s : State) (n : Nat) : Nat := s.fld (LNK_STAT.adr n) LNK_STAT.TSTATE
/-- `s` with TSTATE replaced. -/
def State.setTs (s : State) (n v : Nat) : State := s.setF (LNK_STAT.adr n) LNK_STAT.TSTATE v
/-- LNK_STAT.PSTATE: 0 ACTIVE, 1 QUIET, 2 OFF. -/
def State.ps (s : State) (n : Nat) : Nat := s.fld (LNK_STAT.adr n) LNK_STAT.PSTATE
/-- `s` with PSTATE replaced. -/
def State.setPs (s : State) (n v : Nat) : State := s.setF (LNK_STAT.adr n) LNK_STAT.PSTATE v
/-- A field of LNK_CTL. -/
def State.lctl (s : State) (n : Nat) (f : Fld) : Nat := s.fld (LNK_CTL.adr n) f
/-- The link's event source `k` receives an arrival (R325). -/
def State.lkEvent (s : State) (n k : Nat) : State := s.pulse (6400 + 4 * n + k)
/-- A bit of LNK_EVT is set, with the arrival R325 gives it. -/
def State.lkSet (s : State) (n : Nat) (f : Fld) (k : Nat) : State := (s.setF (LNK_EVT.adr n) f 1).lkEvent n k

/-- RX_EXP, the expected sequence number. -/
def State.rxExp (s : State) (n : Nat) : Nat := s.fld (LNK_SEQ.adr n) LNK_SEQ.RX_EXP
/-- TX_NEXT. -/
def State.txNext (s : State) (n : Nat) : Nat := s.fld (LNK_SEQ.adr n) LNK_SEQ.TX_NEXT
/-- TX_OLDEST. -/
def State.txOldest (s : State) (n : Nat) : Nat := s.fld (LNK_SEQ.adr n) LNK_SEQ.TX_OLDEST

/-- The port is in service for its slice (R307, R324): neither side is retiring the link. -/
def State.linkUp (s : State) (n : Nat) : Bool :=
  s.ts n == 5 && s.ps n ≤ 1 && s.lctl n LNK_CTL.RETIRE == 0 && !(s.lk n).farRetire && s.isOn (152 + n)
    && s.isOn (296 + n / 36)

/-- Show the replay buffer's occupancy. -/
def State.showReplay (s : State) (n : Nat) : State :=
  s.setF (LNK_SEQ.adr n) LNK_SEQ.REPLAY_OCC (s.lk n).replay.length

/-! ## Sending -/

/-- A flit leaves; the codeword that holds it is formed when no command waits (R295, assumption log entry 71). -/
def State.sendFlit (s : State) (n : Nat) (f : List Byte) : State :=
  (s.updLk n fun l => { l with txCw := l.txCw ++ [f] }).emit (.flit n f)

/-- Codewords of ten of the flits sent, `k` at most, the last filled with IDLE flits (R295). -/
def State.sendCodewords (s : State) (n : Nat) : Nat → State
  | 0 => s
  | k + 1 =>
    let l := s.lk n
    if l.txCw.isEmpty then s
    else
      let x := scramble l.scram (((l.txCw ++ List.replicate 10 idleFlit).take 10).flatMap flitBits)
      let s := s.setLk n { l with txCw := l.txCw.drop 10, txSeq := (l.txSeq + 1) % 16, scram := x.1 }
      (s.emit (.codeword n (cwHeader l.txSeq) x.2)).sendCodewords n k

/-- Every flit sent on link `n` is in a codeword. -/
def State.flushCodewords (s : State) (n : Nat) : State := s.sendCodewords n (s.lk n).txCw.length

/-- An LCTL message leaves; it carries EXP_SEQ, so every LCTL acknowledges (R302, R308). -/
def State.sendLctl (s : State) (n code : Nat) (nak : Bool) (rest : List Byte) : State :=
  let f := mkFlit (flitHdr 0 6 0 0) (lctlPayload code (s.rxExp n) nak rest) unseqSeed
  (s.updLk n fun l => { l with sinceAck := 0 }).sendFlit n f

/-- An LCTL message that expects an answer (R302). -/
def State.askLctl (s : State) (n code : Nat) (rest : List Byte) : State :=
  (s.sendLctl n code false rest).updLk n fun l => { l with asked := some (code, 1) }

/-- The virtual channel with the largest PEND, the lowest on a tie (R314). -/
def State.maxPend (s : State) (n : Nat) : Nat :=
  (numsFrom 0 8).foldl (fun b v =>
    if s.fld (LNK_VC.adr n b) LNK_VC.PEND < s.fld (LNK_VC.adr n v) LNK_VC.PEND then v else b) 0

/-- A sequenced flit is sent with the next number: it returns credits of the channel with the largest PEND and
enters the replay buffer (R308, R312, R314); one that becomes the oldest has not been replayed (R311).  `payload` sees
the state after the header's credits are taken. -/
def State.sendSeq (s : State) (n vc type : Nat) (payload : State → List Byte) : State :=
  let cvc := s.maxPend n
  let cc := min 127 (s.fld (LNK_VC.adr n cvc) LNK_VC.PEND)
  let s := s.decF (LNK_VC.adr n cvc) LNK_VC.PEND cc
  let s := if consumesCredit type then s.decF (LNK_VC.adr n vc) LNK_VC.CRED 1 else s
  let f := mkFlit (flitHdr vc type (if cc = 0 then 0 else cvc) cc) (payload s) (s.txNext n)
  let s := s.updLk n fun l =>
    { l with replay := l.replay ++ [f], noProgress := if l.replay.isEmpty then 0 else l.noProgress }
  let s := s.setF (LNK_SEQ.adr n) LNK_SEQ.TX_NEXT ((s.txNext n + 1) % 4096)
  (s.showReplay n).sendFlit n f

/-- The transmitter may send a sequenced flit: ACTIVE, not quiet, room in the replay buffer (R311). -/
def State.canSend (s : State) (n : Nat) : Bool := s.ts n == 5 && s.ps n == 0 && (s.lk n).replay.length < 512

/-- All PEND counts of the link, least channel first, as the CRD payload's bytes (R303). -/
def State.crdPayload (s : State) (n : Nat) : List Byte :=
  (numsFrom 0 8).flatMap fun v => toBytes 2 (s.fld (LNK_VC.adr n v) LNK_VC.PEND)

/-- The side starts its wake pattern (R319). -/
def State.startWake (s : State) (n : Nat) : State :=
  if s.ps n = 1 && !(s.lk n).waking then
    (s.updLk n fun l => { l with waking := true }).emit (.wakePattern n)
  else s

/-- A CRD flit returns the credits of every channel (R303, R314); a quiet link wakes to send it (R319). -/
def State.sendCrd (s : State) (n : Nat) : State :=
  if s.canSend n then
    let s := s.sendSeq n 0 5 fun s => s.crdPayload n
    (numsFrom 0 8).foldl (fun s v => s.setF (LNK_VC.adr n v) LNK_VC.PEND 0) s
  else s.startWake n

/-- The first packet that may send a flit: its channel has a credit and no earlier packet of that channel waits (R301,
R312); a packet whose port was chosen before the link left service still leaves on it (R363). -/
def State.pickTx (s : State) (n : Nat) : List Nat → List TxPkt → List TxPkt → Option (TxPkt × List TxPkt × List TxPkt)
  | _, _, [] => none
  | seen, done, t :: r =>
    if !seen.contains t.vc && s.has (LNK_VC.adr n t.vc) LNK_VC.CRED then
      some (t, done, r)
    else s.pickTx n (t.vc :: seen) (done ++ [t]) r

/-- A retiring link whose replay buffer is empty and that has no packet left sends RETIRE (R324 step 2, R363). -/
def State.retireReady (s : State) (n : Nat) : State :=
  let l := s.lk n
  if l.retiring && l.replay.isEmpty && l.txq.isEmpty then
    (s.updLk n fun l => { l with retiring := false }).askLctl n 0x50 []
  else s

/-- A flit that consumes a credit is sent once a credit and a replay entry are available (R312). -/
def State.flitSend (s : State) (n : Nat) : State :=
  if !s.canSend n then s
  else
    match s.pickTx n [] [] (s.lk n).txq with
    | none => s
    | some (t, before, after) =>
      match t.flits with
      | [] => s.updLk n fun l => { l with txq := before ++ after }
      | (ty, pl) :: fs =>
        let s := s.sendSeq n t.vc ty fun _ => pl
        s.updLk n fun l => { l with txq := if fs.isEmpty then before ++ after
                                           else before ++ { t with flits := fs, begun := true } :: after }

/-! ## Loss of the replay buffer (R322) -/

/-- Type and channel of a flit held as bytes. -/
def flitVcType (f : List Byte) : Nat × Nat := (nbits 15 13 (bytesAt f 0 2), nbits 12 10 (bytesAt f 0 2))

/-- Packets lost with the replay buffer: those that start in it, those that continue in it, and those begun of which
only unsent flits remain. -/
def LinkSt.lostCount (l : LinkSt) : Nat :=
  let fl := (l.replay.map flitVcType).filter fun p => consumesCredit p.2
  let starts := (fl.filter fun p => p.2 = 1 || p.2 = 4).length
  let cont := ((numsFrom 0 8).filter fun v =>
    match fl.find? fun p => p.1 = v with
    | some p => p.2 ≠ 1 && p.2 ≠ 4
    | none => false).length
  let only := (l.txq.filter fun t => t.begun && !(fl.any fun p => p.1 = t.vc)).length
  starts + cont + only

/-- The replay buffer and begun packets are discarded; packets of which nothing was sent go back to the slice; packets
open at the receiver are ended as by ABORT (R322).  What the slice has already taken of a packet stays with it. -/
def State.dropReplay (s : State) (n : Nat) : State :=
  let l := s.lk n
  let back := (l.txq.filter fun t => !t.begun).map fun t => t.back
  let s := s.satF (LNK_LOSS.adr n) LNK_LOSS.LOST_PKT l.lostCount
  let s := { s with rtWait := s.rtWait ++ back }
  let left := l.rx.map fun (f : RxFlit) => { f with counted := false }
  let ends := l.rxOpen.map fun v => RxFlit.mk v 7 [] false
  let s := s.setLk n { l with replay := [], txq := [], noProgress := 0, awaiting := false, rx := left ++ ends, rxOpen := [] }
  (s.setF (LNK_SEQ.adr n) LNK_SEQ.TX_OLDEST (s.txNext n)).showReplay n

/-- LNK_CTL.RETRAIN and FULL_TRAIN read 1 only while what they started is in progress (R11). -/
def State.trainEnds (s : State) (n : Nat) : State :=
  (s.setF (LNK_CTL.adr n) LNK_CTL.RETRAIN 0).setF (LNK_CTL.adr n) LNK_CTL.FULL_TRAIN 0

/-- The link leaves its state for DETECT or DOWN (R307, R322); DOWN is set when it left ACTIVE. -/
def State.toDetect (s : State) (n ts : Nat) (down : Bool) : State :=
  let s := (s.dropReplay n).trainEnds n
  let s := (s.setTs n ts).setF (LNK_STAT.adr n) LNK_STAT.RX_LOCK 0
  let s := s.updLk n fun l => { l with fresh := true, asked := none, initGot := false, initOk := false, wasUp := false,
                                       waking := false, farRetire := false, woke := false, noAsk := [] }
  if down then s.lkSet n LNK_EVT.DOWN 0 else s

/-- The PHY and MAC domain is switched off (R321): settings stay, every other register restarts at its reset value
(TSTATE 0, PSTATE 2); the equaliser settings, and the rate they were trained for, are held. -/
def State.linkOff (s : State) (n : Nat) : State :=
  let s := if (s.lk n).replay.isEmpty && (s.lk n).txq.isEmpty then s else s.dropReplay n
  let keep := [LNK_CTL.adr n, LNK_EXPECT.adr n, LNK_TIMING.adr n, LNK_HEALTH.adr n].map fun a => (a, s.rd a)
  let al := (numsFrom 0 8).map fun v => (v, s.fld (LNK_VC.adr n v) LNK_VC.ALLOC)
  let s := s.resetRegs (linkBlk n) (linkBlk n + 0x10000)
  let s := keep.foldl (fun s p => s.wr p.1 p.2) s
  let s := al.foldl (fun s p => s.setF (LNK_VC.adr n p.1) LNK_VC.ALLOC p.2) s
  let l := s.lk n
  (((s.trainEnds n).setLk n { LinkSt.reset with rate := l.rate, try100 := l.try100 }).loseWindow (.link n)).setDom
    (152 + n) 0

/-- The link is retired: transmitters idle, remaining packets discarded (R324 step 4). -/
def State.retired (s : State) (n : Nat) : State :=
  let s := (s.dropReplay n).trainEnds n
  (s.setTs n 7).updLk n fun l => { l with asked := none, retiring := false, fresh := true }

/-! ## Training (R304 to R307) -/

/-- LNK_CTL.RATE as the training in progress takes it: as the last full training found it (R327). -/
def State.trainRate (s : State) (n : Nat) : Nat := (s.lk n).rate.getD (s.lctl n LNK_CTL.RATE)

/-- Whether the training side tries 100 Gb/s. -/
def State.at100 (s : State) (n : Nat) : Bool := s.trainRate n == 2 || (s.trainRate n == 0 && (s.lk n).try100)

/-- The link may train: enabled, not retired, in no test, powered (R304, R326). -/
def State.mayTrain (s : State) (n : Nat) : Bool :=
  s.lctl n LNK_CTL.ENABLE == 1 && s.lctl n LNK_CTL.RETIRE == 0 && s.lctl n LNK_CTL.TEST == 0 && s.isOn (152 + n)

/-- A link that fails on its way to RETIRED, DOWN or OFF goes there; any other trains as `f` says (R304, R321, R324,
R327). -/
def State.orTrain (s : State) (n : Nat) (f : State → State) : State :=
  if s.lctl n LNK_CTL.RETIRE = 1 then s.retired n
  else if (s.lk n).farRetire then s.toDetect n 6 true
  else if s.lctl n LNK_CTL.ENABLE = 0 || s.lctl n LNK_CTL.PWR_REQ = 2 then s.linkOff n
  else f s

/-- Training frames start: a full training, which takes RATE and leaves the link without link-layer state, or a fast one
from the kept settings (R304, R306, R327). -/
def State.startLock (s : State) (n : Nat) (full : Bool) : State :=
  let s := (s.setTs n 2).setF (LNK_STAT.adr n) LNK_STAT.RX_LOCK 0
  let s := s.setF (LNK_STAT.adr n) LNK_STAT.FAST (b2n (!full))
  let s := if full then s.setF (LNK_CTL.adr n) LNK_CTL.RETRAIN 0 else s
  let r := if full then some (s.lctl n LNK_CTL.RATE) else (s.lk n).rate
  s.updLk n fun l => { l with full := full, asked := none, initGot := false, initOk := false, cwBad := 0, cwSeq := none,
                              fresh := full || l.fresh, try100 := !full && l.try100, rate := r, woke := false }

/-- A full training starts from DETECT (R307). -/
def State.fullTrain (s : State) (n : Nat) : State :=
  if s.mayTrain n then
    let up := s.ts n == 5
    (s.toDetect n 1 up).updLk n fun l => { l with failedFull := 0, try100 := false }
  else s

/-- A write of 1 to LNK_CTL.FULL_TRAIN (R307). -/
def State.fullTrainCmd (s : State) (n : Nat) : State :=
  let t := s.fullTrain n
  if t.ts n = 1 then t.setF (LNK_CTL.adr n) LNK_CTL.FULL_TRAIN 1 else t

/-- In DETECT the transmitter tests for the far termination (R304 step 1). -/
def State.detectProbe (s : State) (n : Nat) (present : Bool) : State :=
  if s.ts n = 1 && present && s.mayTrain n then s.startLock n true else s

/-- The receiver holds clock lock: this is the rate the training locked at, and codewords start, from a scrambler state
and a CWSEQ that are free values (R295, R302, R304 steps 2, 3). -/
def State.rxLock (s : State) (n : Nat) : State :=
  if s.ts n = 2 then
    let w := Config.freeWord s.freeTick
    let s := ((s.flushCodewords n).setF (LNK_STAT.adr n) LNK_STAT.RX_LOCK 1).setTs n 3
    let r := s.at100 n
    s.tick.updLk n fun l => { l with lock100 := r, scram := w.setWidth 58, txSeq := (w >>> 58).toNat % 16 }
  else s

/-- RX_LOCK has not risen 45 ms after training started at 200 Gb/s under RATE = 0 (R305). -/
def State.fallback (s : State) (n : Nat) : State :=
  if s.ts n = 2 && s.trainRate n = 0 && (s.lk n).full then s.updLk n fun l => { l with try100 := true } else s

/-- AVAIL_v of the receiver (R316). -/
def State.availVc (s : State) (n v : Nat) : Nat :=
  (s.lk n).alloc.getD v 0 - s.fld (LNK_VC.adr n v) LNK_VC.OCC - s.fld (LNK_VC.adr n v) LNK_VC.PEND

/-- The INIT this side sends: its number, link, strap, whether it is fresh, its rate, TX_NEXT, ALLOC and AVAIL. -/
def State.ownInit (s : State) (n : Nat) : InitMsg :=
  { device := s.fld RT_DEVICE.adr RT_DEVICE.DEVICE, link := n, side := s.straps.buddySide, fresh := (s.lk n).fresh,
    rate100 := (s.lk n).lock100, txNext := s.txNext n,
    alloc := (numsFrom 0 8).map fun v => s.fld (LNK_VC.adr n v) LNK_VC.ALLOC,
    avail := (numsFrom 0 8).map fun v => s.availVc n v }

/-- The codeword boundary is found: CREDIT_INIT starts with INIT (R304 steps 3, 4). -/
def State.codewordLock (s : State) (n : Nat) : State :=
  if s.ts n = 3 then
    let s := s.setTs n 4
    let s := s.updLk n fun l => { l with cwBad := 0, initGot := false, initOk := false }
    s.askLctl n 0x10 (initBytes (s.ownInit n))
  else s

/-- A training in progress fails (R307): a fast one is followed by a full one, a full one returns to DETECT; after
RETRAIN_LIMIT full failures with the partner present the link is DOWN and a candidate for retirement.  A link that
woke from OFF and whose partner does not answer falls back to DETECT (R321). -/
def State.trainFail (s : State) (n : Nat) (partner : Bool) : State :=
  if s.ts n < 2 || 4 < s.ts n then s
  else s.orTrain n fun s =>
  if !(s.lk n).full && (s.lk n).woke && !partner then s.toDetect n 1 true
  else if !(s.lk n).full then s.startLock n true
  else if !partner then s.toDetect n 1 true
  else
    let k := (s.lk n).failedFull + 1
    let up := (s.lk n).wasUp
    let s := s.updLk n fun l => { l with failedFull := k }
    if s.fld (LNK_HEALTH.adr n) LNK_HEALTH.RETRAIN_LIMIT ≤ k then
      (s.toDetect n 6 true).lkSet n LNK_EVT.RETIRE_CAND 2
    else s.toDetect n 1 up

/-- A retraining starts (R307): fast, keeping the link-layer state; the starting side sends RETRAIN first. -/
def State.retrain (s : State) (n : Nat) (tell : Bool) : State :=
  if s.ts n = 5 then
    s.orTrain n fun s =>
      let s := if tell then s.sendLctl n 0x40 false [] else s
      let s := (s.setPs n 0).startLock n false
      s.updLk n fun l => { l with wasUp := true, fresh := false, waking := false }
  else s

/-- A write of 1 to LNK_CTL.RETRAIN (R307). -/
def State.retrainCmd (s : State) (n : Nat) : State :=
  let t := s.retrain n true
  if s.ts n = 5 && t.ts n = 2 then t.setF (LNK_CTL.adr n) LNK_CTL.RETRAIN 1 else t

/-! ## Acknowledgement and replay (R308 to R311) -/

/-- Flits before EXP_SEQ leave the replay buffer; progress restarts the count of replays (R308, R311). -/
def State.ackTo (s : State) (n exp : Nat) : State :=
  let k := (exp + 4096 - s.txOldest n) % 4096
  if k ≤ (s.lk n).replay.length && 0 < k then
    let s := s.updLk n fun l => { l with replay := l.replay.drop k, noProgress := 0 }
    (s.setF (LNK_SEQ.adr n) LNK_SEQ.TX_OLDEST exp).showReplay n
  else s

/-- A replay from number `start` (R310), or after REPLAY_LIMIT of them with the same oldest flit a retraining (R311). -/
def State.replayFrom (s : State) (n start : Nat) : State :=
  let l := s.lk n
  let k := (start + 4096 - s.txOldest n) % 4096
  if !l.replay.isEmpty && s.fld (LNK_HEALTH.adr n) LNK_HEALTH.REPLAY_LIMIT ≤ l.noProgress then
    (s.lkSet n LNK_EVT.REPLAY_LIMIT 1).retrain n true
  else
    let s := s.updLk n fun l => { l with noProgress := l.noProgress + b2n (!l.replay.isEmpty) }
    let s := s.satF (LNK_LOSS.adr n) LNK_LOSS.REPLAYS 1
    let s := s.sendLctl n 0x03 false (toBytes 2 start)
    (l.replay.drop k).foldl (fun s f => s.sendFlit n f) s

/-- REPLAY_TIMEOUT passes with the oldest flit unacknowledged (R310); a quiet link wakes to replay it (R319). -/
def State.replayTimeout (s : State) (n : Nat) : State :=
  if s.ts n ≠ 5 || (s.lk n).replay.isEmpty then s
  else if s.ps n = 0 then s.replayFrom n (s.txOldest n)
  else s.startWake n

/-- An LCTL ACK, or with NAK a request for replay (R308, R310). -/
def State.ackMsg (s : State) (n exp : Nat) (nak : Bool) : State :=
  let s := s.ackTo n exp
  if nak && s.ts n = 5 then s.replayFrom n exp else s

/-- An LCTL REPLAY: the wait ends and the following flits are numbered from START (R309, R310). -/
def State.replayMsg (s : State) (n exp start : Nat) : State :=
  (s.ackTo n exp).updLk n fun l => { l with awaiting := false, rxNum := start }

/-- A flit failed its CRC: counted, answered by a NAK, and REPLAY is awaited (R309). -/
def State.crcFail (s : State) (n : Nat) : State :=
  if (s.lk n).awaiting then s
  else
    let s := s.satF (LNK_ERRCNT.adr n) LNK_ERRCNT.CRC_ERR 1
    (s.sendLctl n 0x01 true []).updLk n fun l => { l with awaiting := true }

/-- Credits come back on channel `v` (R314). -/
def State.addCred (s : State) (n v k : Nat) : State :=
  if k = 0 then s else s.incF (LNK_VC.adr n v) LNK_VC.CRED k

/-- A flit of a packet enters the receive buffer under the framing of R301. -/
def State.rxFrame (s : State) (n vc type : Nat) (pl : List Byte) : State :=
  let l := s.lk n
  let isOpen := l.rxOpen.contains vc
  let put (s : State) (f : RxFlit) : State := s.updLk n fun l => { l with rx := l.rx ++ [f] }
  if type = 1 || type = 4 then
    let s := if isOpen then (put s ⟨vc, 7, [], false⟩).lkSet n LNK_EVT.PROTO 1 else s
    let s := (put s ⟨vc, type, pl, true⟩).incF (LNK_VC.adr n vc) LNK_VC.OCC 1
    s.updLk n fun l => { l with rxOpen := if type = 1 then nset l.rxOpen vc else l.rxOpen.filter fun v => v ≠ vc }
  else if isOpen then
    let s := (put s ⟨vc, type, pl, true⟩).incF (LNK_VC.adr n vc) LNK_VC.OCC 1
    s.updLk n fun l => { l with rxOpen := if type = 2 then l.rxOpen else l.rxOpen.filter fun v => v ≠ vc }
  else (s.incF (LNK_VC.adr n vc) LNK_VC.PEND 1).lkSet n LNK_EVT.PROTO 1

/-- An ACK is due when ACK_EVERY sequenced flits have been accepted since the last LCTL (R308). -/
def State.ackDue (s : State) (n : Nat) : State :=
  if s.fld (LNK_TIMING.adr n) LNK_TIMING.ACK_EVERY ≤ (s.lk n).sinceAck then s.sendLctl n 0x01 false [] else s

/-- A sequenced flit is accepted (R308): EXP_SEQ advances, its credit return is applied unless R316 has it ignored,
and packet flits go to the receive queue. -/
def State.acceptSeq (s : State) (n vc type cvc cc : Nat) (pl : List Byte) : State :=
  let num := s.rxExp n
  let ign := match (s.lk n).ignoreUntil with
    | none => false
    | some t => num ≠ t && (t + 4096 - num) % 4096 ≤ 2048
  let s := s.setF (LNK_SEQ.adr n) LNK_SEQ.RX_EXP ((num + 1) % 4096)
  let s := s.updLk n fun l => { l with rxNum := (num + 1) % 4096, sinceAck := l.sinceAck + 1,
                                       ignoreUntil := if ign then l.ignoreUntil else none }
  let s := if ign then s else s.addCred n cvc cc
  let s := if type = 5 then
      (if ign then s else (numsFrom 0 8).foldl (fun s v => s.addCred n v (bytesAt pl (2 * v) 2 % 2048)) s)
    else s.rxFrame n vc type pl
  s.ackDue n

/-- A sequenced flit numbered before EXP_SEQ after a REPLAY: discarded, counted in DUP (R310). -/
def State.dupFlit (s : State) (n : Nat) : State :=
  (s.satF (LNK_LOSS.adr n) LNK_LOSS.DUP 1).updLk n fun l => { l with rxNum := (l.rxNum + 1) % 4096 }

/-! ## Credits at CREDIT_INIT (R306, R313, R316) -/

/-- Allocations are valid: each at least 16, at most 1,024 in all (R313). -/
def allocOk (a : List Nat) : Bool := a.all (fun x => 16 ≤ x) && a.foldl (· + ·) 0 ≤ 1024

/-- Credit-consuming flits of channel `v` in the replay buffer. -/
def LinkSt.replayOn (l : LinkSt) (v : Nat) : Nat :=
  ((l.replay.map flitVcType).filter fun p => p.1 = v && consumesCredit p.2).length

/-- The credits after an acceptable INIT: fresh ones restart numbering at 0 with full allocations, others go on from
the reported AVAIL (R306, R312, R316). -/
def State.setCredits (s : State) (n exp : Nat) (m : InitMsg) : State :=
  if (s.lk n).fresh || m.fresh then
    let s := s.dropReplay n
    let s := s.wr (LNK_SEQ.adr n) 0
    let al := (numsFrom 0 8).map fun v => s.fld (LNK_VC.adr n v) LNK_VC.ALLOC
    let s := s.updLk n fun l => { l with alloc := al, rxNum := 0, sinceAck := 0, ignoreUntil := none, awaiting := false }
    (numsFrom 0 8).foldl (fun s v =>
      ((s.setF (LNK_VC.adr n v) LNK_VC.CRED (m.alloc.getD v 0)).setF (LNK_VC.adr n v) LNK_VC.OCC 0).setF
        (LNK_VC.adr n v) LNK_VC.PEND 0) s
  else
    let s := s.ackTo n exp
    let s := s.updLk n fun l => { l with ignoreUntil := some m.txNext, awaiting := false, rxNum := s.rxExp n }
    (numsFrom 0 8).foldl (fun s v =>
      s.setF (LNK_VC.adr n v) LNK_VC.CRED (m.avail.getD v 0 - (s.lk n).replayOn v)) s

/-- An LCTL INIT (R306): the far identity is recorded; a wrong identity, a different rate or invalid allocations keep
the link in CREDIT_INIT; otherwise credits are set and INIT_DONE answers. A further INIT only has that answer sent
again (R302). -/
def State.initMsg (s : State) (n exp : Nat) (m : InitMsg) : State :=
  if (s.ts n = 4 || s.ts n = 5) && (s.lk n).initGot then
    (if (s.lk n).initOk then s.sendLctl n 0x11 false [] else s)
  else if s.ts n ≠ 4 then s
  else
    let st := LNK_STAT.adr n
    let s := (((s.setF st LNK_STAT.FAR_DEVICE m.device).setF st LNK_STAT.FAR_LINK m.link).setF st
      LNK_STAT.FAR_SIDE (b2n m.side)).setF st LNK_STAT.FAR_VALID 1
    let s := s.updLk n fun l => { l with initGot := true }
    let e := LNK_EXPECT.adr n
    let other := s.has e LNK_EXPECT.CHECK &&
      (s.fld e LNK_EXPECT.DEVICE != m.device || s.fld e LNK_EXPECT.LINK != m.link)
    let bad := m.rate100 != (s.lk n).lock100 || !allocOk m.alloc
    let s := if other then s.lkSet n LNK_EVT.ID_MISMATCH 2 else s
    let s := if bad then s.lkSet n LNK_EVT.ALLOC_ERR 1 else s
    if other || bad then s
    else
      let s := s.setCredits n exp m
      (s.updLk n fun l => { l with initOk := true }).sendLctl n 0x11 false []

/-- An LCTL INIT_DONE completes CREDIT_INIT: the link is ACTIVE (R304 step 5, R305, R307). -/
def State.initDone (s : State) (n exp : Nat) : State :=
  if s.ts n = 4 && (s.lk n).initOk then
    let l := s.lk n
    let re := l.wasUp && !l.full
    let s := (((s.trainEnds n).setTs n 5).setPs n 0).setF (LNK_STAT.adr n) LNK_STAT.RATE_NOW (if l.lock100 then 2 else 1)
    let s := s.updLk n fun l => { l with fresh := false, failedFull := 0, wasUp := false, asked := none, noProgress := 0, woke := false, noAsk := [],
                                         winRetrain := l.winRetrain + b2n re }
    let s := s.lkSet n LNK_EVT.UP 0
    let s := if re then (s.satF (LNK_LOSS.adr n) LNK_LOSS.RETRAINS 1).lkSet n LNK_EVT.RETRAINED 0 else s
    let s := if s.trainRate n = 0 && l.lock100 then s.lkSet n LNK_EVT.FALLBACK 1 else s
    if (s.lk n).replay.isEmpty then s else s.replayFrom n (s.txOldest n)
  else s.ackTo n exp

/-! ## Power states (R318 to R321) -/

/-- The conditions under which a side may agree to QUIET or OFF (R318). -/
def State.quietReady (s : State) (n : Nat) : Bool :=
  s.ts n == 5 && s.ps n == 0 && (s.lk n).replay.isEmpty && (s.lk n).txq.isEmpty
    && (numsFrom 0 8).all fun v => !s.has (LNK_VC.adr n v) LNK_VC.PEND

/-- QUIET is entered; a side that by now has a flit to send starts its wake at once (R318, R327). -/
def State.enterQuiet (s : State) (n : Nat) : State :=
  let s := (s.setPs n 1).updLk n fun l => { l with asked := none }
  if (s.lk n).txq.isEmpty && (s.lk n).replay.isEmpty then s else s.startWake n

/-- An LCTL request stands unanswered. -/
def State.hasAsked (s : State) (n code : Nat) : Bool := (s.lk n).asked.any fun a => a.1 == code

/-- The request stands no more. -/
def State.unask (s : State) (n : Nat) : State := s.updLk n fun l => { l with asked := none }

/-- The side asks for QUIET when it may (R318). -/
def State.askQuiet (s : State) (n : Nat) : State :=
  if s.quietReady n && (s.lk n).asked.isNone then s.askLctl n 0x20 [] else s

/-- Step 2 of a device entry, to DORMANT or to HOLD, holds link `n` (R420). -/
def State.entryHolds (s : State) (n : Nat) (dorm : Bool) : Bool :=
  s.fld PWR_DEV_STAT.adr PWR_DEV_STAT.STATE == 3 && s.fld PWR_DEV_STAT.adr PWR_DEV_STAT.POINT == 1
    && s.power.devDorm == dorm && s.power.devLinks.contains n

/-- The link is to go to OFF: by ENABLE or PWR_REQ, before its slice, or on the way to DORMANT (R321, R417, R420). -/
def State.wantOff (s : State) (n : Nat) : Bool :=
  s.lctl n LNK_CTL.ENABLE == 0 || s.lctl n LNK_CTL.PWR_REQ == 2 || s.power.goingOff.contains (296 + n / 36)
    || s.entryHolds n true

/-- The link is to go to QUIET: by PWR_REQ or on the way to HOLD (R318, R420). -/
def State.wantQuiet (s : State) (n : Nat) : Bool := s.lctl n LNK_CTL.PWR_REQ == 1 || s.entryHolds n false

/-- What the link asks for by itself once it may (R318, R321): OFF, for which a quiet link wakes first, or QUIET; a link
that does not run goes off at once. -/
def State.linkAsks (s : State) (n : Nat) : State :=
  let l := s.lk n
  if s.wantOff n && s.ts n ≠ 5 then (if s.dom (152 + n) = 0 then s else s.linkOff n)
  else if s.ts n ≠ 5 || l.asked.isSome || l.farRetire || s.lctl n LNK_CTL.RETIRE = 1 then s
  else if s.wantOff n then
    (if l.noAsk.contains 0x30 then s
     else if s.ps n = 1 then s.startWake n
     else if s.quietReady n then s.askLctl n 0x30 []
     else s)
  else if s.wantQuiet n && !l.noAsk.contains 0x20 then s.askQuiet n
  else s

/-- The far side's RETIRE is answered once this side's own packets are completed, and the link is DOWN (R324 step 3). -/
def State.farReady (s : State) (n : Nat) : State :=
  let l := s.lk n
  if l.farRetire && s.ts n = 5 && l.replay.isEmpty && l.txq.isEmpty then (s.sendLctl n 0x50 false []).toDetect n 6 true
  else s

/-- What follows by itself from a change at link `n`. -/
def State.linkSettle (s : State) (n : Nat) : State := ((s.retireReady n).farReady n).linkAsks n

/-- QUIET_IDLE µs without sequenced flits (R318). -/
def State.quietIdle (s : State) (n : Nat) : State :=
  let s := s.updLk n fun l => { l with noAsk := l.noAsk.filter fun c => c ≠ 0x20 }
  if s.lctl n LNK_CTL.AUTO_QUIET = 1 || s.wantQuiet n then s.askQuiet n else s

/-- QUIET_REQ: agreed to when this side is ready or asks itself, refused otherwise; one already acted on has no further
effect (R302, R318, R327). -/
def State.quietReq (s : State) (n exp : Nat) : State :=
  let s := s.ackTo n exp
  if s.ps n = 1 then s
  else if s.hasAsked n 0x20 then s.enterQuiet n
  else if s.quietReady n then (s.sendLctl n 0x21 false []).enterQuiet n
  else if s.ts n = 5 then s.sendLctl n 0x22 false []
  else s

/-- QUIET_ACK: QUIET is entered (R318). -/
def State.quietAck (s : State) (n exp : Nat) : State :=
  let s := s.ackTo n exp
  if s.hasAsked n 0x20 then s.enterQuiet n else s

/-- QUIET_NAK: the request is refused, and not made again before a further QUIET_IDLE µs (R318). -/
def State.quietNak (s : State) (n exp : Nat) : State :=
  let s := s.ackTo n exp
  if s.hasAsked n 0x20 then (s.unask n).updLk n fun l => { l with noAsk := nset l.noAsk 0x20 } else s

/-- OFF_REQ: answered by OFF_ACK, and the side switches off (R321); a side that is waking does not answer (R327). -/
def State.offReq (s : State) (n exp : Nat) : State :=
  let s := s.ackTo n exp
  if (s.ts n = 5) && !(s.lk n).waking then (s.sendLctl n 0x31 false []).linkOff n else s

/-- OFF_ACK: the asking side switches off as well (R321). -/
def State.offAck (s : State) (n exp : Nat) : State :=
  let s := s.ackTo n exp
  if s.hasAsked n 0x30 then s.linkOff n else s

/-- A new reason to ask: what was refused or never answered may be asked again. -/
def State.askAgain (s : State) (n : Nat) : State := (s.updLk n fun l => { l with noAsk := [] }).linkAsks n

/-- An OFF link's domain is powered and its settings are restored: it trains, from DETECT or, when it is woken, fast
from the kept settings (R321), or runs its test (R326). -/
def State.linkPower (s : State) (n : Nat) (wake : Bool) : State :=
  if s.ps n = 2 && s.dom (152 + n) = 0 && s.lctl n LNK_CTL.ENABLE = 1 && s.lctl n LNK_CTL.RETIRE = 0
      && s.isOn (296 + n / 36) then
    let s := ((s.setDom (152 + n) 1).calPowerUp (winBase (.link n)) (152 + n)).setPs n 0
    if s.lctl n LNK_CTL.TEST ≠ 0 then s.setTs n 8
    else if wake then (s.startLock n false).updLk n fun l => { l with woke := true }
    else s.setTs n 1
  else s

/-- A side that leaves OFF powers its domain and sends the wake pattern (R321). -/
def State.linkWake (s : State) (n : Nat) : State :=
  let t := s.linkPower n true
  if s.ps n ≠ 2 || t.ps n = 2 then s else t.emit (.wakePattern n)

/-- A write of LNK_CTL.ENABLE (R321): 1 powers an OFF link whose PWR_REQ is 0 or 1, and starts a link that was disabled
in DOWN (R307). -/
def State.linkEnable (s : State) (n : Nat) (on : Bool) : State :=
  let was := s.lctl n LNK_CTL.ENABLE
  let s := s.setF (LNK_CTL.adr n) LNK_CTL.ENABLE (b2n on)
  if !on then s.askAgain n
  else if s.lctl n LNK_CTL.PWR_REQ = 2 then s
  else if s.ps n = 2 then s.linkPower n false
  else if was = 0 && s.ts n = 6 then s.fullTrain n
  else s

/-- A write of LNK_CTL.PWR_REQ (R318 to R321); 3 leaves it unchanged. -/
def State.pwrReq (s : State) (n : Nat) (r : Nat) : State :=
  if r = 3 then s
  else
    let s := s.setF (LNK_CTL.adr n) LNK_CTL.PWR_REQ r
    if r ≠ 2 && s.ps n = 2 then s.linkWake n
    else if r = 0 then s.startWake n
    else s.askAgain n

/-- The energy detector recognises a wake (R319 to R321): an arrival at event k = 3; a quiet side answers with its own
pattern, an OFF side is powered unless its PWR_REQ is 2.  The row is the recognition: which energy on the lane is one,
the pattern or with WAKE_ANY any for 200 ns, is decided before it (R320).  On an ACTIVE link whose QUIET_REQ is in
flight the entry is abandoned (R327). -/
def State.wakeSeen (s : State) (n : Nat) : State :=
  if s.lctl n LNK_CTL.ENERGY_DET = 0 || s.lctl n LNK_CTL.RETIRE = 1 then s
  else if s.ps n = 0 then (if s.hasAsked n 0x20 then s.unask n else s)
  else if s.ps n = 1 then (s.lkSet n LNK_EVT.WAKE_SEEN 3).startWake n
  else
    let s := s.lkEvent n 3
    if s.lctl n LNK_CTL.PWR_REQ = 2 then s
    else
      let s := s.linkPower n true
      if s.ps n = 2 then s else s.setF (LNK_EVT.adr n) LNK_EVT.WAKE_SEEN 1

/-- Some channel's credits are pending. -/
def State.anyPend (s : State) (n : Nat) : Bool := (numsFrom 0 8).any fun v => s.has (LNK_VC.adr n v) LNK_VC.PEND

/-- The 2 µs wake pattern ends and codewords resume (R319); credits that waited so long are returned (R314). -/
def State.wakeComplete (s : State) (n : Nat) : State :=
  if (s.lk n).waking && s.ps n = 1 then
    let s := (s.setPs n 0).updLk n fun l => { l with waking := false }
    if s.anyPend n then s.sendCrd n else s
  else s

/-! ## Retirement, test, health (R323, R324, R326) -/

/-- A write of LNK_CTL.RETIRE (R324): 1 takes the port out of service and retires it once its replay buffer is empty
and RETIRE is answered; 0 starts a full training. -/
def State.retireCmd (s : State) (n : Nat) (on : Bool) : State :=
  let was := s.lctl n LNK_CTL.RETIRE
  let s := s.setF (LNK_CTL.adr n) LNK_CTL.RETIRE (b2n on)
  if on then
    (if was = 1 then s
     else if s.ts n = 5 then s.updLk n fun l => { l with retiring := true }
     else if s.ps n = 2 then s
     else s.retired n)
  else if was = 0 then s
  else if s.ps n = 2 then s.linkPower n false
  else s.fullTrain n

/-- The 100 µs wait of a retiring link runs out: RETIRE is sent anyway (R324 step 2). -/
def State.retireWait (s : State) (n : Nat) : State :=
  if (s.lk n).retiring then (s.updLk n fun l => { l with retiring := false }).askLctl n 0x50 [] else s

/-- An LCTL RETIRE: the answer to this side's own, or the far side retires the link, which leaves service and is
answered once this side's packets are completed (R324 step 3). -/
def State.retireMsg (s : State) (n exp : Nat) : State :=
  let s := s.ackTo n exp
  if s.hasAsked n 0x50 then s.retired n
  else if s.ts n = 5 && !(s.lk n).farRetire then
    (s.lkSet n LNK_EVT.FAR_RETIRED 2).updLk n fun l => { l with farRetire := true }
  else s

/-- A write of LNK_CTL.TEST (R326): 4 to 7 leave it; a test takes the link out of service and training, 0 ends it
with a full training.  An OFF link runs its test when it is powered, a retired one does nothing. -/
def State.linkTest (s : State) (n mode : Nat) : State :=
  if 4 ≤ mode then s
  else
    let was := s.lctl n LNK_CTL.TEST
    let s := s.setF (LNK_CTL.adr n) LNK_CTL.TEST mode
    if s.ps n = 2 || s.lctl n LNK_CTL.RETIRE = 1 then s
    else if mode ≠ 0 then s.toDetect n 8 false
    else if was ≠ 0 then s.fullTrain n
    else s

/-- A WINDOW_MS window ends (R323). -/
def State.healthWindow (s : State) (n : Nat) : State :=
  let h := LNK_HEALTH.adr n
  let l := s.lk n
  let bad := (s.has h LNK_HEALTH.UNCORR_MAX && s.fld h LNK_HEALTH.UNCORR_MAX ≤ l.winUncorr)
    || (s.has h LNK_HEALTH.RETRAIN_MAX && s.fld h LNK_HEALTH.RETRAIN_MAX ≤ l.winRetrain)
  let s := s.updLk n fun l => { l with winUncorr := 0, winRetrain := 0 }
  if bad then s.lkSet n LNK_EVT.RETIRE_CAND 2 else s

/-- A received codeword (R296): counts, the flits of an uncorrectable one, and loss of lock after four bad in a row,
which retrains an ACTIVE link and sends one in CREDIT_INIT back to LOCK. -/
def State.codeword (s : State) (n : Nat) (c : Codeword) : State :=
  if s.ts n < 4 || 5 < s.ts n || s.ps n ≠ 0 then s
  else
    let bad := c.fec = .uncorrectable || c.sync ≠ 0x5A#8 ||
      (match (s.lk n).cwSeq with | none => false | some q => c.seq.toNat ≠ (q + 1) % 16)
    let k := if bad then (s.lk n).cwBad + 1 else 0
    let s := s.updLk n fun l => { l with cwBad := k, cwSeq := some c.seq.toNat,
                                         winUncorr := l.winUncorr + b2n (c.fec == .uncorrectable) }
    let s := match c.fec with
      | .clean => s
      | .corrected => s.satF (LNK_ERRCNT.adr n) LNK_ERRCNT.FEC_CORR 1
      | .uncorrectable => (s.satF (LNK_ERRCNT.adr n) LNK_ERRCNT.FEC_UNCORR 1).crcFail n
    if k < 4 then s else if s.ts n = 5 then s.retrain n true else s.orTrain n fun s => s.startLock n false

/-- An unanswered LCTL message is sent again, at most 8 times in all (R302), a request for QUIET or OFF only while its
conditions hold (R318, R321); an INIT without any INIT from the far side
fails the training in progress (R307), an unanswered RETIRE ends in RETIRED (R324). -/
def State.lctlResend (s : State) (n : Nat) : State :=
  match (s.lk n).asked with
  | none => s
  | some (code, k) =>
    if (code = 0x20 || code = 0x30) && !s.quietReady n then s.unask n
    else if k < 8 then
      let rest := if code = 0x10 then initBytes (s.ownInit n) else []
      (s.sendLctl n code false rest).updLk n fun l => { l with asked := some (code, k + 1) }
    else
      let s := (s.unask n).updLk n fun l => { l with noAsk := nset l.noAsk code }
      if code = 0x10 then (if (s.lk n).initGot then s else s.trainFail n true)
      else if code = 0x50 then s.retired n
      else s

/-- ACK_TIME passes with accepted flits unreported (R308). -/
def State.ackTime (s : State) (n : Nat) : State :=
  if 0 < (s.lk n).sinceAck && s.ts n = 5 then s.sendLctl n 0x01 false [] else s

/-- CRD_TIME passes with pending credits unreturned (R314). -/
def State.crdTime (s : State) (n : Nat) : State :=
  if s.anyPend n then s.sendCrd n else s

/-- A reserved LCTL code: ignored, PROTO set (R302). -/
def State.lctlReserved (s : State) (n exp : Nat) : State := (s.ackTo n exp).lkSet n LNK_EVT.PROTO 1

/-- The CRD row: a CRD flit with the expected number is accepted (R303, R314). -/
def State.crdFlit (s : State) (n cvc cc : Nat) (credits : List Nat) : State :=
  if s.ts n = 5 && s.ps n = 0 && !(s.lk n).awaiting then s.acceptSeq n 0 5 cvc cc (credits.flatMap (toBytes 2)) else s

/-- An LCTL message by its code (R302). -/
def State.lctlMsg (s : State) (n : Nat) (pl : List Byte) : State :=
  let code := bytesAt pl 0 1
  let exp := bytesAt pl 2 2 % 4096
  if code = 0x01 then s.ackMsg n exp (nbit 0 (bytesAt pl 1 1))
  else if code = 0x03 then s.replayMsg n exp (bytesAt pl 4 2)
  else if code = 0x10 then s.initMsg n exp (parseInit (pl.drop 4))
  else if code = 0x11 then s.initDone n exp
  else if code = 0x20 then s.quietReq n exp
  else if code = 0x21 then s.quietAck n exp
  else if code = 0x22 then s.quietNak n exp
  else if code = 0x30 then s.offReq n exp
  else if code = 0x31 then s.offAck n exp
  else if code = 0x40 then (s.ackTo n exp).retrain n false
  else if code = 0x50 then s.retireMsg n exp
  else s.lctlReserved n exp

/-- A flit arrives (R308 to R310): by its TYPE it is checked against the seed of an unsequenced flit or its expected
number; awaiting REPLAY, only unsequenced flits count. -/
def State.flitReceive (s : State) (n : Nat) (f : List Byte) : State :=
  if s.ts n < 4 || 5 < s.ts n || s.ps n ≠ 0 then s
  else
    let h := bytesAt f 0 2
    let ty := nbits 12 10 h
    let pl := (f.drop 2).take 58
    if !sequenced ty && flitOk f unseqSeed then (if ty = 6 then s.lctlMsg n pl else s)
    else if (s.lk n).awaiting then s
    else if sequenced ty && flitOk f (s.lk n).rxNum then
      (if (s.lk n).rxNum ≠ s.rxExp n then s.dupFlit n
       else s.acceptSeq n (nbits 15 13 h) ty (nbits 9 7 h) (h % 128) pl)
    else s.crcFail n

/-! ## The slice's side -/

/-- The slice takes a flit from the receive buffer (R314): its credit becomes pending, and a CRD flit goes out when
the threshold is reached.  The bytes of a packet that ends are handed over with its channel. -/
def State.flitDequeue (s : State) (n : Nat) : State × Option (Nat × List Byte) :=
  match (s.lk n).rx with
  | [] => (s, none)
  | f :: r =>
    let part := (s.lk n).rxPart.get [] f.vc
    let whole := if f.type = 1 || f.type = 4 then f.payload else part ++ f.payload
    let keep := if f.type = 1 || f.type = 2 then whole else []
    let s := s.updLk n fun l => { l with rx := r, rxPart := l.rxPart.put [] f.vc keep }
    let s := if f.counted then
        (s.decF (LNK_VC.adr n f.vc) LNK_VC.OCC 1).incF (LNK_VC.adr n f.vc) LNK_VC.PEND 1 else s
    let s := if s.fld (LNK_TIMING.adr n) LNK_TIMING.CRD_THRESH ≤ s.fld (LNK_VC.adr n f.vc) LNK_VC.PEND
      then s.sendCrd n else s
    (s, if f.type = 3 || f.type = 4 then some (f.vc, whole) else none)

/-- The slice gives the transmitter packet `p` on channel `vc`; a quiet link is woken (R319, R338).  `back` is the packet
as the slice gets it back where none of it is sent (R322). -/
def State.giveLink (s : State) (n vc : Nat) (p : Packet) (back : RtPkt) : State :=
  let b := packetBytes p
  let s := s.updLk n fun l => { l with txq := l.txq ++ [TxPkt.mk vc b (packetFlits b) false back] }
  s.startWake n

end Sys2Proof.Machine
end

