-- ==== Sys2Proof/Machine/TimeBase.lean ====
section
/-!
DEFINITION. Global time, the AON counter and their alarms (spec/13, R431 to R436).
-/

namespace Sys2Proof.Machine

/-- `s` with global time `g`. -/
def State.setGt (s : State) (g : Word) : State := { s with clock := { s.clock with gt := g } }

/-- Time has moved from `old`: TIME_ALARM gives one arrival the first time it is reached or passed after a write;
all ones never fires (R435). -/
def State.alarmCheck (s : State) (old : Word) : State :=
  let al := s.rd TIME_ALARM.adr
  if s.clock.timeArmed && al ≠ BitVec.allOnes 64 && old.toNat < al.toNat && al.toNat ≤ s.clock.gt.toNat then
    { s with clock := { s.clock with timeArmed := false } }.pulse 7170
  else s

/-- A correction of `x` tbu, signed (R432): above STEP_MIN time steps forward at once, else it replaces SLEW_LEFT. -/
def State.correct (s : State) (x : Word) : State :=
  let st := TIME_STATUS.adr
  if (s.fld TB_CTL.adr TB_CTL.STEP_MIN : Int) < x.toInt then
    let old := s.clock.gt
    let s := s.setGt (old + x)
    let s : State := { s.wr SLEW_LEFT.adr 0 with clock := { s.clock with slewed := 0 } }
    let s := ((s.setF st TIME_STATUS.SLEWING 0).setF st TIME_STATUS.STEPPED 1).setF st TIME_STATUS.VALID 1
    (s.pulse 7169).alarmCheck old
  else
    let s : State := { s.wr SLEW_LEFT.adr x with clock := { s.clock with slewed := 0 } }
    s.setF st TIME_STATUS.SLEWING (if x = 0 then 0 else 1)

/-- An offset the router applies: a correction that also clears INTERP, with event 7,168 (R434, R436). -/
def State.routerOffset (s : State) (x : Word) : State :=
  let st := TIME_STATUS.adr
  let s := if s.has st TIME_STATUS.INTERP then (s.setF st TIME_STATUS.INTERP 0).pulse 7168 else s
  s.correct x

/-- SLEW_LEFT reaches 0: the time base returns to TB_INCR (R432). -/
def State.slewEnd (s : State) : State :=
  (s.wr SLEW_LEFT.adr 0).setF TIME_STATUS.adr TIME_STATUS.SLEWING 0

/-- A change of the AON counter's source (R433). -/
def State.sourceChange (s : State) (internal : Bool) : State :=
  let s := { s with clock := { s.clock with internal := internal, srcMoved := true } }
  if s.isOn 302 then
    let s := s.setF TIME_STATUS.adr TIME_STATUS.XTAL_ABSENT (b2n internal)
    (s.setF TIME_STATUS.adr TIME_STATUS.SRC_CHANGED 1).pulse 7171
  else { s with clock := { s.clock with srcChanged := true } }

/-- No crystal edge for 1 ms: the internal oscillator takes over (R433). -/
def State.xtalAbsent (s : State) : State := if s.clock.internal then s else s.sourceChange true

/-- 1,024 good crystal edges: the counter returns to the crystal (R433). -/
def State.xtalReturn (s : State) : State := if s.clock.internal then s.sourceChange false else s

/-- A measurement of the AON period ends; only while the time base runs (R433). -/
def State.periodMeasure (s : State) (p : BitVec 40) : State :=
  if s.isOn 302 then s.setF AON_PERIOD.adr AON_PERIOD.PERIOD p.toNat else s

/-- Global time reaches TIME_ALARM, which has not fired since it was written (R435). -/
def State.timeAlarm (s : State) : State :=
  let al := s.rd TIME_ALARM.adr
  if s.isOn 302 && s.clock.timeArmed && al ≠ BitVec.allOnes 64 && s.clock.gt.toNat < al.toNat then (s.setGt al).alarmCheck s.clock.gt else s

/-- The AON count reaches AON_ALARM, which has not fired since it was written (R435). -/
def State.aonAlarm (s : State) : State :=
  let al := s.fld AON_ALARM.adr AON_ALARM.COUNT
  if s.clock.aonArmed && al ≠ 0xFFFFFFFFFFFF then
    { s with clock := { s.clock with aon := BitVec.ofNat 48 al, aonArmed := false } }.event 7041
  else s

/-- A write of TIME_ALARM arms it (R435). -/
def State.writeTimeAlarm (s : State) (v : Word) : State :=
  let s := s.wr TIME_ALARM.adr v
  { s with clock := { s.clock with timeArmed := true } }

/-- What a REFCLK period adds to global time, in 2^-64 s (R432): TB_INCR, and while a slew runs more or less of it by
SLEW_PPM; a fraction of a unit is dropped. -/
def State.increment (s : State) : Nat × Nat :=
  let inc := s.fld TB_INCR.adr TB_INCR.INCR
  let left := (s.rd SLEW_LEFT.adr).toInt
  let d := inc * s.fld TB_CTL.adr TB_CTL.SLEW_PPM / 1000000
  if left = 0 then (inc, 0) else if left < 0 then (inc - d, d) else (inc + d, d)

/-- A REFCLK period passes at the time base (R432): time advances, SLEW_LEFT moves towards 0 by the whole tbu slewed,
and TIME_ALARM is compared. -/
def State.refclk (s : State) : State :=
  if !s.isOn 302 then s
  else
    let old := s.clock.gt
    let left := (s.rd SLEW_LEFT.adr).toInt
    let (inc, d) := s.increment
    let n := old.toNat * 2 ^ 32 + s.clock.frac.toNat + inc
    let m := s.clock.slewed + d
    let s := { s with clock := { s.clock with gt := BitVec.ofNat 64 (n / 2 ^ 32), frac := BitVec.ofNat 32 n } }
    let s := if left = 0 then s
      else if left.natAbs ≤ m / 2 ^ 32 then { s.slewEnd with clock := { s.clock with slewed := 0 } }
      else ({ s with clock := { s.clock with slewed := m % 2 ^ 32 } } : State).wr SLEW_LEFT.adr
        (BitVec.ofInt 64 (if left < 0 then left + (m / 2 ^ 32 : Nat) else left - (m / 2 ^ 32 : Nat)))
    s.alarmCheck old

/-- The AON counter ticks and is compared with AON_ALARM (R433, R435). -/
def State.aonTick (s : State) : State :=
  let n := s.clock.aon + 1
  let s := { s with clock := { s.clock with aon := n } }
  if s.clock.aonArmed && s.fld AON_ALARM.adr AON_ALARM.COUNT ≠ 0xFFFFFFFFFFFF && n.toNat = s.fld AON_ALARM.adr AON_ALARM.COUNT
  then { s with clock := { s.clock with aonArmed := false } }.event 7041
  else s

/-- 10 ns pass, a REFCLK period: the time base and, every 100,000,000 / 32,768 of them, the AON counter advance
(R432, R433; assumption log entry 4). -/
def State.clockTick (s : State) : State :=
  if !s.power.aonGood then s
  else
    let s := s.refclk
    let p := s.clock.phase + 32768
    let s := { s with clock := { s.clock with phase := p % 100000000 } }
    if p < 100000000 then s else s.aonTick

/-- The time base, powered up, shows what drives the AON counter, and reports a change that came while it was off
(R433). -/
def State.reportSource (s : State) : State :=
  let s := s.setF TIME_STATUS.adr TIME_STATUS.XTAL_ABSENT (b2n s.clock.internal)
  if s.clock.srcChanged then
    ({ s with clock := { s.clock with srcChanged := false } }.setF TIME_STATUS.adr TIME_STATUS.SRC_CHANGED 1).pulse 7171
  else s

/-- Time across DORMANT (R434): interpolated from the AON count, with its error bound. -/
def State.interpolate (s : State) : State :=
  let gt0 := s.fld GT_AT_SLEEP.adr GT_AT_SLEEP.GT
  let a0 := s.fld AON_AT_SLEEP.adr AON_AT_SLEEP.COUNT
  let p := s.fld PERIOD_AT_SLEEP.adr PERIOD_AT_SLEEP.PERIOD
  let d := (s.clock.aon.toNat + 2 ^ 48 - a0) % 2 ^ 48
  let r := if s.clock.srcMoved then 50000 else if s.clock.internal then 500 else 20
  -- period_us = p × 10^6 / 2^48, elapsed_s = d / 2^15
  let b := (2 * p * 1000000 + 2 ^ 48 - 1) / 2 ^ 48 + (d * r + 2 ^ 15 - 1) / 2 ^ 15
  let st := TIME_STATUS.adr
  let moved := s.clock.srcMoved
  let s := s.setGt (BitVec.ofNat 64 (gt0 + d * p / 2 ^ 16))
  let s := ((s.setF st TIME_STATUS.INTERP 1).setF st TIME_STATUS.VALID 1).setF st TIME_STATUS.BOUND (min (2 ^ 32 - 1) b)
  (if moved then s.setF st TIME_STATUS.SRC_CHANGED 1 else s).reportSource

end Sys2Proof.Machine
end

