-- ==== Sys2Proof/Machine/Router.lean ====
section
/-!
DEFINITION. The router (spec/11, R329 to R342, R357, R358): injection, routing, responses, the time exchange.
-/

namespace Sys2Proof.Machine

/-- The device's own number (RT_DEVICE.DEVICE). -/
def State.ownDev (s : State) : Nat := s.fld RT_DEVICE.adr RT_DEVICE.DEVICE
/-- RT_DEVICE.VALID. -/
def State.devValid (s : State) : Bool := s.has RT_DEVICE.adr RT_DEVICE.VALID
/-- RT_EPOCH.INJ_BANK. -/
def State.injBank (s : State) : Bool := s.has RT_EPOCH.adr RT_EPOCH.INJ_BANK

/-- A bit of RT_EVT of slice `i` is set, with the arrival R360 gives it: k = 0 NOROUTE, HOPLIMIT, BADPKT;
1 TIMEOUT, LATE_RESP; 2 FILTERED, HDR_ERR. -/
def State.rtSet (s : State) (i : Nat) (f : Fld) (k : Nat) : State :=
  (s.setF (RT_EVT.adr i) f 1).event (7456 + 16 * i + k)

/-- A malformed packet is discarded (R335). -/
def State.badPkt (s : State) (i : Nat) : State :=
  (s.satF (RT_DISC.adr i) RT_DISC.BADPKT 1).rtSet i RT_EVT.BADPKT 0

/-- Internal port (d, i) is in service: both ends are on (R329). -/
def State.intUp (s : State) (d i : Nat) : Bool := s.isOn (136 + d) && s.isOn (296 + i)

/-- The slice by which die `d` sends a packet for device `dest`: (d, DEST mod 4), or the next in service (R330). -/
def State.portSlice (s : State) (d dest : Nat) : Option Nat :=
  ((numsFrom 0 4).map fun k => (dest + k) % 4).find? fun i => s.intUp d i

/-- A packet of this device enters slice `i`, stamped with INJ_BANK and its own number (R340, R341). -/
def State.inject (s : State) (i : Nat) (p : Packet) : State :=
  { s with rtWait := s.rtWait ++ [RtPkt.new i (injectVc p) { p with epb := s.injBank, src := s.ownDev, hops := 0 }] }

/-- The response to a request: its TAG, SRCID and ADDR, sent to its SRC (R332, R333). -/
def responseTo (p : Packet) (status : Nat) (data : List Byte) (mask : List Bool) : Packet :=
  { dest := p.src, src := p.dest, op := p.respOp, resp := true, oversize := false, len := data.length, tag := p.tag,
    hops := 0, status := status, srcid := p.srcid, epb := p.epb, body := p.body.take 8, data := data, mask := mask }

/-- Slice `i` answers request `p` with a status and no data. -/
def State.answer (s : State) (i : Nat) (p : Packet) (status : Nat) : State := s.inject i (responseTo p status [] [])

/-- A refusal at the target (R343): FILTERED is set and counted, and slice `i`, where the request entered, answers
(R331, R347). -/
def State.refuseReq (s : State) (i : Nat) (p : Packet) : State :=
  ((s.satF (RT_LOSS.adr i) RT_LOSS.FILTERED 1).rtSet i RT_EVT.FILTERED 2).answer i p 0x0C

/-- The packet is a request that a response answers (R333). -/
def asksAnswer (p : Packet) : Bool := !(p.resp || p.op == 6 || p.op == 7 || p.op == 8)

/-! ## Upsets in a slice's buffers (R234, R236, R244) -/

/-- The error log of router slice `i` (R260, R360, R361). -/
def sliceLog (i : Nat) : ErrLog := ⟨sliceBlk i + 0x4000, 7459 + 16 * i, 7460 + 16 * i, some (7461 + 16 * i)⟩

/-- A waiting packet as the slice's buffers deliver it: a word of its data that is not correctable comes poisoned; the
errors found, and whether one of them spoils another word, which this model takes as header (R244; DEDUCED, assumption
log entry 61). -/
def RtPkt.read (r : RtPkt) : Packet × List Upset × Bool :=
  let b := packetBytes r.p
  let x := readFlips r.flips 0 b (List.replicate ((b.length + 3) / 4) false)
  let lo := 16 + r.p.body.length
  let skew := if r.p.op = 1 || r.p.op = 3 then r.p.addr % 4 else 0
  let bad := x.2.2.filter fun u => u.x.cls == .uncorrectable
  let hit (j : Nat) : Bool := bad.any fun u => lo ≤ u.off && 4 * j ≤ u.off - lo + 3 + skew && u.off - lo + skew ≤ 4 * j + 3
  ({ r.p with data := (x.1.drop lo).take r.p.data.length, mask := r.p.mask.zipIdx.map fun m => m.1 || hit m.2 },
   x.2.2, bad.any fun u => u.off < lo || lo + r.p.data.length ≤ u.off)

/-- Slice `i` reads a packet out of its buffers: errors are logged; a packet with a spoilt header is discarded and
counted, a request answered, and a response passed on as one that reports the loss (R244, R343).  The port and the
place in the buffers that the log shows are free values. -/
def State.readPkt (s : State) (i : Nat) (r : RtPkt) : State × Option Packet :=
  let (p, us, lost) := r.read
  let w := (Config.freeWord s.freeTick).toNat
  let s := if us.isEmpty then s else (s.logFlips (sliceLog i) 7 (w % 32) (w / 32) us).tick
  if !lost then (s, some p)
  else
    let s := (s.satF (RT_LOSS.adr i) RT_LOSS.HDR_ERR 1).rtSet i RT_EVT.HDR_ERR 2
    if r.p.resp then (s, some { r.p with status := 0x0C, len := 0, data := [], mask := [] })
    else if !asksAnswer r.p then (s, none)
    else if r.p.dest = s.ownDev then (s.refuseReq i r.p, none)
    else (s.answer i r.p 0x0C, none)

/-- Packets in slice `i` whose EPB differs from INJ_BANK (RT_STAT.OLD_PKTS). -/
def State.oldPkts (s : State) (i : Nat) : Nat :=
  (s.rtWait.filter fun r => r.slice == i && r.p.epb != s.injBank).length

/-- RT_STAT of slice `i` as read. -/
def State.readRtStat (s : State) (i : Nat) : Word :=
  BitVec.ofNat 64 (min 0xFFFF (s.oldPkts i) * 2 ^ 48
    + (numsFrom 0 8).foldl (fun n d => if s.intUp d i then n + 2 ^ d else n) 0)

/-- The old bank's packets have left slice `i` after a write of INJ_BANK: the epoch event arrives (R340). -/
def State.oldDrained (s : State) (i : Nat) : State :=
  if s.epochWait.contains i && s.oldPkts i = 0 then
    { s with epochWait := s.epochWait.filter fun j => j ≠ i }.event (7456 + 16 * i + 6)
  else s

/-- A write of RT_EPOCH.INJ_BANK (R340). -/
def State.setBank (s : State) (v : Word) : State :=
  let s := s.setF RT_EPOCH.adr RT_EPOCH.INJ_BANK (fget RT_EPOCH.INJ_BANK v)
  { s with epochWait := [0, 1, 2, 3] }

/-- A packet is not routed (R339): counted in `f`, and a request is answered NO_RESPONDER. -/
def State.routeFault (s : State) (i : Nat) (p : Packet) (evt disc : Fld) : State :=
  let s := (s.satF (RT_DISC.adr i) disc 1).rtSet i evt 0
  if asksAnswer p then s.answer i p 0x0B else s

/-- An engine's packet for the far side of link `n` leaves by it, from slice `i` (R336, R366); a device without a number
sends none (R339). -/
def State.sendHop (s : State) (i n vc : Nat) (p : Packet) : State :=
  if s.devValid then s.giveLink n vc p (RtPkt.new i vc p) else s.routeFault i p RT_EVT.NOROUTE RT_DISC.NOROUTE

/-- The candidate ports of an entry, lowest k first (R337). -/
def entryPorts (w : Word) : List Nat :=
  ((numsFrom 0 4).filter fun k => nbit k (fget RT_ENTRY.CVALID w)).map fun k => nbits (8 * k + 7) (8 * k) w.toNat

/-- The usable candidates for a packet at slice `i` (R337). -/
def State.usable (s : State) (i : Nat) (p : Packet) : List Nat :=
  (entryPorts (s.rd (RT_ENTRY.adr i (b2n p.epb) p.dest))).filter fun n => n < 144 && s.linkUp n

/-- Credits of link `n` on channel `vc` that no packet already given to it is to take for its first flit (R338; DEDUCED,
assumption log entry 71). -/
def State.cred (s : State) (n vc : Nat) : Nat :=
  s.fld (LNK_VC.adr n vc) LNK_VC.CRED - ((s.lk n).txq.filter fun t => t.vc == vc && !t.begun).length

/-- Among ports with a credit, the one with the most, the earliest on a tie (R338). -/
def State.mostCred (s : State) (vc : Nat) : List Nat → Option Nat
  | [] => none
  | n :: r =>
    match s.mostCred vc r with
    | none => if s.cred n vc = 0 then none else some n
    | some m => if s.cred m vc ≤ s.cred n vc then some n else some m

/-- The escape candidate with a credit on channel `vc` (R338). -/
def State.escape (s : State) (vc : Nat) (cands : List Nat) : Option (Nat × Nat) :=
  match cands with
  | [] => none
  | e :: _ => if s.cred e vc = 0 then none else some (e, vc)

/-- The port and channel a packet on `vc` takes now, none where it must wait (R338): ACTIVE candidates by credit,
then any usable one, then the escape candidate on the escape channel; channels 1, 3 and 4 take the escape candidate.
With `esc`, a packet that waits takes the escape channel first. -/
def State.routeChoice (s : State) (vc : Nat) (cands : List Nat) (esc : Bool) : Option (Nat × Nat) :=
  if vc = 0 || vc = 2 then
    let own := match s.mostCred vc (cands.filter fun n => s.ps n == 0) with
      | some n => some n
      | none => s.mostCred vc cands
    match own, s.escape (vc + 1) cands with
    | some n, some e => some (if esc then e else (n, vc))
    | some n, none => some (n, vc)
    | none, e => e
  else s.escape vc cands

/-- The first waiting packet equal to `r` leaves the slice's buffers. -/
def State.takeWait (s : State) (r : RtPkt) : State := { s with rtWait := s.rtWait.erase r }

/-- A packet waits in the slice's buffers. -/
def State.putWait (s : State) (r : RtPkt) : State := { s with rtWait := s.rtWait ++ [r] }

/-- What becomes of a packet for another device: a fault that is counted, a port and channel, or it waits. -/
inductive Way where
  | fault (evt disc : Fld)
  | out (n vc : Nat)
  | wait
deriving DecidableEq, Repr

/-- The way of the packet `r` (R337 to R339).  An engine's packet whose link left service before it was sent has no
usable candidate.  A waiting packet with a credit on its own and on the escape channel takes either, as a free value
decides (R363). -/
def State.wayOf (s : State) (r : RtPkt) : Way :=
  let p := r.p
  if p.op = 6 || p.op = 7 || p.op = 8 || (!s.devValid && p.hops = 0 && p.src = s.ownDev) then
    .fault RT_EVT.NOROUTE RT_DISC.NOROUTE
  else
    match s.usable r.slice p with
    | [] => .fault RT_EVT.NOROUTE RT_DISC.NOROUTE
    | c =>
      if p.hops + 1 = 64 then .fault RT_EVT.HOPLIMIT RT_DISC.HOPLIMIT
      else
        match s.routeChoice r.vc c (r.waited && (Config.freeWord s.freeTick).getLsbD 0) with
        | none => .wait
        | some (n, v) => .out n v

/-- The packet `r`, out of its slice's buffers, takes its way. -/
def State.goWay (s : State) (r : RtPkt) (w : Way) : State :=
  match w with
  | .wait => s.putWait { r with waited := true }
  | .fault evt disc =>
    (match s.readPkt r.slice r with
     | (s, none) => s
     | (s, some p) => s.routeFault r.slice p evt disc)
  | .out n v =>
    match s.readPkt r.slice r with
    | (s, none) => s
    | (s, some p) => s.giveLink n v { p with hops := p.hops + 1 } { r with p := p, flips := [] }

/-- Slice `i` routes packet `p` on channel `vc` (R337 to R339): out by a port with HOPS raised, answered where it has
no route, or left waiting. A packet for this device waits for the command that performs it. -/
def State.route (s : State) (i vc : Nat) (p : Packet) : State :=
  let r := (s.rtWait.find? fun r => r.slice == i && r.vc == vc && r.p == p).getD (RtPkt.new i vc p)
  if !s.isOn (296 + i) then s
  else
  let s := s.takeWait r
  if p.dest = s.ownDev && s.devValid then s.putWait r
  else
    let t := s.goWay r (s.wayOf r)
    if r.waited then t.tick else t

/-- A packet ends at slice `i` on channel `vc`: discarded where R335 says so, else it is in the slice. -/
def State.packetIn (s : State) (i vc : Nat) (bs : List Byte) : State :=
  match parsePacket bs with
  | none => s.badPkt i
  | some p =>
    if !vcOk vc p || ((p.op = 6 || p.op = 7 || p.op = 8) && p.dest ≠ s.ownDev) then s.badPkt i
    else s.putWait (RtPkt.new i vc p)

/-- Whatever channel it waits on, packet `p` for this device is taken out of slice `i`'s buffers by the command that
performs it; none where its header is spoilt (R244). -/
def State.takeIn (s : State) (i : Nat) (p : Packet) : State × Option Packet :=
  match s.rtWait.find? fun r => r.slice == i && r.p == p with
  | none => (s, some p)
  | some r => (s.takeWait r).readPkt i r

/-- What a command does with packet `p` of slice `i`, a slice that is on (R32, R244). -/
def State.withPkt (s : State) (i : Nat) (p : Packet) (f : State → Packet → State) : State :=
  if !s.isOn (296 + i) then s
  else
    match s.takeIn i p with
    | (s, none) => s
    | (s, some p) => f s p

/-! ## The network time exchange (R357, R358) -/

/-- LOCKED is cleared and LOST set, with event 7,521 (R358). -/
def State.tsLost (s : State) : State :=
  let a := TSYNC_STAT.adr
  if s.has a TSYNC_STAT.LOCKED then
    ((s.setF a TSYNC_STAT.LOCKED 0).setF a TSYNC_STAT.LOST 1).event 7521
  else s

/-- A TIME packet's body (R333). -/
def timeBody (kind stratum : Nat) (notLocked : Bool) (seq : Nat) (t1 t2 t3 : Word) : List Byte :=
  toBytes 1 kind ++ toBytes 1 stratum ++ toBytes 1 (b2n notLocked) ++ toBytes 1 0 ++ toBytes 2 seq ++ toBytes 2 0
    ++ toBytes 8 t1.toNat ++ toBytes 8 t2.toNat ++ toBytes 8 t3.toNat

/-- The parent link of an enabled device leaves service: the lock is lost (R358). -/
def State.timeLink (s : State) (n : Nat) : State :=
  let c := TSYNC_CTL.adr
  if s.has c TSYNC_CTL.ENABLE && !s.has c TSYNC_CTL.MASTER && s.fld c TSYNC_CTL.PARENT = n && !s.linkUp n then s.tsLost
  else s

/-- A TIME packet with this body (R332, R333). -/
def State.timePkt (s : State) (dest : Nat) (resp : Bool) (tag srcid : Nat) (body : List Byte) : Packet :=
  { dest := dest, src := s.ownDev, op := 7, resp := resp, oversize := false, len := 0, tag := tag, hops := 1,
    status := 0, srcid := srcid, epb := s.injBank, body := body, data := [], mask := [] }

/-- PERIOD µs have passed: a REQ left unanswered counts as missed, and a new REQ goes to the parent where its link is in
service (R357, R358). -/
def State.timeStart (s : State) (t1 : Word) : State :=
  let c := TSYNC_CTL.adr
  if !s.has c TSYNC_CTL.ENABLE || s.has c TSYNC_CTL.MASTER then s
  else
    let n := s.fld c TSYNC_CTL.PARENT
    let a := TSYNC_STAT.adr
    let s := if s.tsync.answered then s else s.satF a TSYNC_STAT.MISSED 1
    let s := if 3 ≤ s.fld a TSYNC_STAT.MISSED || !s.linkUp n then s.tsLost else s
    let q := (s.tsync.seq + 1) % 65536
    let s := { s with tsync := { s.tsync with seq := q, answered := !s.linkUp n, t1 := t1 } }
    if s.linkUp n then
      s.sendHop (n / 36) n 7
        (s.timePkt (s.fld (LNK_STAT.adr n) LNK_STAT.FAR_DEVICE) false 0 0 (timeBody 0 0 false q t1 0 0))
    else s

/-- A TIME REQ is answered with the stamps, this device's STRATUM, and NOTLOCKED when it is neither an enabled MASTER
nor LOCKED, on the link it came by while that is in service (R336, R357, R358). -/
def State.timeReq (s : State) (n : Nat) (p : Packet) (t2 t3 : Word) : State :=
  s.withPkt (n / 36) p fun s p =>
  let c := TSYNC_CTL.adr
  let master := s.has c TSYNC_CTL.ENABLE && s.has c TSYNC_CTL.MASTER
  let lock := master || (s.has c TSYNC_CTL.ENABLE && s.has TSYNC_STAT.adr TSYNC_STAT.LOCKED)
  let stratum := if master then 0 else s.fld TSYNC_STAT.adr TSYNC_STAT.STRATUM
  if s.linkUp n then
    s.sendHop (n / 36) n 7 (s.timePkt p.src true p.tag p.srcid
      (timeBody 1 stratum (!lock) (bytesAt p.body 4 2) (BitVec.ofNat 64 (bytesAt p.body 8 8)) t2 t3))
  else s

/-- Saturation at ±(2^31 − 1) of TSYNC_MEAS.OFFSET, as its 32-bit field. -/
def satOffset (x : Int) : Nat := (BitVec.ofInt 32 (max (-(2 ^ 31 - 1)) (min (2 ^ 31 - 1) x))).toNat

/-- A TIME RESP to the latest REQ (R357, R358): the offset and delay are recorded; without NOTLOCKED the offset goes
to the time base, STRATUM follows the parent and lock is judged. -/
def State.timeResp (s : State) (n : Nat) (p : Packet) (t4 : Word) : State :=
  s.withPkt (n / 36) p fun s p =>
  if bytesAt p.body 4 2 ≠ s.tsync.seq || s.tsync.answered then s
  else
    let t1 : Int := bytesAt p.body 8 8
    let t2 : Int := bytesAt p.body 16 8
    let t3 : Int := bytesAt p.body 24 8
    let a : Int := (BitVec.ofNat 16 (s.fld (TSYNC_ASYM.adr n) TSYNC_ASYM.ASYM)).toInt
    let off : Int := ((t2 - t1) - ((t4.toNat : Int) - t3) - a) / 2
    let delay : Int := (((t4.toNat : Int) - t1) - (t3 - t2)) / 2
    let st := TSYNC_STAT.adr
    let s := s.setF TSYNC_MEAS.adr TSYNC_MEAS.OFFSET (satOffset off)
    let s := s.setF TSYNC_MEAS.adr TSYNC_MEAS.DELAY (BitVec.ofInt 32 delay).toNat
    let s := s.setF st TSYNC_STAT.MISSED 0
    let s := { s with tsync := { s.tsync with answered := true } }
    if nbit 0 (bytesAt p.body 2 1) then s
    else
      let s := s.routerOffset (BitVec.ofInt 64 off)
      let s := s.setF st TSYNC_STAT.STRATUM (min 255 (bytesAt p.body 1 1 + 1))
      -- 5 ns is 5 × 2^32 / 10^9 tbu
      let near := decide (off.natAbs * 1000000000 ≤ 5 * 2 ^ 32)
      let far := decide (50 * 2 ^ 32 < off.natAbs * 1000000000)
      let g := if near then s.tsync.good + 1 else 0
      let s := { s with tsync := { s.tsync with good := g } }
      if far then s.tsLost
      else if 4 ≤ g && !s.has st TSYNC_STAT.LOCKED then
        ((s.setF st TSYNC_STAT.LOCKED 1).setF st TSYNC_STAT.GAINED 1).event 7520
      else s

/-- A write of TSYNC_CTL: a PERIOD of 0 stores 1; an enabled MASTER is LOCKED with STRATUM 0 (R358). -/
def State.writeTsync (s : State) (v : Word) : State :=
  let c := TSYNC_CTL.adr
  let st := TSYNC_STAT.adr
  let was := s.has c TSYNC_CTL.ENABLE && s.has c TSYNC_CTL.MASTER
  let s := ((s.setF c TSYNC_CTL.ENABLE (fget TSYNC_CTL.ENABLE v)).setF c TSYNC_CTL.MASTER (fget TSYNC_CTL.MASTER v)).setF
    c TSYNC_CTL.PARENT (fget TSYNC_CTL.PARENT v)
  let s := s.setF c TSYNC_CTL.PERIOD (max 1 (fget TSYNC_CTL.PERIOD v))
  if fset? TSYNC_CTL.ENABLE v && fset? TSYNC_CTL.MASTER v then
    (if s.has st TSYNC_STAT.LOCKED then s.setF st TSYNC_STAT.STRATUM 0
     else ((s.setF st TSYNC_STAT.LOCKED 1).setF st TSYNC_STAT.STRATUM 0).setF st TSYNC_STAT.GAINED 1 |>.event 7520)
  else if was then s.tsLost else s

end Sys2Proof.Machine
end

