-- ==== Sys2Proof/Machine/Remote.lean ====
section
/-!
DEFINITION. Remote access (spec/11, R330, R331, R343 to R350): requests a core sends, what a target does with PUT,
GET, AMO and QMSG, responses, timeouts, and the gather buffers.
-/

namespace Sys2Proof.Machine

/-! ## The requesting side -/

/-- SRCID of a core. -/
def coreSrcid (c : Nat) : Nat := c

/-- The die of a core: its tile's, and 8 for the service cores, which inject at slice 0 (R330). -/
def coreDie (c : Nat) : Nat := if c < 2048 then c / 256 else if 0x2000 ≤ c then (c - 0x2000) / 272 else 8

/-- The slice at which core `c` injects a packet for device `dest`, none where it cannot (R330). -/
def State.coreSlice (s : State) (c dest : Nat) : Option Nat :=
  if ofTile c then s.portSlice (coreDie c) dest else if s.isOn 296 then some 0 else none

/-- A die holds at most 1,024 outstanding requests (R344). -/
def State.outstFull (s : State) (c : Nat) : Bool := 1024 ≤ (s.outst.filter fun o => o.die == coreDie c).length

/-- What a request is made of. -/
structure Req where
  op : Nat
  len : Nat
  oversize : Bool
  body : List Byte
  data : List Byte
  mask : List Bool
deriving DecidableEq, Repr

/-- The die fabric of core `c`, which its accesses to other devices pass (R22). -/
def State.ownFabric (s : State) (c : Nat) : Gates := if ofTile c then [s.gateOf (136 + coreDie c)] else []

/-- Core `c` sends a request for global address `ga`; none where no port serves it. -/
def State.sendReq (s : State) (c : Nat) (kind : OutKind) (ga : Nat) (r : Req) : Option State :=
  let dest := ga / 2 ^ 40 % 65536
  (s.coreSlice c dest).map fun i =>
    let p : Packet := { dest := dest, src := s.ownDev, op := r.op, resp := false, oversize := r.oversize, len := r.len,
                        tag := s.nextTag, hops := 0, status := 0, srcid := coreSrcid c, epb := s.injBank,
                        body := r.body, data := r.data, mask := r.mask }
    let o : Outst := { die := coreDie c, core := c, kind := kind, gaddr := ga, p := p, slice := i, retry := false }
    { s.inject i p with outst := s.outst ++ [o], nextTag := (s.nextTag + 1) % 65536 }

/-- A PUT of bytes that touch the check words `mask` (R333, R334). -/
def putReq (a : Nat) (bs : List Byte) (mask : List Bool) : Req :=
  { op := 1, len := bs.length, oversize := false, body := toBytes 8 (a % 2 ^ 40), data := bs, mask := mask }

/-- A GET of `n` bytes. -/
def getReq (a n : Nat) : Req :=
  { op := 2, len := n, oversize := false, body := toBytes 8 (a % 2 ^ 40), data := [], mask := [] }

/-- AOP of an atomic. -/
def Amo.code : Amo → Nat
  | .add => 0
  | .swap => 1
  | .cas => 2

/-- An AMO with its operand and compare value. -/
def amoReq (o : Amo) (a : Nat) (b cmp : PW) : Req :=
  let c := if o = .cas then cmp else ⟨0, false⟩
  { op := 4, len := 16, oversize := false, body := toBytes 8 (a % 2 ^ 40) ++ toBytes 1 o.code ++ toBytes 7 0,
    data := toBytes 8 b.val.toNat ++ toBytes 8 c.val.toNat, mask := [b.poison, b.poison, c.poison, c.poison] }

/-- A CTRL read. -/
def ctrlReadReq (a : Nat) : Req :=
  { op := 9, len := 0, oversize := false, body := toBytes 8 (a % 2 ^ 40) ++ toBytes 8 0, data := [], mask := [] }

/-- A CTRL write. -/
def ctrlWriteReq (a : Nat) (v : PW) : Req :=
  { op := 9, len := 8, oversize := false, body := toBytes 8 (a % 2 ^ 40) ++ toBytes 1 1 ++ toBytes 7 0,
    data := toBytes 8 v.val.toNat, mask := [v.poison, v.poison] }

/-- A QMSG with the words of one queue packet; none for an oversize one. -/
def qmsgReq (a : Nat) (ws : List PW) : Req :=
  { op := 5, len := 8 * ws.length, oversize := ws.isEmpty, body := toBytes 8 (a % 2 ^ 40),
    data := (ws.map fun w => toBytes 8 w.val.toNat).flatten, mask := (ws.map fun w => [w.poison, w.poison]).flatten }

/-! ## The target side -/

/-- The requester behind a packet. -/
def pktWho (p : Packet) : Who := .remote p.src p.srcid

/-- Whether RT_DEVICE accepts the packet's class. -/
def State.accepts (s : State) (p : Packet) : Bool :=
  let f : Fld := match p.op with
    | 1 => RT_DEVICE.ACC_PUT
    | 2 => RT_DEVICE.ACC_GET
    | 4 => RT_DEVICE.ACC_AMO
    | 5 => RT_DEVICE.ACC_QMSG
    | _ => RT_DEVICE.ACC_CTRL
  s.has RT_DEVICE.adr f

/-- The slice at which the response to an access performed at local address `a` is injected (R331): by a port of the
die that holds the point of order; `i`, where the request is, for control space and flash. -/
def State.replySlice (s : State) (i a dest : Nat) : Nat :=
  let die : Option Nat :=
    if a < 2 ^ 39 then
      let e := s.rd (HOME_MAP.adr (homeIndex a))
      if fset? HOME_MAP.VALID e then some (fget HOME_MAP.LTILE e / 16) else some (s.dramLine a).1
    else if a < 0x8020000000 then some ((a - 2 ^ 39) / 2 ^ 22 / 16)
    else if 0xA000000000 ≤ a && a < 0xA000800000 then some ((a - 0xA000000000) / 65536 / 16)
    else none
  match die with
  | some d => (s.portSlice d dest).getD i
  | none => i

/-- STATUS of a refusal (R343). -/
def Ans.status : Ans → Nat
  | .ok => 0
  | .off => 0x0A
  | _ => 0x0C

/-- What an access answered is reported: performed or DOMAIN_OFF from slice `j`, any other refusal from slice `i`, where
the request entered (R331, R343). -/
def State.reportReq (s : State) (i j : Nat) (p : Packet) (e : Ans) : State :=
  if e.status = 0x0C then s.refuseReq i p else s.answer j p e.status

/-- The parts of `n` bytes from `a`, one for each 64-byte line: address and length (R225). -/
def lineParts : Nat → Nat → Nat → List (Nat × Nat)
  | 0, _, _ => []
  | fuel + 1, a, n =>
    if n = 0 then []
    else
      let m := min n (64 - a % 64)
      (a, m) :: lineParts fuel (a + m) (n - m)

/-- Parts of an access of up to 4,096 bytes. -/
def parts (a n : Nat) : List (Nat × Nat) := lineParts 66 a n

/-- A read of several line parts, each as one access, up to the first that is not performed. -/
def State.readParts (s : State) (who : Who) (alloc : Bool) : List (Nat × Nat) → MemRes
  | [] => ⟨s, .ok, [], []⟩
  | (a, n) :: r =>
    let x := s.memRead who alloc a n
    match x.ans with
    | .ok =>
      let y := x.st.readParts who alloc r
      ⟨y.st, y.ans, x.bytes ++ y.bytes, x.poison ++ y.poison⟩
    | e => ⟨x.st, e, [], []⟩

/-- A read of several line parts; where one is held, only its wait is left behind and the whole is asked again. -/
def State.readAll (s : State) (who : Who) (alloc : Bool) (ps : List (Nat × Nat)) : MemRes :=
  let r := s.readParts who alloc ps
  match r.ans with
  | .held =>
    (match ps.find? fun q => (s.memRead who alloc q.1 q.2).ans == .held with
     | some q => .of (s.memRead who alloc q.1 q.2).st .held
     | none => .of r.st .held)
  | _ => r

/-- An engine's read of several line parts, each as one access, up to the first that is held: what a deckle gate answers
reads as 0 (R423). -/
def State.deckleParts (s : State) (alloc : Bool) : List (Nat × Nat) → MemRes
  | [] => ⟨s, .ok, [], []⟩
  | (a, n) :: r =>
    let x := s.memRead .engine alloc a n
    if x.ans = .held then .of x.st .held
    else
      let y := x.st.deckleParts alloc r
      if x.ans = .ok then ⟨y.st, y.ans, x.bytes ++ y.bytes, x.poison ++ y.poison⟩
      else ⟨y.st, y.ans, List.replicate n 0 ++ y.bytes, List.replicate (maskBits 3 a n) false ++ y.poison⟩

/-- An engine's read of several line parts; where one is held, only its wait is left behind. -/
def State.deckleRead (s : State) (alloc : Bool) (ps : List (Nat × Nat)) : MemRes :=
  let r := s.deckleParts alloc ps
  if r.ans = .held then
    (match ps.find? fun q => (s.memRead .engine alloc q.1 q.2).ans == .held with
     | some q => .of (s.memRead .engine alloc q.1 q.2).st .held
     | none => .of r.st .held)
  else r

/-- A write of several line parts; `pz` marks the check words from the one that holds the first byte on. -/
def State.writeParts (s : State) (who : Who) (alloc : Bool) (a0 : Nat) (bs : List Byte) (pz : List Bool) :
    List (Nat × Nat) → MemRes
  | [] => .of s .ok
  | (a, n) :: r =>
    let x := s.memWrite who alloc a ((bs.drop (a - a0)).take n) (pz.drop (a / 4 - a0 / 4))
    match x.ans with
    | .ok => x.st.writeParts who alloc a0 bs pz r
    | e => .of x.st e

/-- An engine's write of several line parts, each as one access; what a deckle gate answers is discarded (R423). True
when none is held; else only that part's wait is left behind, and the whole is asked again. -/
def State.deckleWrite (s : State) (alloc : Bool) (a : Nat) (bs : List Byte) (pz : List Bool) : State × Bool :=
  let ps := parts a bs.length
  let one (s : State) (q : Nat × Nat) : MemRes :=
    s.memWrite .engine alloc q.1 ((bs.drop (q.1 - a)).take q.2) (pz.drop (q.1 / 4 - a / 4))
  match ps.find? fun q => (one s q).ans == .held with
  | some q => ((one s q).st, false)
  | none => (ps.foldl (fun s q => (one s q).st) s, true)

/-- A write of several line parts, each as one access; where one is held, only its wait is left behind and the whole
is asked again. -/
def State.writeAll (s : State) (who : Who) (alloc : Bool) (a : Nat) (bs : List Byte) (pz : List Bool) : MemRes :=
  let ps := parts a bs.length
  let one (q : Nat × Nat) : MemRes :=
    s.memWrite who alloc q.1 ((bs.drop (q.1 - a)).take q.2) (pz.drop (q.1 / 4 - a / 4))
  let r := s.writeParts who alloc a bs pz ps
  match r.ans with
  | .held =>
    (match ps.find? fun q => (one q).ans == .held with
     | some q => .of (one q).st .held
     | none => .of r.st .held)
  | _ => r

/-- A GET's words as the mask numbers them: a word that two parts touch is poisoned where either part says so. Parts
meet at multiples of 64, so no word is shared. -/
def State.doGet (s : State) (i : Nat) (p : Packet) : State :=
  let r := s.readAll (pktWho p) true (parts p.addr p.len)
  match r.ans with
  | .held => r.st.putWait (RtPkt.new i 0 p)
  | .ok =>
    let mask := if r.poison.isEmpty then List.replicate (maskBits 3 p.addr p.len) false else r.poison
    r.st.inject (s.replySlice i p.addr p.src) (responseTo p 0 r.bytes mask)
  | e => r.st.reportReq i (s.replySlice i p.addr p.src) p e

/-- A PUT. -/
def State.doPut (s : State) (i : Nat) (p : Packet) : State :=
  let r := s.writeAll (pktWho p) true p.addr p.data p.mask
  match r.ans with
  | .held => r.st.putWait (RtPkt.new i 0 p)
  | e => r.st.reportReq i (s.replySlice i p.addr p.src) p e

/-- An AMO. -/
def State.doAmo (s : State) (i : Nat) (p : Packet) : State :=
  let k := bytesAt p.body 8 1
  let op : Option Amo := if k = 0 then some .add else if k = 1 then some .swap else if k = 2 then some .cas else none
  let m (j : Nat) : Bool := p.mask.getD j false
  match op with
  | none => s.refuseReq i p
  | some o =>
    let r := s.memAmo (pktWho p) o p.addr ⟨BitVec.ofNat 64 (bytesAt p.data 0 8), m 0 || m 1⟩
      ⟨BitVec.ofNat 64 (bytesAt p.data 8 8), m 2 || m 3⟩
    match r.2.1 with
    | .held => r.1.putWait (RtPkt.new i 0 p)
    | .ok => r.1.inject (s.replySlice i p.addr p.src)
        (responseTo p 0 (toBytes 8 r.2.2.val.toNat) [r.2.2.poison, r.2.2.poison])
    | e => r.1.reportReq i (s.replySlice i p.addr p.src) p e

/-- The words of a QMSG, each poisoned where its mask says so. -/
def qmsgWords (p : Packet) : List PW :=
  (numsFrom 0 (p.data.length / 8)).map fun j =>
    ⟨BitVec.ofNat 64 (bytesAt p.data (8 * j) 8), p.mask.getD (2 * j) false || p.mask.getD (2 * j + 1) false⟩

/-- Whether queue `q` of tile `p` can take a packet of `ws` (R349). -/
def State.canTake (s : State) (p q : Nat) (ws : List PW) : Bool :=
  let m := s.queue p q
  m.prod == .idle && (ws.any (·.poison) || ws.length ≤ m.free)

/-- Deliver a whole packet to a queue that can take it: committed, or rewound with BAD where a word is poisoned. -/
def State.deliver (s : State) (p q : Nat) (who : Who) (ws : List PW) : State :=
  if ws.any (·.poison) then (s.rewind p q .idle who).setF (Q_FLAGS.adr p q) Q_FLAGS.BAD 1
  else s.commitPacket p q ws

/-- Packets in the hold of tile `p`. -/
def State.heldMsgs (s : State) (p : Nat) : List QmsgHeld := s.qholds.filter fun h => h.ptile == p

/-- QHOLD.HELD follows the hold. -/
def State.showHold (s : State) (p : Nat) : State := s.setF (QHOLD.adr p) QHOLD.HELD (s.heldMsgs p).length

/-- A QMSG at its target (R349, R274): delivered, held, answered RETRY, or OVERSIZE. -/
def State.doQmsg (s : State) (i : Nat) (p : Packet) : State :=
  let a := p.addr
  let t := (a - 0xA000000000) / 65536
  let q := a / 256 % 256
  let wait (s : State) : State := s.putWait (RtPkt.new i 4 p)
  if a < 0xA000000000 || 0xA000800000 ≤ a || 32 ≤ q then s.refuseReq i p
  else
    let way := match s.physTile t with
      | some pt => s.fabricGates (pktWho p) (pt / 17) (some pt)
      | none => []
    match s.enter (pktWho p) true a way with
    | (s, some .held) => wait s
    | (s, some e) => s.reportReq i (s.replySlice i a p.src) p e
    | (s, none) =>
      match s.qgate t with
      | .absent => s.refuseReq i p
      | .off _ => s.answer (s.replySlice i a p.src) p 0x0A
      | .sleeping pt => wait (s.wakeTile pt 2 0)
      | .run pt =>
        let j := s.replySlice i a p.src
        if p.oversize then (s.setF (Q_FLAGS.adr pt q) Q_FLAGS.OVERSIZE 1).answer j p 0
        else
          let ws := qmsgWords p
          if !((s.heldMsgs pt).any fun h => h.queue == q) && s.canTake pt q ws then (s.deliver pt q (pktWho p) ws).answer j p 0
          else if (s.heldMsgs pt).length < 4 then
            let h : QmsgHeld := { ptile := pt, queue := q, owner := pktWho p, words := ws }
            (({ s with qholds := s.qholds ++ [h] } : State).showHold pt).answer j p 0
          else (s.satF (QHOLD.adr pt) QHOLD.RETRIES 1).answer j p 1

/-- The oldest packet held for queue `q` of logical tile `t` is committed once the queue can take it (R349). -/
def State.holdDeliver (s : State) (t q : Nat) : State :=
  match s.qgate t with
  | .run p =>
    match (s.heldMsgs p).find? fun h => h.queue == q with
    | some h =>
      if s.canTake p q h.words then
        (({ s with qholds := s.qholds.erase h } : State).showHold p).deliver p q h.owner h.words
      else s
    | none => s
  | _ => s

/-- A request for this device at slice `i`: the class check, then the operation (R343). -/
def State.serve (s : State) (i : Nat) (p : Packet) (f : State → Packet → State) : State :=
  s.withPkt i p fun s p => if !s.accepts p || 2 ^ 40 ≤ p.addr then s.refuseReq i p else f s p

/-- Whether a PUT or GET names memory; anything else is refused (R225). -/
def memAddr (a : Nat) : Bool := a < 0x8020000000 || (0xE000000000 ≤ a && a < 0xE100000000)

/-- PUT at slice `i`. -/
def State.putAt (s : State) (i : Nat) (p : Packet) : State :=
  s.serve i p fun s p => if memAddr p.addr && memAddr (p.addr + p.len - 1) then s.doPut i p else s.refuseReq i p

/-- GET at slice `i`. -/
def State.getAt (s : State) (i : Nat) (p : Packet) : State :=
  s.serve i p fun s p => if memAddr p.addr && memAddr (p.addr + p.len - 1) then s.doGet i p else s.refuseReq i p

/-- AMO at slice `i`. -/
def State.amoAt (s : State) (i : Nat) (p : Packet) : State :=
  s.serve i p fun s p => if p.addr < 0x8020000000 && p.addr % 8 = 0 then s.doAmo i p else s.refuseReq i p

/-- QMSG at slice `i`. -/
def State.qmsgAt (s : State) (i : Nat) (p : Packet) : State := s.serve i p fun s p => s.doQmsg i p

/-! ## Responses and timeouts (R345, R349, R350) -/

/-- An outstanding request ends with `status`: a load's core gets its response, a failed posted store is recorded. -/
def State.endReq (s : State) (o : Outst) (status : Nat) (data : List Byte) (mask : List Bool) : State :=
  let s := { s with outst := s.outst.erase o }
  match o.kind with
  | .load => s.updCore o.core fun k => { k with resp := some { status := status, data := data, mask := mask } }
  | _ => if status = 0 then s
         else s.pstoreFail o.core o.gaddr (if status = 0x0A then 0x0A else if status = 0x0B then 0x0B else 0x0C)

/-- Whether `o` is the request that response `p` answers: by its TAG and SRCID; SRC names the device that sent it, which
is not always the request's DEST (R332, R339). -/
def Outst.matches (o : Outst) (p : Packet) : Bool :=
  o.p.tag == p.tag && coreSrcid o.core == p.srcid && o.p.respOp == p.op

/-- A response arrives at slice `i` (R345): a late one is discarded and counted; RETRY leaves the request outstanding. -/
def State.response (s : State) (i : Nat) (p : Packet) : State :=
  s.withPkt i p fun s p =>
  match s.outst.find? fun o => o.matches p with
  | none => (s.satF (RT_DISC.adr i) RT_DISC.LATE_RESP 1).rtSet i RT_EVT.LATE_RESP 1
  | some o =>
    if p.status = 1 then
      { s with outst := s.outst.map fun x => if x = o then { x with retry := true } else x }
    else s.endReq o p.status p.data p.mask

/-- A request's timer expires: as a response with STATUS 0x0C (R345). -/
def State.reqTimeout (s : State) (tag : Nat) : State :=
  match s.outst.find? fun o => o.p.tag == tag with
  | none => s
  | some o =>
    ((s.satF (RT_LOSS.adr o.slice) RT_LOSS.TIMEOUTS 1).rtSet o.slice RT_EVT.TIMEOUT 1).endReq o 0x0C [] []

/-- RETRY_DELAY after a RETRY, the QMSG is sent again (R349), by the port R330 gives it now; without one it is answered
NO_RESPONDER. -/
def State.retrySend (s : State) (tag : Nat) : State :=
  match s.outst.find? fun o => o.p.tag == tag && o.retry with
  | none => s
  | some o =>
    match s.coreSlice o.core o.p.dest with
    | none => s.endReq o 0x0B [] []
    | some i =>
      let s := { s with outst := s.outst.map fun x => if x = o then { x with retry := false, slice := i } else x }
      s.inject i o.p

/-! ## Gather buffers (R348, R350) -/

/-- QGATHER of core `c`, where it has one. -/
def State.gatherAdr (s : State) (c : Nat) : Option Nat :=
  (s.coreTile c).map fun p => QGATHER.adr p (c % 16)

/-- The gather of core `c` holds `ws` in state `st` for the port block at `ga`; QGATHER shows it. -/
def State.setGather (s : State) (c : Nat) (ws : List PW) (st ga : Nat) : State :=
  let s := s.updCore c fun k => { k with gather := ws, gstate := st, gaddr := ga }
  match s.gatherAdr c with
  | some r => (s.setF r QGATHER.STATE st).setF r QGATHER.WORDS ws.length
  | none => s

/-- Words discarded from the gather. -/
def State.gatherDrop (s : State) (c n : Nat) : State :=
  match s.gatherAdr c with
  | some r => s.satF r QGATHER.DROPPED n
  | none => s

/-- An earlier QMSG of core `c` to device `dest` awaits its response (R350). -/
def State.qmsgBusy (s : State) (c dest : Nat) : Bool :=
  s.outst.any fun o => o.core == c && o.kind == .qmsg && o.p.dest == dest

/-- The global address of a remote queue's port block. -/
def queueBlock (device t q : Nat) : Nat := device * 2 ^ 40 + 0xA000000000 + t * 65536 + q * 256

/-- The gather belongs to another queue: its words are discarded and counted, and REMOTE_ERROR is recorded. -/
def State.gatherRebind (s : State) (c ga : Nat) : State :=
  let k := s.core c
  if k.gstate = 0 || k.gaddr = ga then s
  else ((s.gatherDrop c k.gather.length).setGather c [] 0 0).pstoreFail c k.gaddr 0x0C

/-- A push must wait: it would send a QMSG while one to the device is outstanding, while the die holds 1,024 requests,
or while the die fabric is in transition. -/
def State.gatherWaits (s : State) (c ga : Nat) (last : Bool) : Bool :=
  let k := s.core c
  let mine := k.gstate != 0 && k.gaddr == ga
  let full := mine && k.gather.length == 64
  (full || (last && !(mine && k.gstate == 2))) && 
    (s.qmsgBusy c (ga / 2 ^ 40) || s.outstFull c || (s.ownFabric c).any fun g => g.2 == .transition)

/-- Send the gather's packet (or an oversize one) to the queue at `ga`; behind a die fabric that is off it fails as
DOMAIN_OFF, and without a port as NO_RESPONDER. Its posted store is the push at `ga + off` that sends it (R227). -/
def State.sendGather (s : State) (c ga off : Nat) (ws : List PW) : State :=
  if (s.ownFabric c).any fun g => g.2 == .off then s.pstoreFail c (ga + off) 0x0A
  else
  match s.sendReq c .qmsg (ga + off) (qmsgReq ga ws) with
  | some s => s
  | none => s.pstoreFail c (ga + off) 0x0B

/-- QPUSH or QPUSH_LAST to the remote queue at `ga` (R348); nothing happens while it must wait. -/
def State.gatherPush (s : State) (c ga : Nat) (last : Bool) (w : PW) : State :=
  if s.gatherWaits c ga last then s
  else
    let s := s.gatherRebind c ga
    let k := s.core c
    if k.gstate = 2 then
      let s := s.gatherDrop c 1
      if last then s.setGather c [] 0 0 else s
    else if k.gather.length = 64 then
      let s := (s.gatherDrop c 65).setGather c [] (if last then 0 else 2) (if last then 0 else ga)
      s.sendGather c ga (if last then 8 else 0) []
    else if last then (s.setGather c [] 0 0).sendGather c ga 8 (k.gather ++ [w])
    else s.setGather c (k.gather ++ [w]) 1 ga

/-- QABORT to the remote queue at `ga` (R348). -/
def State.gatherAbort (s : State) (c ga : Nat) : State :=
  let s := s.gatherRebind c ga
  let k := s.core c
  if k.gstate = 0 then s else (s.gatherDrop c k.gather.length).setGather c [] 0 0

end Sys2Proof.Machine
end

