-- ==== Sys2Proof/Machine/Couch.lean ====
section
/-!
DEFINITION. Mirroring (spec/12, R364 to R388): the group, marks, the mirror epoch, the receive log and its apply, and
heartbeats.
-/

namespace Sys2Proof.Machine

/-- `s` with the couch engine's state changed. -/
def State.updCouch (s : State) (f : CouchSt → CouchSt) : State := { s with couch := f s.couch }

/-- CE_STAT.STATE: 0 DISABLED, 1 IDLE, 3 SENDING, 4 COMMITTING. -/
def State.ceState (s : State) : Nat := s.fld CE_STAT.adr CE_STAT.STATE
/-- CE_STAT.EPOCH. -/
def State.ceEpoch (s : State) : Nat := s.fld CE_STAT.adr CE_STAT.EPOCH
/-- An epoch is in progress. -/
def State.ceBusy (s : State) : Bool := 2 ≤ s.ceState && s.ceState ≤ 4
/-- A CE_EVT bit is set, with its arrival (R394). -/
def State.ceEvt (s : State) (f : Fld) (src : Nat) : State := (s.setF CE_EVT.adr f 1).event src
/-- An RX_EVT bit is set, with its arrival (R394). -/
def State.rxEvt (s : State) (f : Fld) (src : Nat) : State := (s.setF RX_EVT.adr f 1).event src
/-- The buddy (CE_CTL.BUDDY). -/
def State.buddy (s : State) : Nat := s.fld CE_CTL.adr CE_CTL.BUDDY

/-! ## The buddy group (R365, R366) -/

/-- LINK_k of CE_GROUP. -/
def State.groupLink (s : State) (k : Nat) : Nat := byteOf k (s.rd CE_GROUP.adr)

/-- Link `n` reaches the buddy: identity and side agree. -/
def State.groupFits (s : State) (n : Nat) : Bool :=
  let a := LNK_STAT.adr n
  s.has a LNK_STAT.FAR_VALID && s.fld a LNK_STAT.FAR_DEVICE == s.buddy
    && s.has a LNK_STAT.FAR_SIDE != s.straps.buddySide

/-- Link `n` is a usable group link. -/
def State.groupUsable (s : State) (n : Nat) : Bool :=
  n < 144 && ((numsFrom 0 8).any fun k => s.groupLink k == n) && s.linkUp n && s.groupFits n

/-- Link `n` is listed and in service but fails the identity or side check: it carries no mirror traffic. -/
def State.misfit (s : State) (n : Nat) : Bool :=
  n < 144 && ((numsFrom 0 8).any fun k => s.groupLink k == n) && s.linkUp n && !s.groupFits n

/-- Links that have become misfits since `s` set GROUP_ERR, while the engine runs. -/
def State.groupCheck (t s : State) : State :=
  if t.isOn 299 && (numsFrom 0 8).any fun k => t.misfit (t.groupLink k) && !s.misfit (t.groupLink k) then
    t.ceEvt CE_EVT.GROUP_ERR 7188
  else t

/-- The group links in rotation from position `r`. -/
def State.groupOrder (s : State) (r : Nat) : List Nat :=
  ((numsFrom 0 8).map fun k => (r + k) % 8).filter fun k => s.groupUsable (s.groupLink k)

/-- The next group link for a request: usable, with a credit on VC 6 where one has any. -/
def State.groupNext (s : State) : Option Nat :=
  let o := s.groupOrder s.couch.rot
  match o.find? fun k => s.cred (s.groupLink k) 6 != 0 with
  | some k => some k
  | none => o.head?

/-- A request leaves on the next group link; it waits for its resend where none is usable. -/
def State.couchSend (s : State) (p : Packet) : State :=
  match s.groupNext with
  | none => s
  | some k => (s.updCouch fun c => { c with rot := (k + 1) % 8 }).sendHop 3 (s.groupLink k) 6 p

/-- A response leaves on the link by which its request came, or on a usable group link where that one has left service
or carries no mirror traffic (R365, R366). -/
def State.couchReply (s : State) (n : Nat) (p : Packet) : State :=
  if s.linkUp n && !s.misfit n then s.sendHop 3 n 6 p else s.couchSend p

/-- A mirror packet from link `n` reaches the engine; from a link that carries no mirror traffic it is discarded (R365).
A link that the group does not list brings packets too: the rules name none for a receiver (assumption log entry 39). -/
def State.couchIn (s : State) (n : Nat) (p : Packet) (f : State → Packet → State) : State :=
  s.withPkt (n / 36) p fun s p => if s.misfit n then s else f s p

/-- A COUCH packet's body (R379). -/
def couchBody (kind rcode chunk epoch count target : Nat) : List Byte :=
  toBytes 1 kind ++ toBytes 1 rcode ++ toBytes 1 chunk ++ toBytes 1 0 ++ toBytes 4 epoch ++ toBytes 4 count
    ++ toBytes 4 0 ++ toBytes 8 target

/-- A COUCH packet to the buddy. -/
def State.couchPkt (s : State) (body data : List Byte) (mask : List Bool) : Packet :=
  { dest := s.buddy, src := s.ownDev, op := 8, resp := false, oversize := false, len := data.length,
    tag := s.couch.tag, hops := 1, status := 0, srcid := 0x4000, epb := s.injBank, body := body, data := data,
    mask := mask }

/-- Send a request and remember it (R380, R381). -/
def State.couchAsk (s : State) (g : Nat) (body data : List Byte) (mask : List Bool) : State :=
  let p := s.couchPkt body data mask
  let s := s.updCouch fun c => { c with reqs := c.reqs ++ [⟨p, g, 0⟩], tag := (c.tag + 1) % 65536 }
  s.couchSend p

/-- Fields of a COUCH packet. -/
def cKind (p : Packet) : Nat := bytesAt p.body 0 1
/-- RCODE. -/
def cRcode (p : Packet) : Nat := bytesAt p.body 1 1
/-- CHUNK. -/
def cChunk (p : Packet) : Nat := bytesAt p.body 2 1
/-- EPOCH. -/
def cEpoch (p : Packet) : Nat := bytesAt p.body 4 4
/-- SLOT or COUNT. -/
def cCount (p : Packet) : Nat := bytesAt p.body 8 4
/-- TARGET. -/
def cTarget (p : Packet) : Nat := bytesAt p.body 16 8 % 2 ^ 40

/-! ## Extents (R368, R371) -/

/-- Granules [a, a+n) and [b, b+m) overlap. -/
def overlap (a n b m : Nat) : Bool := a < b + m && b < a + n && 0 < n && 0 < m

/-- Making extent `i` valid with this source and destination is not allowed. -/
def State.extBad (s : State) (i : Nat) (src : Word) (dst : Nat) : Bool :=
  let b := fget CE_EXT_SRC.BASE src
  let n := fget CE_EXT_SRC.GRANULES src
  n == 0 || 2 ^ 23 < b + n || 2 ^ 23 < dst + n
    || ((s.listed (CE_EXT_SRC.adr 0) (CE_EXT_SRC.adr 256)).any fun r =>
        (r.1 - CE_EXT_SRC.adr 0) % 16 == 0 && r.1 != CE_EXT_SRC.adr i && fset? CE_EXT_SRC.VALID r.2
          && overlap b n (fget CE_EXT_SRC.BASE r.2) (fget CE_EXT_SRC.GRANULES r.2))
    || overlap b n (s.fld CE_PRE.adr CE_PRE.BASE) (s.fld CE_PRE.adr CE_PRE.SLOTS)

/-- FULL: every granule of extent `i` becomes dirty, in every tracker that is on (assumption log entry 39). -/
def State.extFull (s : State) (i : Nat) : State :=
  let w := s.rd (CE_EXT_SRC.adr i)
  if s.ceBusy then s.ceEvt CE_EVT.EXT_ERR 7188
  else if !fset? CE_EXT_SRC.VALID w then s
  else
    let ds := s.trackers (numsFrom 0 8)
    s.updCouch fun c => (numsFrom (fget CE_EXT_SRC.BASE w) (fget CE_EXT_SRC.GRANULES w)).foldl (fun c g => c.mark ds g) c

/-- A write of CE_EXT_SRC_i. -/
def State.writeExtSrc (s : State) (i : Nat) (v : Word) : State :=
  let w := v &&& 0x80FFFFFF00FFFFFF#64
  if s.ceBusy || (fset? CE_EXT_SRC.VALID w && s.extBad i w (s.fld (CE_EXT_DST.adr i) CE_EXT_DST.BASE)) then
    s.ceEvt CE_EVT.EXT_ERR 7188
  else
    let s := s.wr (CE_EXT_SRC.adr i) w
    if fset? CE_EXT_SRC.FULL v then s.extFull i else s

/-- A write of CE_EXT_DST_i. -/
def State.writeExtDst (s : State) (i : Nat) (v : Word) : State :=
  let src := s.rd (CE_EXT_SRC.adr i)
  if s.ceBusy || (fset? CE_EXT_SRC.VALID src && s.extBad i src (fget CE_EXT_DST.BASE v)) then
    s.ceEvt CE_EVT.EXT_ERR 7188
  else s.setF (CE_EXT_DST.adr i) CE_EXT_DST.BASE (fget CE_EXT_DST.BASE v)

/-- The buddy granule that mirrors granule `g`; a free value where no valid extent holds it any more. -/
def State.extTarget (s : State) (g : Nat) : Nat :=
  match (numsFrom 0 256).find? fun i =>
      let w := s.rd (CE_EXT_SRC.adr i)
      fset? CE_EXT_SRC.VALID w && fget CE_EXT_SRC.BASE w ≤ g && g < fget CE_EXT_SRC.BASE w + fget CE_EXT_SRC.GRANULES w with
  | some i => s.fld (CE_EXT_DST.adr i) CE_EXT_DST.BASE + (g - s.fld (CE_EXT_SRC.adr i) CE_EXT_SRC.BASE)
  | none => (Config.freeWord s.freeTick).toNat % 2 ^ 24

/-! ## The mirror epoch (R372 to R378) -/

/-- PENDING and PREIMAGED follow the engine's lists (R377). -/
def State.books (s : State) : State :=
  (s.setF CE_BOOK_0.adr CE_BOOK_0.PENDING s.couch.pend.length).setF CE_BOOK_1.adr CE_BOOK_1.PREIMAGED
    s.couch.pre.length

/-- A mark may be performed (R372). -/
def State.markable (s : State) : Bool :=
  s.has CE_CTL.adr CE_CTL.ENABLE && s.ceState == 1 && s.has CE_STAT.adr CE_STAT.BUDDY_UP

/-- The mark, and BEGIN (R372, R374 steps 1 and 2); nothing where it may not be performed. -/
def State.mark (s : State) : State :=
  if !s.markable then s
  else
    let n := s.couch.dirty.length
    let s := (s.incF CE_STAT.adr CE_STAT.EPOCH 1).setF CE_STAT.adr CE_STAT.STATE 3
    let s := s.updCouch fun c =>
      { c with pend := c.dirty, marks := [], pre := [], flight := [], busy := [], waiting := [], counted := [], next := 0,
               began := false, reqs := [] }
    let s := ((s.setF CE_BOOK_0.adr CE_BOOK_0.MARKED n).setF CE_BOOK_1.adr CE_BOOK_1.SENT 0).books
    s.couchAsk 0 (couchBody 1 0 0 s.ceEpoch n 0) [] []

/-- The epoch fails (R378): `rcode` where a response refused it. -/
def State.epochFail (s : State) (rcode : Bool) : State :=
  if !s.ceBusy then s
  else
    let c := s.couch
    let back := c.pend ++ c.pre.map (·.1) ++ c.flight.map (·.1)
    let abort := s.couchPkt (couchBody 4 0 0 s.ceEpoch 0 0) [] []
    let s := s.couchSend abort
    let ds := s.trackers (numsFrom 0 8)
    let s := s.updCouch fun c =>
      { back.foldl (fun c g => c.mark ds g) c with
        pend := [], pre := [], flight := [], busy := [], waiting := [], counted := [], reqs := [], began := false,
        tag := (c.tag + 1) % 65536 }
    let s := (s.setF CE_BOOK_0.adr CE_BOOK_0.MARKED 0).setF CE_BOOK_1.adr CE_BOOK_1.SENT 0
    let s := s.books.setF CE_STAT.adr CE_STAT.STATE (if s.has CE_CTL.adr CE_CTL.ENABLE then 1 else 0)
    let s := if rcode then (s.setF CE_EVT.adr CE_EVT.REJECTED 1).satF CE_CNT.adr CE_CNT.REJECTED 1 else s
    (s.satF CE_CNT.adr CE_CNT.FAILED 1).ceEvt CE_EVT.FAILED 7185

/-- A write of CE_CTL (R364, R378). -/
def State.writeCeCtl (s : State) (v : Word) : State :=
  let a := CE_CTL.adr
  let on := s.has a CE_CTL.ENABLE
  let s := if on then s else s.setF a CE_CTL.BUDDY (fget CE_CTL.BUDDY v)
  let s := (s.setF a CE_CTL.HB (fget CE_CTL.HB v)).setF a CE_CTL.ENABLE (fget CE_CTL.ENABLE v)
  if fset? CE_CTL.ENABLE v then (if on then s else s.setF CE_STAT.adr CE_STAT.STATE 1)
  else (s.epochFail false).setF CE_STAT.adr CE_STAT.STATE 0

/-- The next granule to read (R374, R376): one whose write waits without a pre-image slot, else the lowest of those whose
hold-copy is not still to come (R396). -/
def State.nextGranule (s : State) : Option Nat :=
  let c := s.couch
  match c.waiting.find? fun w => w.2.isNone && c.pend.contains w.1 with
  | some w => some w.1
  | none => ((c.pend.filter fun g => !(c.waiting.any fun w => w.1 == g)) ++ c.pre.map (·.1)).min?

/-- Granule `g` waits no more: its held writes go on. -/
def CouchSt.unwait (c : CouchSt) (g : Nat) : CouchSt :=
  { c with waiting := c.waiting.filter (fun w => w.1 ≠ g), counted := c.counted.filter fun w => w.2 / 65536 ≠ g }

/-- Read the 4 KiB chunks of 64 KiB at `a` from points of order, `k` of them from chunk `j` on; none while held. -/
def State.readChunks (s : State) (a j : Nat) : Nat → State × Option (List (List Byte × List Bool))
  | 0 => (s, some [])
  | k + 1 =>
    let r := s.deckleRead false (parts (a + 4096 * j) 4096)
    if r.ans = .held then (r.st, none)
    else
      match r.st.readChunks a (j + 1) k with
      | (s, none) => (s, none)
      | (s, some cs) => (s, some ((r.bytes, r.poison) :: cs))

/-- Write 64 KiB in chunks, quietly or as writes that mark; false while one is held. -/
def State.writeChunks (s : State) (quiet : Bool) (a : Nat) : List (List Byte × List Bool) → State × Bool
  | [] => (s, true)
  | c :: r =>
    let ps := (numsFrom 0 64).map fun i => (a + 64 * i, (c.1.drop (64 * i)).take 64, (c.2.drop (16 * i)).take 16)
    let w := ps.foldl (fun (x : State × Bool) q =>
      if x.2 then (let m := x.1.dramWrite .engine true quiet q.1 q.2.1 q.2.2; (m.st, m.ans != .held)) else x) (s, true)
    if w.2 then w.1.writeChunks quiet (a + 4096) r else w

/-- The 16 DATA packets of granule `g` in slot `slot`. -/
def State.sendChunks (s : State) (g slot target j : Nat) : List (List Byte × List Bool) → State
  | [] => s
  | c :: r =>
    (s.couchAsk g (couchBody 2 0 j s.ceEpoch slot (target * 65536 + 4096 * j)) c.1 c.2).sendChunks g slot target (j + 1) r

/-- Outstanding DATA requests. -/
def State.dataOut (s : State) : Nat := (s.couch.reqs.filter fun q => cKind q.p == 2).length

/-- When every DATA is answered, END is sent (R374 step 4). -/
def State.maybeEnd (s : State) : State :=
  let c := s.couch
  if s.ceState = 3 && c.began && c.pend.isEmpty && c.pre.isEmpty && c.reqs.isEmpty then
    let s := s.setF CE_STAT.adr CE_STAT.STATE 4
    s.couchAsk 0 (couchBody 3 0 0 s.ceEpoch (s.fld CE_BOOK_0.adr CE_BOOK_0.MARKED) 0) [] []
  else s

/-- The sender reads the next granule and sends its DATA packets (R374, R375, R381). -/
def State.granuleRead (s : State) : State :=
  if s.ceState ≠ 3 || !s.couch.began || 496 < s.dataOut then s
  else
    match s.nextGranule with
    | none => s
    | some g =>
      let pre := s.couch.pre.find? fun q => q.1 == g
      let at' := match pre with
        | some q => (s.fld CE_PRE.adr CE_PRE.BASE + q.2) * 65536
        | none => g * 65536
      match s.readChunks at' 0 16 with
      | (s, none) => s
      | (s, some cs) =>
        let slot := s.couch.next
        let t := s.extTarget g
        let s := s.tick.updCouch fun c =>
          { c.unwait g with pend := c.pend.filter (· ≠ g), pre := c.pre.filter (fun q => q.1 ≠ g),
                            flight := c.flight ++ [(g, slot)], next := slot + 1 }
        s.books.sendChunks g slot t 0 cs

/-- The hold-copy of a PENDING granule with a write waiting, into the slot it is to take (R376). -/
def State.preimage (s : State) (g : Nat) : State :=
  if !s.couch.pend.contains g then s
  else
    match (s.couch.waiting.find? fun w => w.1 == g).bind fun w => w.2 with
    | none => s
    | some k =>
      match s.readChunks (g * 65536) 0 16 with
      | (s, none) => s
      | (s, some cs) =>
        match s.writeChunks true ((s.fld CE_PRE.adr CE_PRE.BASE + k) * 65536) cs with
        | (s, false) => s
        | (s, true) =>
          (s.updCouch fun c =>
            { c.unwait g with pend := c.pend.filter (· ≠ g), pre := c.pre ++ [(g, k)], busy := c.busy ++ [(k, g)] }).books

/-- A response to BEGIN, DATA or END arrives (R374, R378, R381). -/
def State.couchResponse (s : State) (n : Nat) (p : Packet) : State :=
  s.couchIn n p fun s p =>
  match s.couch.reqs.find? fun q => q.p.tag == p.tag && cKind q.p == cKind p with
  | none => s
  | some q =>
    let s := s.updCouch fun c => { c with reqs := c.reqs.erase q }
    if cRcode p ≠ 0 then s.epochFail true
    else if cKind p = 1 then (s.updCouch fun c => { c with began := true }).maybeEnd
    else if cKind p = 2 then
      let more := s.couch.reqs.any fun r => cKind r.p == 2 && r.g == q.g
      let s := if more then s else s.updCouch fun c => { c with busy := c.busy.filter fun b => b.2 ≠ q.g }
      s.maybeEnd
    else
      let s := s.setF CE_BOOK_1.adr CE_BOOK_1.SENT (s.fld CE_BOOK_0.adr CE_BOOK_0.MARKED)
      let s := s.setF CE_COMMIT.adr CE_COMMIT.COMMITTED s.ceEpoch
      let s := (s.setF CE_STAT.adr CE_STAT.STATE 1).updCouch fun c => { c with flight := [], busy := [] }
      s.ceEvt CE_EVT.COMMITTED 7184

/-- ACK_TIMEOUT passes without an answer to the request with this TAG (R378, R381). -/
def State.couchResend (s : State) (tag : Nat) : State :=
  match s.couch.reqs.find? fun q => q.p.tag == tag with
  | none => s
  | some q =>
    if s.fld CE_TIMING.adr CE_TIMING.RESEND_LIMIT ≤ q.sends then s.epochFail false
    else
      let s := s.updCouch fun c => { c with reqs := c.reqs.map fun x => if x = q then { x with sends := x.sends + 1 } else x }
      (s.satF CE_CNT.adr CE_CNT.RESENDS 1).couchSend q.p

/-! ## The receive log (R382 to R385) -/

/-- RX_STAT.STATE: 0 DISABLED, 1 IDLE, 2 RECEIVING, 3 APPLYING. -/
def State.rxState (s : State) : Nat := s.fld RX_STAT.adr RX_STAT.STATE
/-- RX_STAT.COMMITTED. -/
def State.rxCommitted (s : State) : Nat := s.fld RX_STAT.adr RX_STAT.COMMITTED
/-- E is newer than C (R382). -/
def newer (e c : Nat) : Bool :=
  let d := (e + 2 ^ 32 - c) % 2 ^ 32
  1 ≤ d && d ≤ 2 ^ 31 - 1

/-- The state the receive side rests in. -/
def State.rxRest (s : State) : State :=
  s.setF RX_STAT.adr RX_STAT.STATE (if s.has RX_CTL.adr RX_CTL.ENABLE then 1 else 0)

/-- A RECEIVING log is discarded, with its event (R385). -/
def State.rxDiscard (s : State) : State :=
  if s.rxState = 2 then s.rxRest.rxEvt RX_EVT.DISCARDED 7190 else s

/-- The answer to a COUCH request (R380). -/
def couchAnswer (p : Packet) (rcode : Nat) : Packet :=
  { dest := p.src, src := p.dest, op := 8, resp := true, oversize := false, len := 0, tag := p.tag, hops := 1,
    status := if rcode = 0 then 0 else 0x0C, srcid := p.srcid, epb := p.epb,
    body := p.body.take 1 ++ toBytes 1 rcode ++ p.body.drop 2, data := [], mask := [] }

/-- Answer request `p` of link `n`. -/
def State.rxAnswer (s : State) (n : Nat) (p : Packet) (rcode : Nat) : State := s.couchReply n (couchAnswer p rcode)

/-- RX_LOGSTAT of a log that has just been opened. -/
def State.openLog (s : State) (e count : Nat) : State :=
  let s := s.wr RX_LOGSTAT.adr (fput RX_LOGSTAT.EPOCH e 0)
  s.updCouch fun c => { c with rxCount := count, rxChunks := [] }

/-- BEGIN is checked and opens a log (R383); one that comes during APPLYING is held until the apply ends. -/
def State.beginLog (s : State) (n : Nat) (p : Packet) : State :=
  let e := cEpoch p
  if !s.has RX_CTL.adr RX_CTL.ENABLE then s.rxAnswer n p 2
  else if p.src ≠ s.fld RX_CTL.adr RX_CTL.SRC then s.rxAnswer n p 3
  else if s.rxState = 2 && e = s.fld RX_LOGSTAT.adr RX_LOGSTAT.EPOCH then s.rxAnswer n p 0
  else if s.rxState = 3 then s.updCouch fun c => { c with rxBegin := c.rxBegin ++ [(n, p)] }
  else if !newer e s.rxCommitted then s.rxAnswer n p 5
  else if s.fld RX_LOG.adr RX_LOG.SIZE < cCount p then (s.rxEvt RX_EVT.REJECTED 7190).rxAnswer n p 1
  else ((s.rxDiscard.openLog e (cCount p)).setF RX_STAT.adr RX_STAT.STATE 2).rxAnswer n p 0

/-- BEGIN arrives on link `n` (R383). -/
def State.couchBegin (s : State) (n : Nat) (p : Packet) : State := s.couchIn n p fun s p => s.beginLog n p

/-- The engine writes in the index, unmarked; false while the write is held. -/
def State.writeIndex (s : State) (off : Nat) (bs : List Byte) : State × Bool :=
  let w := s.dramWrite .engine true true (s.fld RX_IDX.adr RX_IDX.BASE * 65536 + off) bs (List.replicate (bs.length / 4) false)
  (w.st, w.ans != .held)

/-- An accepted chunk of slot `k` for target granule `g` is written, and with the slot's last chunk its index entry; false
while a write is held, and the whole is then done again. -/
def State.logChunk (s : State) (k g : Nat) (p : Packet) : State × Bool :=
  let had := s.couch.rxChunks.get 0 k
  let now := if nbit (cChunk p) had then had else had + 2 ^ cChunk p
  match s.writeChunks true ((s.fld RX_LOG.adr RX_LOG.BASE + k) * 65536 + 4096 * cChunk p) [(p.data, p.mask)] with
  | (s, false) => (s, false)
  | (s, true) =>
    let whole := now = 65535 && had ≠ 65535
    match (if whole then s.writeIndex (64 + 8 * k) (toBytes 8 (2 ^ 63 + g)) else (s, true)) with
    | (s, false) => (s, false)
    | (s, true) =>
      let s := s.updCouch fun c => { c with rxChunks := c.rxChunks.put 0 k now }
      (if whole then s.incF RX_LOGSTAT.adr RX_LOGSTAT.SLOTS 1 else s, true)

/-- DATA (R383); it waits where a write of it is held. -/
def State.couchData (s : State) (n : Nat) (p : Packet) : State :=
  s.couchIn n p fun s p =>
  let a := RX_LOGSTAT.adr
  let g := cTarget p / 65536
  if 16 ≤ cChunk p then s.badPkt (n / 36)
  else if p.src ≠ s.fld RX_CTL.adr RX_CTL.SRC then s.rxAnswer n p 3
  else if s.rxState ≠ 2 || cEpoch p ≠ s.fld a RX_LOGSTAT.EPOCH then s.rxAnswer n p 5
  else if s.couch.rxCount ≤ cCount p || g < s.fld RX_WIN.adr RX_WIN.BASE || s.fld RX_WIN.adr RX_WIN.LIMIT < g then
    (s.setF a RX_LOGSTAT.BAD 1).rxAnswer n p 4
  else
    match s.logChunk (cCount p) g p with
    | (s, false) => s.putWait (RtPkt.new (n / 36) 6 p)
    | (s, true) => s.rxAnswer n p 0

/-- Write the index header; false while that is held. -/
def State.writeHeader (s : State) (e count : Nat) (complete : Bool) : State × Bool :=
  s.writeIndex 0 (toBytes 4 e ++ toBytes 4 count ++ toBytes 1 (b2n complete) ++ List.replicate 55 0)

/-- END (R383, R384); it waits where the write of the header is held. -/
def State.couchEnd (s : State) (n : Nat) (p : Packet) : State :=
  s.couchIn n p fun s p =>
  let e := cEpoch p
  let a := RX_LOGSTAT.adr
  if p.src ≠ s.fld RX_CTL.adr RX_CTL.SRC then s.rxAnswer n p 3
  else if e = s.rxCommitted then s.rxAnswer n p 0
  else if s.rxState ≠ 2 || e ≠ s.fld a RX_LOGSTAT.EPOCH then s.rxAnswer n p 5
  else if s.has a RX_LOGSTAT.BAD then s.rxRest.rxAnswer n p 4
  else if cCount p ≠ s.couch.rxCount || s.fld a RX_LOGSTAT.SLOTS ≠ s.couch.rxCount then s.rxRest.rxAnswer n p 6
  else
    match s.writeHeader e (cCount p) true with
    | (s, false) => s.putWait (RtPkt.new (n / 36) 6 p)
    | (s, true) => (s.setF RX_STAT.adr RX_STAT.STATE 3).updCouch fun c => { c with rxNext := 0, rxEnd := some (n, p) }

/-- ABORT (R385). -/
def State.couchAbort (s : State) (n : Nat) (p : Packet) : State :=
  s.couchIn n p fun s p =>
  if p.src = s.fld RX_CTL.adr RX_CTL.SRC && cEpoch p = s.fld RX_LOGSTAT.adr RX_LOGSTAT.EPOCH then s.rxDiscard else s

/-- Apply the slots from `rxNext` on, `k` at most: true when all are applied. -/
def State.applySlots (s : State) : Nat → State × Bool
  | 0 => (s, true)
  | k + 1 =>
    let i := s.couch.rxNext
    if s.couch.rxCount ≤ i then (s, true)
    else
      let e := s.dramRead .engine false (s.fld RX_IDX.adr RX_IDX.BASE * 65536 + 64 + 8 * i) 8
      if e.ans = .held then (e.st, false)
      else
        let w := ofBytes e.bytes
        match e.st.readChunks ((e.st.fld RX_LOG.adr RX_LOG.BASE + i) * 65536) 0 16 with
        | (s, none) => (s, false)
        | (s, some cs) =>
          match (if nbit 63 w then s.writeChunks false (w % 2 ^ 24 * 65536) cs else (s, true)) with
          | (s, false) => (s, false)
          | (s, true) => (s.updCouch fun c => { c with rxNext := i + 1 }).applySlots k

/-- Every apply write has been performed (R384): COMMITTED follows and the header is cleared; BEGINs held meanwhile are
acted on.  While a write is held, the apply goes on with the next such command. -/
def State.applyDone (s : State) : State :=
  if s.rxState ≠ 3 then s
  else
    match s.applySlots (s.couch.rxCount + 1) with
    | (s, false) => s
    | (s, true) =>
      let e := s.fld RX_LOGSTAT.adr RX_LOGSTAT.EPOCH
      let s := s.setF RX_STAT.adr RX_STAT.COMMITTED e
      match s.writeHeader e s.couch.rxCount false with
      | (s, false) => s
      | (s, true) =>
        let c := s.couch
        let s := s.rxRest.updCouch fun c => { c with rxEnd := none, rxBegin := [], rxNext := 0 }
        let s := s.setF RX_CTL.adr RX_CTL.REAPPLY 0
        let s := match c.rxEnd with
          | some (n, p) => s.rxAnswer n p 0
          | none => s
        c.rxBegin.foldl (fun s b => s.beginLog b.1 b.2) (s.rxEvt RX_EVT.COMMITTED 7189)

/-- REAPPLY (R384): a complete log is applied again from slot 0.  The field reads 1 until the apply ends (R11), and
while the read of the header is held, which is then asked again. -/
def State.reapply (s : State) : State :=
  if s.rxState ≠ 1 then s
  else
    let h := s.dramRead .engine false (s.fld RX_IDX.adr RX_IDX.BASE * 65536) 16
    if h.ans = .held then h.st.setF RX_CTL.adr RX_CTL.REAPPLY 1
    else if h.ans ≠ .ok || !nbit 0 (bytesAt h.bytes 8 1) then h.st.setF RX_CTL.adr RX_CTL.REAPPLY 0
    else
      let s := (h.st.openLog (bytesAt h.bytes 0 4) (bytesAt h.bytes 4 4)).setF RX_STAT.adr RX_STAT.STATE 3
      (s.setF RX_CTL.adr RX_CTL.REAPPLY 1).updCouch fun c => { c with rxNext := 0, rxEnd := none }

/-- A REAPPLY whose read of the header was held is asked again. -/
def State.reapplyRetry (s : State) : State := if s.has RX_CTL.adr RX_CTL.REAPPLY then s.reapply else s

/-- A write of RX_CTL. -/
def State.writeRxCtl (s : State) (v : Word) : State :=
  let a := RX_CTL.adr
  let on := s.has a RX_CTL.ENABLE
  let s := if on then s else s.setF a RX_CTL.SRC (fget RX_CTL.SRC v)
  let s := s.setF a RX_CTL.ENABLE (fget RX_CTL.ENABLE v)
  let s := if s.rxState = 3 || (on && fset? RX_CTL.ENABLE v) then s else s.rxRest
  let s := if fset? RX_CTL.DISCARD v then s.rxDiscard else s
  if fset? RX_CTL.REAPPLY v then s.reapply else s

/-! ## Heartbeats (R386, R387) -/

/-- HB (R386, R387). -/
def State.couchHb (s : State) (n : Nat) (p : Packet) : State :=
  s.couchIn n p fun s p =>
  if p.src ≠ s.buddy then s
  else
    let c := bytesAt p.body 16 4
    let s := (s.setF CE_COMMIT.adr CE_COMMIT.BUDDY_COMMITTED c).setF CE_STAT.adr CE_STAT.MISSED 0
    let s := s.updCouch fun k => { k with heard := true }
    if s.has CE_STAT.adr CE_STAT.BUDDY_UP then s
    else
      let s := (s.setF CE_STAT.adr CE_STAT.BUDDY_UP 1).ceEvt CE_EVT.BUDDY_FOUND 7187
      if c ≠ s.fld CE_COMMIT.adr CE_COMMIT.COMMITTED then s.setF CE_EVT.adr CE_EVT.RESYNC_NEEDED 1 else s

/-- The body of this device's HB (R379), with CE_STAT.EPOCH as the epoch number. -/
def State.hbBody (s : State) : List Byte :=
  toBytes 4 0 ++ toBytes 4 s.ceEpoch ++ toBytes 8 0 ++ toBytes 4 s.rxCommitted
    ++ toBytes 1 (s.fld RX_CTL.adr RX_CTL.ENABLE + 2 * s.fld CE_CTL.adr CE_CTL.ENABLE) ++ toBytes 3 0

/-- HB_PERIOD passes: an HB is sent; a period without one counts as missed, and when MISSED reaches MISS_LIMIT the buddy
is lost (R386, R387). -/
def State.hbPeriod (s : State) : State :=
  let s := if s.has CE_CTL.adr CE_CTL.HB then
      (s.couchSend (s.couchPkt s.hbBody [] [])).updCouch fun c => { c with tag := (c.tag + 1) % 65536 }
    else s
  if s.couch.heard then s.updCouch fun c => { c with heard := false }
  else
    let was := s.fld CE_STAT.adr CE_STAT.MISSED
    let lim := s.fld CE_TIMING.adr CE_TIMING.MISS_LIMIT
    let s := s.satF CE_STAT.adr CE_STAT.MISSED 1
    if lim ≤ was + 1 && (was < lim || s.has CE_STAT.adr CE_STAT.BUDDY_UP) then
      (((s.setF CE_STAT.adr CE_STAT.BUDDY_UP 0).ceEvt CE_EVT.BUDDY_LOST 7186).epochFail false).rxDiscard
    else s

/-- The engine runs: router slice 3 is on (R367). -/
def State.atCouch (s : State) (f : State → State) : State := if s.isOn 299 then f s else s

end Sys2Proof.Machine
end

