-- ==== Sys2Proof/Machine/Chain.lean ====
section
/-!
DEFINITION. The chain (spec/12, R390 to R393): roles, enumeration and frames.
-/

namespace Sys2Proof.Machine

/-- A CHAIN_STAT field. -/
def State.chStat (s : State) (f : Fld) : Nat := s.fld CHAIN_STAT.adr f
/-- Set a CHAIN_STAT field. -/
def State.setCh (s : State) (f : Fld) (v : Nat) : State := s.setF CHAIN_STAT.adr f v
/-- A CHAIN_EVT bit is set, with its arrival (R394). -/
def State.chEvt (s : State) (f : Fld) : State :=
  (s.setF CHAIN_EVT.adr f 1).event (if f = CHAIN_EVT.RX then 7191 else 7192)

/-- The device acts in the chain at all: its strap is not standalone. -/
def State.chainOn (s : State) : Bool := s.chStat CHAIN_STAT.ROLE != 0
/-- The device is master: strapped so, with CHAIN_IN unconnected (R390). -/
def State.chainMaster (s : State) : Bool := s.chStat CHAIN_STAT.ROLE == 1 && s.chStat CHAIN_STAT.UP_CONN == 0
/-- The device is a member. -/
def State.chainMember (s : State) : Bool := s.chainOn && s.chStat CHAIN_STAT.UP_CONN == 1

/-- One step of the CRC-16 (R391). -/
def crc16Bit (c : BitVec 16) : BitVec 16 := if c.getLsbD 15 then (c <<< 1) ^^^ 0x1021#16 else c <<< 1
/-- One byte. -/
def crc16Byte (c : BitVec 16) (b : Byte) : BitVec 16 :=
  (numsFrom 0 8).foldl (fun c _ => crc16Bit c) (c ^^^ (b.setWidth 16 <<< 8))
/-- The CRC of a frame, most significant byte first. -/
def crc16 (bs : List Byte) : List Byte :=
  let c := bs.foldl crc16Byte 0xFFFF
  [(c >>> 8).setWidth 8, c.setWidth 8]

/-- The preamble of a frame (R391). -/
def preamble : List Byte := [0xAA, 0xAB]

/-- Send a frame, down or up, with its preamble and CRC; an unconnected or standalone port carries nothing. -/
def State.chainOut (s : State) (down : Bool) (f : List Byte) : State :=
  if (if down then s.chStat CHAIN_STAT.DOWN_CONN else s.chStat CHAIN_STAT.UP_CONN) = 1 then
    s.emit (.chainFrame down (preamble ++ f ++ crc16 f))
  else s

/-- A frame of TYPE, DEST, SRC and SEQ with payload byte 4. -/
def mkFrame (type dest src seq b4 : Nat) : List Byte :=
  toBytes 1 type ++ toBytes 1 dest ++ toBytes 1 src ++ toBytes 1 seq ++ toBytes 1 b4 ++ List.replicate 11 0

/-- The device's own position. -/
def State.chainPos (s : State) : Nat := s.chStat CHAIN_STAT.POSITION

/-- A frame that awaits an answer leaves for the first time. -/
def State.chainAsk (s : State) (down : Bool) (f : List Byte) : State :=
  let s : State := { s with chain := { s.chain with sent := some f, times := 1, enumFirst := true, seq := (s.chain.seq + 1) % 256 } }
  s.chainOut down f

/-- CHAIN_CMD.ENUM ends: its ENUM is not sent again. -/
def State.enumEnds (s : State) : State :=
  ({ s with chain := { s.chain with enum := none } } : State).setF CHAIN_CMD.adr CHAIN_CMD.ENUM 0

/-- CHAIN_IN changes (R390): a device strapped master is demoted when it becomes connected, and is master at position 0
again, without ENUM, when it is not. -/
def State.chainIn (s : State) (conn : Bool) : State :=
  let was := s.chStat CHAIN_STAT.UP_CONN
  let s := s.setCh CHAIN_STAT.UP_CONN (b2n conn)
  let r := s.chStat CHAIN_STAT.ROLE
  if r = 1 then
    (if conn && was = 0 then
      let s := s.enumEnds
      let s : State := { s with chain := { s.chain with demoted := true } }
      ((s.setCh CHAIN_STAT.DEMOTED 1).setCh CHAIN_STAT.MEMBERS 0).chEvt CHAIN_EVT.RX
     else if conn then s
     else (s.setCh CHAIN_STAT.DEMOTED 0).setCh CHAIN_STAT.POSITION 0)
  else if 2 ≤ r then s.setCh CHAIN_STAT.NO_MASTER (b2n (!conn))
  else s

/-- CHAIN_OUT changes. -/
def State.chainOutConn (s : State) (conn : Bool) : State := s.setCh CHAIN_STAT.DOWN_CONN (b2n conn)

/-- A free byte: the DEST of frames for which the spec gives none. -/
def State.freeByte (s : State) : Nat := (Config.freeWord s.freeTick).toNat % 256

/-- CHAIN_CMD.ENUM (R392): the master sends ENUM with position 1; one that was ever demoted ignores it (R390). -/
def State.chainEnumCmd (s : State) : State :=
  if s.chainMaster && !s.chain.demoted then
    let f := mkFrame 1 s.freeByte 0 s.chain.seq 1
    let s := (s.setF CHAIN_CMD.adr CHAIN_CMD.ENUM 1).tick
    ({ s with chain := { s.chain with enum := some f, enumTimes := 1, enumFirst := false, seq := (s.chain.seq + 1) % 256 } } :
      State).chainOut true f
  else s

/-- ENUM reaches a member (R392). -/
def State.chainEnum (s : State) (p : Nat) : State :=
  if !s.chainMember then s
  else if p = 16 then
    (s.setCh CHAIN_STAT.OVERFLOW 1).chainOut false (mkFrame 2 0 s.chainPos s.chain.seq 15)
  else
    let s := s.setCh CHAIN_STAT.POSITION p
    if s.chStat CHAIN_STAT.DOWN_CONN = 1 then s.tick.chainOut true (mkFrame 1 s.freeByte p s.chain.seq (p + 1))
    else s.chainOut false (mkFrame 2 0 p s.chain.seq p)

/-- ENUM_DONE: the master records the count; a member passes it on with its SRC and SEQ (R392, R393). -/
def State.chainEnumDone (s : State) (m : EnumDone) : State :=
  if s.chainMaster then (s.enumEnds.setCh CHAIN_STAT.MEMBERS m.count).chEvt CHAIN_EVT.RX
  else if s.chainMember then s.chainOut false (mkFrame 2 0 m.src m.seq m.count)
  else s

/-- A frame addressed to this device is delivered and answered; one that finds RX_FULL is not (R393). -/
def State.chainDeliver (s : State) (f : List Byte) (answer : Bool) : State :=
  if s.chStat CHAIN_STAT.RX_FULL = 1 then s
  else
    let s := (s.wr CHAIN_RX_0.adr (BitVec.ofNat 64 (bytesAt f 0 8))).wr CHAIN_RX_1.adr (BitVec.ofNat 64 (bytesAt f 8 8))
    let s := (s.setCh CHAIN_STAT.RX_FULL 1).chEvt CHAIN_EVT.RX
    let src := bytesAt f 2 1
    if answer then s.chainOut (s.chainPos < src) (mkFrame 3 src s.chainPos (bytesAt f 3 1) 0) else s

/-- A firmware frame arrives: one for this device is delivered, any other passed on (R393). -/
def State.chainFirmware (s : State) (fromUp : Bool) (f : List Byte) : State :=
  let dest := bytesAt f 1 1
  if dest = 0xFF then
    let last := s.chStat CHAIN_STAT.DOWN_CONN == 0
    let s := if s.chainMember then s.chainDeliver f last else s
    s.chainOut fromUp f
  else if dest = s.chainPos then s.chainDeliver f true
  else s.chainOut fromUp f

/-- An ACK for this device with the SEQ of the frame that waits ends its SEND (R393); any other is passed on. -/
def State.chainAck (s : State) (fromUp : Bool) (dest src seq : Nat) : State :=
  if !s.chainOn then s
  else if dest ≠ s.chainPos then s.chainOut fromUp (mkFrame 3 dest src seq 0)
  else
    match s.chain.sent with
    | some f =>
      if bytesAt f 3 1 = seq then
        ({ s with chain := { s.chain with sent := none } } : State).setF CHAIN_CMD.adr CHAIN_CMD.SEND 0
      else s
    | none => s

/-- CHAIN_CMD.SEND: the frame in CHAIN_TX leaves with SRC and SEQ filled (R393). -/
def State.chainSend (s : State) : State :=
  if !s.chainOn then s
  else
    let f := toBytes 8 (s.rd CHAIN_TX_0.adr).toNat ++ toBytes 8 (s.rd CHAIN_TX_1.adr).toNat
    let f := f.take 2 ++ toBytes 1 s.chainPos ++ toBytes 1 s.chain.seq ++ f.drop 4
    (s.setF CHAIN_CMD.adr CHAIN_CMD.SEND 1).chainAsk (s.chainPos < bytesAt f 1 1) f

/-- CHAIN_CMD.RELEASE (R393). -/
def State.chainRelease (s : State) : State := s.setCh CHAIN_STAT.RX_FULL 0

/-- 100 µs without an ACK: the frame is sent again up to 8 times and then fails (R393). -/
def State.sendAgain (s : State) : State :=
  match s.chain.sent with
  | none => s
  | some f =>
    if 9 ≤ s.chain.times then
      (({ s with chain := { s.chain with sent := none } } : State).setF CHAIN_CMD.adr CHAIN_CMD.SEND 0).chEvt CHAIN_EVT.ERR
    else
      ({ s with chain := { s.chain with times := s.chain.times + 1, enumFirst := true } } : State).chainOut
        (s.chainPos < bytesAt f 1 1) f

/-- 100 µs without ENUM_DONE: the ENUM is sent again until 8 sends have failed (CHAIN_CMD.ENUM). -/
def State.enumAgain (s : State) : State :=
  match s.chain.enum with
  | none => s
  | some f =>
    if 8 ≤ s.chain.enumTimes then s.enumEnds.chEvt CHAIN_EVT.ERR
    else ({ s with chain := { s.chain with enumTimes := s.chain.enumTimes + 1, enumFirst := false } } : State).chainOut true f

/-- CHAIN_RESEND: 100 µs have passed for what waits, the ENUM or the frame of a SEND; where both wait, first for the one
sent longer ago. -/
def State.chainResend (s : State) : State :=
  if s.chain.enum.isSome && (s.chain.sent.isNone || s.chain.enumFirst) then s.enumAgain else s.sendAgain

/-- A write of CHAIN_CMD. -/
def State.writeChainCmd (s : State) (v : Word) : State :=
  let s := if fset? CHAIN_CMD.RELEASE v then s.chainRelease else s
  let s := if fset? CHAIN_CMD.ENUM v then s.chainEnumCmd else s
  if fset? CHAIN_CMD.SEND v then s.chainSend else s

end Sys2Proof.Machine
end

