-- ==== Sys2Proof/Machine/Collectives.lean ====
section
/-!
DEFINITION. Collective contexts (spec/11, R351 to R356).
-/

namespace Sys2Proof.Machine

/-- COLL_CFG of context `c`. -/
def collCfg (c : Nat) : Nat := COLL_CFG.adr (c / 16) (c % 16)
/-- COLL_STAT of context `c`. -/
def collStat (c : Nat) : Nat := COLL_STAT.adr (c / 16) (c % 16)
/-- COLL_CNT of context `c`. -/
def collCnt (c : Nat) : Nat := COLL_CNT.adr (c / 16) (c % 16)

/-- Context `c`'s progress. -/
def State.collSt (s : State) (c : Nat) : CollSt := s.coll.get CollSt.reset c
/-- Replace it; COLL_STAT shows its counts. -/
def State.setCollSt (s : State) (c : Nat) (k : CollSt) : State :=
  let s : State := { s with coll := s.coll.put CollSt.reset c k }
  let a := collStat c
  ((s.setF a COLL_STAT.LOCAL_IN k.locals.length).setF a COLL_STAT.AHEAD k.ahead.length).setF a COLL_STAT.CHILD_IN
    k.heard.length

/-- The child links of context `c`, ascending. -/
def State.collChildren (s : State) (c : Nat) : List Nat :=
  let w := (s.rd (COLL_CHILD_0.adr (c / 16) (c % 16))).toNat + (s.rd (COLL_CHILD_1.adr (c / 16) (c % 16))).toNat * 2 ^ 64
    + (s.fld (COLL_CHILD_2.adr (c / 16) (c % 16)) COLL_CHILD_2.LINKS) * 2 ^ 128
  (numsFrom 0 144).filter fun i => nbit i w

/-- STATE of context `c`. -/
def State.collState (s : State) (c : Nat) : Nat := s.fld (collStat c) COLL_STAT.STATE
/-- Its current SEQ. -/
def State.collSeq (s : State) (c : Nat) : Nat := s.fld (collStat c) COLL_STAT.SEQ
/-- RESULT's address. -/
def State.collResult (s : State) (c : Nat) : Nat := s.fld (COLL_RESULT.adr (c / 16) (c % 16)) COLL_RESULT.ADDR

/-- The configuration is refused (R351). -/
def State.collBad (s : State) (c : Nat) (v : Word) : Bool :=
  let op := fget COLL_CFG.OP v
  let n := fget COLL_CFG.COUNT v
  let r := s.collResult c
  let par := fget COLL_CFG.PARENT v
  10 ≤ op || (op == 1 && (n == 0 || 7 < n)) || (2 ≤ op && (n == 0 || 64 < n))
    || (op == 1 && !fset? COLL_CFG.RAW v && 5 ≤ fget COLL_CFG.RND v % 8)
    || (!fset? COLL_CFG.ROOT v && (144 ≤ par || (s.collChildren c).contains par))
    || r % 8 != 0 || 0x8020000000 ≤ r
    || (fget COLL_CFG.NLOCAL v == 0 && (s.collChildren c).isEmpty)

/-- The fields a write of COLL_CFG stores; NLOCAL above 2,048 stores 2,048. -/
def collCfgValue (v : Word) : Word :=
  let keep : Word := 0xC0FF0FFFFFFF0000#64
  fput COLL_CFG.NLOCAL (min 2048 (fget COLL_CFG.NLOCAL v)) (v &&& keep)

/-- A COLL packet of context `c` for the far side of link `n` (R333, R336). -/
def State.collPkt (s : State) (c n : Nat) (down err : Bool) (data : List Byte) (mask : List Bool) : Packet :=
  { dest := s.fld (LNK_STAT.adr n) LNK_STAT.FAR_DEVICE, src := s.ownDev, op := 6, resp := false, oversize := false,
    len := data.length, tag := 0, hops := 1, status := 0, srcid := 0x3000 + c, epb := s.injBank,
    body := toBytes 1 c ++ toBytes 1 (b2n down) ++ toBytes 1 (b2n err) ++ toBytes 1 0 ++ toBytes 2 (s.collSeq c) ++ toBytes 2 0,
    data := data, mask := mask }

/-- It is sent (R336); nothing where the link is not in service. -/
def State.sendColl (s : State) (c n : Nat) (down err : Bool) (data : List Byte) (mask : List Bool) : State :=
  if s.linkUp n then s.sendHop (c / 16) n 5 (s.collPkt c n down err data mask) else s

/-- Send DOWN to every child. -/
def State.sendDown (s : State) (c : Nat) (err : Bool) (data : List Byte) (mask : List Bool) : State :=
  (s.collChildren c).foldl (fun s n => s.sendColl c n true err data mask) s

/-- The length of the record (R355). -/
def collLen (cfg : Word) : Nat :=
  let op := fget COLL_CFG.OP cfg
  if op = 0 then 0 else if op = 1 && fset? COLL_CFG.RAW cfg then 552 * fget COLL_CFG.COUNT cfg
  else 8 * fget COLL_CFG.COUNT cfg

/-- A piece of a record: its offset, bytes, and whether it is poisoned. -/
structure Piece where
  off : Nat
  bytes : List Byte
  poison : Bool
deriving DecidableEq, Repr

/-- The status word (R355). -/
def collStatus (seq code flags : Nat) : Word := BitVec.ofNat 64 (seq * 2 ^ 48 + code * 2 ^ 8 + flags)

/-- Poison bits for bytes that start on a word. -/
def pieceMask (b : List Byte) (poison : Bool) : List Bool := List.replicate ((b.length + 3) / 4) poison

/-- The engine writes pieces at `a`; one that is held stops it (false), and what was written stands until the whole is
written again. -/
def State.writePieces (s : State) (a : Nat) : List Piece → State × Bool
  | [] => (s, true)
  | p :: r =>
    match s.deckleWrite true (a + p.off) p.bytes (pieceMask p.bytes p.poison) with
    | (s, false) => (s, false)
    | (s, true) => s.writePieces a r

/-- The data of a DOWN packet with these pieces; bytes between forms are a free value. -/
def pieceData (free : Word) : Nat → List Piece → List Byte × List Bool
  | _, [] => ([], [])
  | o, p :: r =>
    let gap := ((numsFrom 0 (p.off - o)).map fun k => BitVec.ofNat 8 (byteOf (k % 8) free))
    let rest := pieceData free (p.off + p.bytes.length) r
    (gap ++ p.bytes ++ rest.1, List.replicate (gap.length / 4) false ++ pieceMask p.bytes p.poison ++ rest.2)

/-- The operation goes on to the next SEQ (R354). -/
def State.collNext (s : State) (c : Nat) : State :=
  let k := s.collSt c
  let s := (s.setF (collStat c) COLL_STAT.STATE 1).incF (collStat c) COLL_STAT.SEQ 1
  let s := s.setCollSt c { locals := k.ahead, ups := [], ahead := [], heard := [] }
  (s.satF (collCnt c) COLL_CNT.COMPLETED 1).event (7392 + c)

/-- An operation is in progress: a contribution or UP of the current SEQ has arrived, or the DOWN is awaited. -/
def State.collBusy (s : State) (c : Nat) : Bool :=
  let k := s.collSt c
  s.collState c == 2 || (s.collState c == 1 && (!k.locals.isEmpty || !k.heard.isEmpty))

/-- The status word of an operation that ended without a result is written; one that is held is owed (R356). -/
def State.collOwe (s : State) (c a : Nat) (w : Word) : State :=
  match s.deckleWrite true a (toBytes 8 w.toNat) [false, false] with
  | (s, true) => s
  | (s, false) => { s with collOwed := s.collOwed ++ [(c, a, w)] }

/-- The operation ends without a result (R356): ERR upward, DOWN with ERR to the children, a status word with `code`,
and the event. -/
def State.collEnd (s : State) (c code : Nat) : State :=
  let cfg := s.rd (collCfg c)
  let s := if fset? COLL_CFG.ROOT cfg then s else s.sendColl c (fget COLL_CFG.PARENT cfg) false true [] []
  let w := collStatus (s.collSeq c) code 0
  let s := s.collOwe c (s.collResult c + collLen cfg) w
  (s.sendDown c true (toBytes 8 w.toNat) [false, false]).event (7392 + c)

/-- Engine writes that were held are asked again: the status words still owed. -/
def State.engineRetry (s : State) : State :=
  s.collOwed.foldl (fun s o => s.collOwe o.1 o.2.1 o.2.2) { s with collOwed := [] }

/-- The context fails (R356). -/
def State.collFail (s : State) (c : Nat) : State :=
  ((s.collEnd c 1).setCollSt c CollSt.reset).setF (collStat c) COLL_STAT.STATE 3

/-- A write of COLL_CFG (R351). -/
def State.writeCollCfg (s : State) (c : Nat) (v : Word) : State :=
  let a := collCfg c
  if s.has a COLL_CFG.ENABLE then
    if fset? COLL_CFG.ENABLE v then s
    else
      let s := if s.collBusy c then s.collEnd c 2 else s
      ((s.setF a COLL_CFG.ENABLE 0).setCollSt c CollSt.reset).setF (collStat c) COLL_STAT.STATE 0
  else
    let w := collCfgValue v
    if !fset? COLL_CFG.ENABLE v then s.wr a w
    else if s.collBad c w then (s.wr a (fput COLL_CFG.ENABLE 0 w)).setF (collStat c) COLL_STAT.STATE 4
    else ((s.wr a w).setCollSt c CollSt.reset).setF (collStat c) COLL_STAT.STATE 1

/-- A write of COLL_SUBMIT (R352). -/
def State.collSubmit (s : State) (c : Nat) (v : Word) : State :=
  let k := s.collSt c
  let n := s.fld (collCfg c) COLL_CFG.NLOCAL
  let q := fget COLL_SUBMIT.SEQ v
  let a := fget COLL_SUBMIT.ADDR v
  let refuse := s.satF (collCnt c) COLL_CNT.REFUSED 1
  let open? := s.collState c == 1
  if open? && q = s.collSeq c && k.locals.length < n then s.setCollSt c { k with locals := k.locals ++ [a] }
  else if (open? || s.collState c = 2) && q = (s.collSeq c + 1) % 65536 && k.ahead.length < n then
    s.setCollSt c { k with ahead := k.ahead ++ [a] }
  else refuse

/-- The reams of forms laid one after another. -/
def formsIn : Nat → List Byte → List Bool → List Ream
  | 0, _, _ => []
  | n + 1, bs, m =>
    let len := formLen (ofBytes (bs.take 8)) (ofBytes ((bs.drop 8).take 8))
    Ream.ofBytes (bs.take len) ((m.take (len / 4)).any id) :: formsIn n (bs.drop len) (m.drop (len / 4))

/-- The words of a packet's data with their poison. -/
def wordsIn : Nat → List Byte → List Bool → List PW
  | 0, _, _ => []
  | n + 1, bs, m =>
    ⟨BitVec.ofNat 64 (ofBytes (bs.take 8)), (m.take 2).any id⟩ :: wordsIn n (bs.drop 8) (m.drop 2)

/-- What an UP packet carries. -/
def partOf (cfg : Word) (p : Packet) : CollPart :=
  let n := fget COLL_CFG.COUNT cfg
  let op := fget COLL_CFG.OP cfg
  if op = 0 then ⟨[], []⟩
  else if op = 1 then ⟨[], formsIn n p.data p.mask⟩
  else ⟨wordsIn n p.data p.mask, []⟩

/-- A COLL packet is discarded and counted where the context's slice is on (R356). -/
def State.collDrop (s : State) (c : Nat) : State :=
  if s.isOn (296 + c / 16) then s.satF (collCnt c) COLL_CNT.DISCARDED 1 else s

/-- An UP arrives on link `n` (R354, R356): with ERR it fails an operation in progress, also from a child that has sent
its part. -/
def State.collUp (s : State) (n : Nat) (p : Packet) : State :=
  s.withPkt (n / 36) p fun s p =>
  let c := bytesAt p.body 0 1
  let k := s.collSt c
  if 64 ≤ c then s
  else if !(s.collState c = 1 || s.collState c = 2) || bytesAt p.body 4 2 ≠ s.collSeq c || !(s.collChildren c).contains n then
    s.collDrop c
  else if nbit 0 (bytesAt p.body 2 1) then s.collFail c
  else if s.collState c = 2 || k.heard.contains n then s.collDrop c
  else s.setCollSt c { k with heard := nset k.heard n, ups := k.ups ++ [partOf (s.rd (collCfg c)) p] }

/-- Two words combined (R353). -/
def collWord (op : Nat) (x y : PW) : PW :=
  ⟨if op = 2 then x.val + y.val
   else if op = 3 then (if sle x.val y.val then x.val else y.val)
   else if op = 4 then (if sle x.val y.val then y.val else x.val)
   else if op = 5 then (if x.val.toNat ≤ y.val.toNat then x.val else y.val)
   else if op = 6 then (if x.val.toNat ≤ y.val.toNat then y.val else x.val)
   else if op = 7 then x.val &&& y.val
   else if op = 8 then x.val ||| y.val
   else x.val ^^^ y.val, x.poison || y.poison⟩

/-- Two contributions combined. -/
def CollPart.join (op : Nat) (x y : CollPart) : CollPart :=
  ⟨List.zipWith (collWord op) x.words y.words, List.zipWith Ream.merge x.reams y.reams⟩

/-- Read one 552-byte slot's form: the header, then its limbs. -/
def State.readForm (s : State) (a : Nat) : State × Option Ream :=
  let h := s.deckleRead true (parts a 16)
  if h.ans = .held then (h.st, none)
  else
    let w0 := ofBytes (h.bytes.take 8)
    let w1 := ofBytes (h.bytes.drop 8)
    let n := formLen w0 w1
    if h.poison.any id then (h.st, some Ream.poisoned)
    else
      let r := h.st.deckleRead true (parts (a + 16) (n - 16))
      if r.ans = .held then (r.st, none)
      else (r.st, some (Ream.ofForm w0 w1 (words64 ((n - 16) / 8) r.bytes) (r.poison.any id)))

/-- Read `n` forms at a stride of 552 bytes. -/
def State.readForms (s : State) : Nat → Nat → State × Option (List Ream)
  | _, 0 => (s, some [])
  | a, n + 1 =>
    match s.readForm a with
    | (s, none) => (s, none)
    | (s, some r) =>
      match s.readForms (a + 552) n with
      | (s, none) => (s, none)
      | (s, some rs) => (s, some (r :: rs))

/-- Read a local contribution (R352, R353); none while an access is held.  What a deckle gate answers reads as 0. -/
def State.readPart (s : State) (cfg : Word) (a : Nat) : State × Option CollPart :=
  let n := fget COLL_CFG.COUNT cfg
  let op := fget COLL_CFG.OP cfg
  if op = 0 then (s, some ⟨[], []⟩)
  else if op = 1 then
    (match s.readForms a n with
     | (s, none) => (s, none)
     | (s, some rs) => (s, some ⟨[], rs⟩))
  else
    let r := s.deckleRead true (parts a (8 * n))
    if r.ans = .held then (r.st, none)
    else (r.st, some ⟨wordsIn n r.bytes (if a % 4 = 0 then r.poison else List.replicate (2 * n) (r.poison.any id)), []⟩)

/-- Read every local contribution. -/
def State.readLocals (s : State) (cfg : Word) : List Nat → State × Option (List CollPart)
  | [] => (s, some [])
  | a :: r =>
    match s.readPart cfg a with
    | (s, none) => (s, none)
    | (s, some p) =>
      match s.readLocals cfg r with
      | (s, none) => (s, none)
      | (s, some ps) => (s, some (p :: ps))

/-- The result record's pieces from the combined contribution, and the IEEE flags (R354, R355). -/
def collRecord (cfg : Word) (x : CollPart) : List Piece × FFlags :=
  let op := fget COLL_CFG.OP cfg
  if op = 1 && fset? COLL_CFG.RAW cfg then
    ((x.reams.zip (numsFrom 0 x.reams.length)).map fun r => ⟨552 * r.2, r.1.bytes, r.1.poison⟩, 0)
  else if op = 1 then
    (let rs := x.reams.map fun r => r.rnd (fget COLL_CFG.RND cfg) ⟨0, false, false⟩
     ((rs.zip (numsFrom 0 rs.length)).map fun r => ⟨8 * r.2, toBytes 8 r.1.1.val.toNat, r.1.1.poison⟩,
      rs.foldl (fun f r => f ||| r.2) 0))
  else ((x.words.zip (numsFrom 0 x.words.length)).map fun w => ⟨8 * w.2, toBytes 8 w.1.val.toNat, w.1.poison⟩, 0)

/-- The record is written and sent down, and the operation completes (R354); nothing while the write is held. -/
def State.collDeliver (s : State) (c : Nat) (ps : List Piece) : State :=
  match s.writePieces (s.collResult c) ps with
  | (s, false) => s
  | (s, true) =>
    let d := pieceData (Config.freeWord s.freeTick) 0 ps
    (s.tick.sendDown c false d.1 d.2).collNext c

/-- Every contribution has arrived (R354). -/
def State.collReady (s : State) (c : Nat) : Bool :=
  let k := s.collSt c
  s.collState c == 1 && k.locals.length == s.fld (collCfg c) COLL_CFG.NLOCAL
    && k.heard.length == (s.collChildren c).length

/-- The context combines: UP to the parent, or at the root the result (R354). -/
def State.collCombine (s : State) (c : Nat) : State :=
  if !s.collReady c then s
  else
    let cfg := s.rd (collCfg c)
    let k := s.collSt c
    match s.readLocals cfg k.locals with
    | (s, none) => s
    | (s, some ls) =>
      match ls ++ k.ups with
      | [] => s
      | x :: r =>
        let t := r.foldl (CollPart.join (fget COLL_CFG.OP cfg)) x
        if fset? COLL_CFG.ROOT cfg then
          let rec' := collRecord cfg t
          s.collDeliver c (rec'.1 ++ [⟨collLen cfg, toBytes 8 (collStatus (s.collSeq c) 0 rec'.2.toNat).toNat, false⟩])
        else
          let bs := t.reams.flatMap Ream.bytes ++ t.words.flatMap fun w => toBytes 8 w.val.toNat
          let m := (t.reams.flatMap fun r => pieceMask r.bytes r.poison) ++ t.words.flatMap fun w => [w.poison, w.poison]
          (s.sendColl c (fget COLL_CFG.PARENT cfg) false false bs m).setF (collStat c) COLL_STAT.STATE 2

/-- The pieces of a DOWN packet's data: the record as R355 lays it out, and the status word. -/
def downPieces (cfg : Word) (p : Packet) : List Piece :=
  let n := fget COLL_CFG.COUNT cfg
  let len := collLen cfg
  let piece (o k : Nat) : Piece :=
    ⟨o, (p.data.drop o).take k, (((p.mask.drop (o / 4)).take ((k + 3) / 4)).any id)⟩
  let status := piece len 8
  if len = 552 * n && fget COLL_CFG.OP cfg = 1 && fset? COLL_CFG.RAW cfg then
    (numsFrom 0 n).map (fun j => piece (552 * j) (formLen (bytesAt p.data (552 * j) 8) (bytesAt p.data (552 * j + 8) 8)))
      ++ [status]
  else (numsFrom 0 (len / 8)).map (fun j => piece (8 * j) 8) ++ [status]

/-- A DOWN arrives on link `n` (R354, R356). -/
def State.collDown (s : State) (n : Nat) (p : Packet) : State :=
  s.withPkt (n / 36) p fun s p =>
  let c := bytesAt p.body 0 1
  let cfg := s.rd (collCfg c)
  if 64 ≤ c then s
  else if s.collState c = 1 || s.collState c = 2 then
    if bytesAt p.body 4 2 ≠ s.collSeq c || fset? COLL_CFG.ROOT cfg || fget COLL_CFG.PARENT cfg ≠ n then s.collDrop c
    else if nbit 0 (bytesAt p.body 2 1) then s.collFail c
    else if s.collState c = 1 then s.collDrop c
    else
      (match s.writePieces (s.collResult c) (downPieces cfg p) with
       | (s, false) => s.putWait (RtPkt.new (n / 36) 5 p)
       | (s, true) => (s.sendDown c false p.data p.mask).collNext c)
  else s.collDrop c

/-- LIMIT µs have passed from the first contribution or UP (R356). -/
def State.collTimeout (s : State) (c : Nat) : State :=
  if s.collBusy c && s.fld (COLL_TIMEOUT.adr (c / 16) (c % 16)) COLL_TIMEOUT.LIMIT ≠ 0 then s.collFail c else s

/-- Whether context `c` awaits link `n`. -/
def State.collAwaits (s : State) (c n : Nat) : Bool :=
  s.collBusy c && (if s.collState c = 2 then s.fld (collCfg c) COLL_CFG.PARENT == n
    else (s.collChildren c).contains n && !(s.collSt c).heard.contains n)

/-- Contexts that await link `n` fail where it is not in service (R356). -/
def State.collLink (s : State) (n : Nat) : State :=
  if s.linkUp n then s
  else (numsFrom 0 64).foldl (fun s c => if s.collAwaits c n then s.collFail c else s) s

end Sys2Proof.Machine
end

