-- ==== Sys2Proof/Machine/BlackBox.lean ====
section
/-!
DEFINITION. The black box (spec/14, R465, R466).
-/

namespace Sys2Proof.Machine

/-- CRC-32 of a record's first 28 bytes. -/
def bbCrc (bs : List Byte) : List Byte := toBytes 4 (flitCrc bs 0).toNat

/-- A record that nothing has written: TYPE 0x0000, with a good CRC (assumption log entry 20). -/
def bbEmpty : List Byte := List.replicate 28 0 ++ bbCrc (List.replicate 28 0)

/-- Record `i`. -/
def State.bbRec (s : State) (i : Nat) : List Byte := s.bb.get bbEmpty i

/-- The bytes of a new record: AON count, TYPE, global time (0 while the time base is off), DATA. -/
def State.bbBytes (s : State) (type : Nat) (data : List Byte) : List Byte :=
  let d := (data ++ List.replicate 12 0).take 12
  let b := toBytes 6 s.clock.aon.toNat ++ toBytes 2 type
    ++ toBytes 8 (if s.isOn 302 then s.clock.gt.toNat else 0) ++ d
  b ++ bbCrc b

/-- WPTR by majority of its three copies; none where no two agree. -/
def bbMajority : List Nat → Option Nat
  | [a, b, c] => if a = b || a = c then some a else if b = c then some b else none
  | _ => none

/-- The next record to be written: WPTR, or a free value where no two copies agree. -/
def State.bbPtr (s : State) : Nat :=
  match bbMajority s.wptr with
  | some w => w % 8192
  | none => (Config.freeWord s.freeTick).toNat % 8192

/-- A record is written at WPTR, over the oldest once the ring is full; with FREEZE it is not, and DROPPED counts it,
the first with event 7,653. -/
def State.bbWrite (s : State) (type : Nat) (data : List Byte) : State :=
  if s.has BB_STAT.adr BB_STAT.FREEZE then
    let first := s.fld BB_STAT.adr BB_STAT.DROPPED = 0
    let s := s.satF BB_STAT.adr BB_STAT.DROPPED 1
    if first then s.event 7653 else s
  else
    let w := s.bbPtr
    let n := (w + 1) % 8192
    let s := { s with bb := s.bb.put bbEmpty w (s.bbBytes type data), wptr := [n, n, n] }
    (s.setF BB_STAT.adr BB_STAT.WPTR n).setF BB_STAT.adr BB_STAT.COUNT
      (min 8192 (s.fld BB_STAT.adr BB_STAT.COUNT + 1))

/-- Whether a record's CRC holds. -/
def bbGood (r : List Byte) : Bool := r.length == 32 && r.drop 28 == bbCrc (r.take 28)

/-- The boot ROM's check of the black box (R466). -/
def State.bbCheck (s : State) : State :=
  let bad := (s.bb.filter fun r => !bbGood r.2).length
  let lost := (bbMajority s.wptr).isNone
  let s := s.setF BB_STAT.adr BB_STAT.BAD bad
  if bad ≠ 0 || lost then
    let s := { s with wptr := [0, 0, 0] }
    ((s.setF BB_STAT.adr BB_STAT.CORRUPT 1).setF BB_STAT.adr BB_STAT.WPTR 0).setF BB_STAT.adr BB_STAT.COUNT 0
  else s

/-- A write of BB_WR_GO: a firmware record of BB_WR_TYPE; a TYPE below 0x0100 writes nothing. -/
def State.bbWrGo (s : State) : State :=
  let t := s.fld BB_WR_TYPE.adr BB_WR_TYPE.TYPE
  if s.isOn 301 && 0x100 ≤ t then
    s.bbWrite t (toBytes 8 (s.rd BB_WR_DATA_0.adr).toNat ++ toBytes 4 (s.rd BB_WR_DATA_1.adr).toNat)
  else s

/-- BB_RD_w: eight bytes of record INDEX. -/
def State.readBbRd (s : State) (w : Nat) : Word :=
  BitVec.ofNat 64 (bytesAt (s.bbRec (s.fld BB_RD_IDX.adr BB_RD_IDX.INDEX)) (8 * w) 8)

end Sys2Proof.Machine
end

