-- ==== Sys2Proof/Machine/Hub.lean ====
section
/-!
DEFINITION. The event hub (spec/09, R277 to R287) and crossing 10 into the AON domain (R290).
-/

namespace Sys2Proof.Machine

/-- A read of EV_CLAIM_c (R280): marks the best source in service and returns it with its snapshot, or 0. -/
def State.claim (s : State) (c : Nat) : State × Word :=
  match s.bestSource c with
  | none => (s, 0)
  | some (n, e) =>
    (s.setSrc n { e with insvc := true, svcCore := c },
     BitVec.ofNat 64 (2 ^ 63 + (if e.isLevel then 1 else e.count) * 2 ^ 32 + b2n e.isLevel * 2 ^ 28
       + e.prio * 2 ^ 24 + n))

/-- Source `e` acknowledged by `amount` (R281): clamped at 0 with ACK_OVER, out of service. -/
def EvSource.eoi (e : EvSource) (amount : Nat) : EvSource :=
  if e.isLevel then { e with insvc := false }
  else { e with insvc := false, count := e.count - amount,
                acked := (e.acked + min amount e.count) % 2 ^ 32,
                ackOver := e.ackOver || e.count < amount }

/-- A write of EV_EOI_c (R281). -/
def State.eoi (s : State) (c : Nat) (v : Word) : State :=
  let n := fget EV_EOI.SOURCE v
  let e := s.src n
  if e.insvc && e.svcCore == c then (s.setSrc n (e.eoi (fget EV_EOI.AMOUNT v))).noteCore e.target
  else s.setF (EV_CORE_STAT.adr c) EV_CORE_STAT.BAD_EOI 1

/-- The sources of word `w` whose bits of `mask` are set. -/
def maskSources (w : Nat) (mask : Word) : List Nat :=
  ((numsFrom 0 64).filter fun i => mask.getLsbD i).map fun i => w * 64 + i

/-- EV_PEND through its SET alias: one arrival at each selected counting source (R279). -/
def State.pendSet (s : State) (w : Nat) (mask : Word) : State :=
  (maskSources w mask).foldl (fun s n => s.event n) s

/-- Source `e`'s whole COUNT subtracted into ACKED (R279). -/
def EvSource.clear (e : EvSource) : EvSource :=
  if e.isLevel then e else { e with count := 0, acked := (e.acked + e.count) % 2 ^ 32 }

/-- EV_PEND through its CLR alias (R279). -/
def State.pendClr (s : State) (w : Nat) (mask : Word) : State :=
  (maskSources w mask).foldl (fun s n => if 7712 ≤ n then s else s.setSrc n (s.src n).clear) s

/-- The input of a level source changes (R278, R288). -/
def State.levelChange (s : State) (n : Nat) (high : Bool) : State :=
  let e := s.src n
  if 7712 ≤ n || !e.isLevel then s
  else
    let s := s.setSrc n { e with level := high }
    if high then (s.fireSlots n).noteCore e.target else s

/-- A write of EV_RING: one arrival at the doorbell (R284). -/
def State.ring (s : State) (v : Word) : State := s.event (fget EV_RING.DOORBELL v)

/-- The bit array of word `w` by a property of sources; reserved sources read 0 (R278, R279). -/
def State.srcBits (s : State) (w : Nat) (f : EvSource → Bool) : Word :=
  BitVec.ofNat 64 ((numsFrom 0 64).foldl (fun n i =>
    if w * 64 + i < 7712 && f (s.src (w * 64 + i)) then n + 2 ^ i else n) 0)

/-- Change the sources of word `w` selected by `mask` (reserved sources ignore it). -/
def State.updSrcs (s : State) (w : Nat) (mask : Word) (f : EvSource → EvSource) : State :=
  (maskSources w mask).foldl (fun s n => if 7712 ≤ n then s else (s.setSrc n (f (s.src n))).noteCore (s.src n).target) s

/-- EV_CFG_n, EV_COUNT_n and EV_BOOK_n as read. -/
def State.readSource (s : State) (n k : Nat) : Word :=
  let e := s.src n
  if k = 0 then
    (if 7712 ≤ n then 0x80000000
     else BitVec.ofNat 64 (b2n e.isLevel * 2 ^ 30 + e.prio * 2 ^ 16 + e.target))
  else if 7712 ≤ n then 0
  else if k = 1 then
    BitVec.ofNat 64 (e.svcCore * 2 ^ 32 + b2n (e.isLevel && e.level) * 2 ^ 17 + b2n e.insvc * 2 ^ 16
      + (if e.isLevel then 0 else e.count))
  else BitVec.ofNat 64 (e.arrived * 2 ^ 32 + e.acked)

/-- A write of EV_CFG_n: PRIORITY and TARGET (R278); a level that is high may now find its target asleep (R288). -/
def State.writeCfg (s : State) (n : Nat) (v : Word) : State :=
  if 7712 ≤ n then s
  else (s.setSrc n { s.src n with prio := fget EV_CFG.PRIORITY v, target := fget EV_CFG.TARGET v }).fireLevels.noteCore
    (fget EV_CFG.TARGET v)

/-- EV_CORE_STAT_c as read. -/
def State.readCoreStat (s : State) (c : Nat) : Word :=
  let k := (s.hub.filter fun p => p.2.insvc && p.2.svcCore == c).length
  BitVec.ofNat 64 (k * 2 ^ 48 + s.fld (EV_CORE_STAT.adr c) EV_CORE_STAT.BAD_EOI * 2 + b2n (s.eventPending c))

/-! ## Crossing 10 (R290) -/

/-- WW_STAT.BUSY and the LEVEL of crossing 10 follow what it holds. -/
def State.aonShow (s : State) : State :=
  let s := s.setF WW_STAT.adr WW_STAT.BUSY (b2n !(s.aonQueue.isEmpty && s.aonWait.isEmpty))
  s.setF (XSTAT.adr (winBase .svc) 10) XSTAT.LEVEL (b2n (1 < s.aonQueue.length))

/-- Held writes enter crossing 10 in order while it has room and is not in RESYNC; their requesters are to be
acknowledged. -/
def State.aonEnter (s : State) : State :=
  let k := if s.xState .svc 10 = 1 then 0 else 2 - s.aonQueue.length
  { s with aonQueue := s.aonQueue ++ s.aonWait.take k, aonWait := s.aonWait.drop k,
           aonAcks := s.aonAcks ++ ((s.aonWait.take k).filter AonSetting.asks).map fun a => ⟨a.who, a.addr, true⟩ }

/-- How crossing 10 answers a write: it has entered, it is held, or R60 turns it away. -/
inductive AonAns where
  | entered | held | away
deriving DecidableEq, Repr

/-- A write of a watcher slot, AON_ALARM or BRD_SMB comes to crossing 10 (R290, R60): behind one held and one pending
value, and in RESYNC, it is held and its requester waits; nothing is ever replaced.  A requester that asks again while
its write is held sees the answer once it is there. -/
def State.aonWrite (s : State) (who : Who) (addr : Nat) (v : Word) (asks : Bool) : State × AonAns :=
  match if asks then s.aonAcks.find? fun a => a.who == who && a.addr == addr else none with
  | some a => ({ s with aonAcks := s.aonAcks.erase a }, if a.entered then .entered else .away)
  | none =>
    if asks && s.aonWait.any fun a => a.asks && a.who == who && a.addr == addr then (s, .held)
    else
      let s := s.xWarm .svc 10
      if s.xState .svc 10 = 1 && (s.xing .svc 10).timedOut then
        ((s.satF (xCnt .svc 10) XCNT.DISCARD 1).xFlag .svc 10 XSTAT.TIMEOUT, .away)
      else if s.xState .svc 10 = 1 || 2 ≤ s.aonQueue.length then
        (({ s with aonWait := s.aonWait ++ [⟨who, addr, v, asks⟩] } : State).aonShow, .held)
      else (({ s with aonQueue := s.aonQueue ++ [⟨who, addr, v, asks⟩] } : State).aonShow, .entered)

/-- What the register at `addr` holds once the AON domain has taken `v`: a write of ACTION 3 leaves a slot's ACTION,
BRD_SMB and AON_ALARM take their fields. -/
def aonValue (old : Word) (addr : Nat) (v : Word) : Word :=
  match regAt addr with
  | none => old
  | some h =>
    let w := writeFields h.row.fields .main v old
    if 0xC050300000 ≤ addr && addr < 0xC050300200 && fget WW_SLOT.ACTION v = 3 then
      fput WW_SLOT.ACTION (fget WW_SLOT.ACTION old) w
    else w

/-- The AON domain takes the held value of crossing 10 and confirms it; the next becomes held, and a held writer's value
pending (R290). A taken AON_ALARM is armed (R435). A slot that now watches a level that is high fires for a sleeping
target while the hub is on (R288, R289). -/
def State.aonTake (s : State) : State :=
  match s.aonQueue with
  | [] => s
  | a :: r =>
    if s.xState .svc 10 ≠ 0 && !(s.xing .svc 10).cold then s
    else
      let s := ({ s with aonQueue := r } : State).aonEnter
      let s := (s.wr a.addr (aonValue (s.rd a.addr) a.addr a.value)).aonShow
      let s := if a.addr = AON_ALARM.adr then { s with clock := { s.clock with aonArmed := true } } else s
      if s.hubOn then s.fireLevels else s

/-- Crossing 10 goes into RESYNC (R58): the held and the pending value are discarded and counted, held writers stay.  No
value is offered again afterwards: each names its own register, and the AON domain keeps what it took (log entry 68). -/
def State.aonResync (s : State) : State :=
  let s := s.satF (xCnt .svc 10) XCNT.DISCARD s.aonQueue.length
  ({ s with aonQueue := [] } : State).aonShow

/-- Crossing 10 has been in RESYNC for 50 µs: the writes it holds are answered as by a deckle gate and counted (R60). -/
def State.aonTimeout (s : State) : State :=
  if s.xState .svc 10 = 1 && !s.aonWait.isEmpty then
    let s := (s.satF (xCnt .svc 10) XCNT.DISCARD s.aonWait.length).xFlag .svc 10 XSTAT.TIMEOUT
    let s := s.setXing .svc 10 { s.xing .svc 10 with timedOut := true }
    ({ s with aonAcks := s.aonAcks ++ (s.aonWait.filter AonSetting.asks).map fun a => ⟨a.who, a.addr, false⟩, aonWait := [] } : State).aonShow
  else s

/-- A crossing goes into RESYNC by a reset of a side, and crossing 10 with its settings (R58). -/
def State.sideReset (s : State) (w : Window) (x : Nat) (powerOn : Bool) : State :=
  let s := s.xSideReset w x powerOn
  if xHoldsWriters w x then s.aonResync else s

/-- A crossing goes into RESYNC by XCTL.RESYNC, and crossing 10 with its settings (R58). -/
def State.ctlResync (s : State) (w : Window) (x : Nat) : State :=
  let s := s.xResync w x
  if xHoldsWriters w x then s.aonResync else s

/-- A crossing becomes READY, and the writes that crossing 10 held proceed (R58 step 5). -/
def State.resynced (s : State) (w : Window) (x : Nat) : State :=
  let s := s.resyncComplete w x
  if xHoldsWriters w x then s.aonEnter.aonShow else s

/-- Requests held in RESYNC for 50 µs are answered, at crossing 10 its writers too (R60). -/
def State.holdTimeout (s : State) (w : Window) (x : Nat) : State :=
  let s := s.resyncHoldTimeout w x
  if xHoldsWriters w x then s.aonTimeout else s

/-- The destination of a hold-and-flag register acknowledges; the AON domain's acknowledgement takes a setting. -/
def State.hfrTaken (s : State) (w : Window) (x : Nat) : State :=
  if xHoldsWriters w x && !s.aonQueue.isEmpty then s.aonTake else s.hfrAck w x

/-- The hub is on again: AON arrivals that waited are delivered, one each (R289). -/
def State.deliverAon (s : State) : State :=
  let l := s.aonPend
  l.foldl (fun s n => if n < 7712 then (s.setSrc n ((s.src n).addCount 1)).noteCore (s.src n).target else s) { s with aonPend := [] }

end Sys2Proof.Machine
end

