-- ==== Sys2Proof/Machine/Power.lean ====
section
/-!
DEFINITION. Performance levels, ramps, the power cap and the thermal and package limits (spec/13, R403 to R408,
R425 to R428).
-/

namespace Sys2Proof.Machine

/-- A running ramp reaches the effective level: LEVEL_NOW shows it, and a waiting upward ramp may start (R404). -/
def State.rampEnd (s : State) (k : Nat) : State :=
  if !s.has (DOM_STAT.adr k) DOM_STAT.RAMPING then s
  else
    let e := s.fld (DOM_STAT.adr k) DOM_STAT.LEVEL_EFF
    let s := s.setF (DOM_STAT.adr k) DOM_STAT.RAMPING 0
    let s := s.setF (DOM_STAT.adr k) DOM_STAT.LEVEL_NOW e
    let s := { s with power := { s.power with
      volt := s.power.volt.put 500 k (levelVolt e), ramping := s.power.ramping.filter fun j => j ≠ k } }
    s.rampNext

/-- A ramp of domain `k` that has not ended has come some way: how far is a free value, and LEVEL_NOW shows the level
that the present voltage guarantees (R404). -/
def State.rampOn (s : State) (k : Nat) : State :=
  let v := s.volt k
  let goal := levelVolt (s.fld (DOM_STAT.adr k) DOM_STAT.LEVEL_EFF)
  let f := (Config.freeWord s.freeTick).toNat
  if !s.has (DOM_STAT.adr k) DOM_STAT.RAMPING || v = goal then s
  else
    let v := if v < goal then v + f % (goal - v) else v - f % (v - goal)
    (({ s with power := { s.power with volt := s.power.volt.put 500 k v } } : State).setF (DOM_STAT.adr k)
      DOM_STAT.LEVEL_NOW (levelAt v)).tick

/-- Time passes for every ramp (R404). -/
def State.rampsRun (s : State) : State := ((numsFrom 0 302).filter levelled).foldl (fun s k => s.rampOn k) s

/-! ## The power cap (R425, R426) -/

/-- A transfer end: a physical tile, or 255 for FREE. -/
def xferEnd (i : Nat) : Bool := i = 255 || i < 136

/-- Tokens a transfer end holds: 255 is FREE, other numbers above 135 hold none. -/
def State.tokens (s : State) (i : Nat) : Nat :=
  if i = 255 then s.fld PCAP_POOL.adr PCAP_POOL.FREE
  else if i < 136 then s.fld (TILE_ALLOC.adr i) TILE_ALLOC.TOKENS
  else 0

/-- `s` with a transfer end holding `n` tokens. -/
def State.setTokens (s : State) (i n : Nat) : State :=
  if i = 255 then s.setF PCAP_POOL.adr PCAP_POOL.FREE n
  else if i < 136 then s.setF (TILE_ALLOC.adr i) TILE_ALLOC.TOKENS n
  else s

/-- The cap limit of a transfer end that is a tile, while the cap is in force. -/
def State.capOf (s : State) (i : Nat) : Nat :=
  if i < 136 && s.has PCAP_POOL.adr PCAP_POOL.ENABLE then s.capLevel (s.tokens i) else 7

/-- A write of PCAP_XFER (R426): ignored while GO reads 1; with GO = 1 the source is debited, or REFUSED is set.  Where
an end is neither a tile nor FREE nothing moves either. -/
def State.pcapXfer (s : State) (v : Word) : State :=
  let a := PCAP_XFER.adr
  if s.has a PCAP_XFER.GO then s
  else
    let n := fget PCAP_XFER.AMOUNT v
    let src := fget PCAP_XFER.FROM v
    let s := ((s.setF a PCAP_XFER.AMOUNT n).setF a PCAP_XFER.FROM src).setF a PCAP_XFER.TO (fget PCAP_XFER.TO v)
    if !fset? PCAP_XFER.GO v then s
    else if s.tokens src < n then s.setF a PCAP_XFER.REFUSED 1
    else if !xferEnd src || !xferEnd (fget PCAP_XFER.TO v) then s
    else
      let t := ((s.setTokens src (s.tokens src - n)).setF a PCAP_XFER.REFUSED 0).setF a PCAP_XFER.GO 1
      ({ t with power := { t.power with xferWait := t.capOf src < s.capOf src } } : State).relevel

/-- The downward ramp that the debit made necessary has ended: TO is credited, GO returns to 0, event 7,049 (R426). -/
def State.pcapDone (s : State) : State :=
  let a := PCAP_XFER.adr
  let src := s.fld a PCAP_XFER.FROM
  let dst := s.fld a PCAP_XFER.TO
  if !s.has a PCAP_XFER.GO then s
  else if s.power.xferWait && s.isOn src && levelVolt (s.effLevel src) < s.volt src then s
  else
    let s : State := { s with power := { s.power with xferWait := false } }
    (((s.setTokens dst (s.tokens dst + s.fld a PCAP_XFER.AMOUNT)).setF a PCAP_XFER.GO 0).relevel).event 7049

/-- Tokens allocated to tiles, and those in flight (R425). -/
def State.tokensOut (s : State) : Nat :=
  (numsFrom 0 136).foldl (fun n i => n + s.fld (TILE_ALLOC.adr i) TILE_ALLOC.TOKENS) 0
    + (if s.has PCAP_XFER.adr PCAP_XFER.GO then s.fld PCAP_XFER.adr PCAP_XFER.AMOUNT else 0)

/-- A write of PCAP_POOL: POOL is stored no lower than the tokens out, and FREE is what is left (R425). -/
def State.pcapPool (s : State) (v : Word) : State :=
  let a := PCAP_POOL.adr
  let used := s.tokensOut
  let p := max used (fget PCAP_POOL.POOL v)
  (((s.setF a PCAP_POOL.ENABLE (fget PCAP_POOL.ENABLE v)).setF a PCAP_POOL.POOL p).setF a PCAP_POOL.FREE (p - used)).relevel

/-! ## Package and thermal limits (R427, R428) -/

/-- The end of a 100 µs window that drew `watts` on average (R427). -/
def State.pkgWindow (s : State) (watts : Nat) : State :=
  let lim := s.fld PKG_CTL.adr PKG_CTL.LIMIT_W
  if !s.isOn 301 || !s.has PKG_CTL.adr PKG_CTL.ENABLE then s
  else if lim < watts then
    (State.relevel ({ s with power := { s.power with pkgDrop := min 7 (s.power.pkgDrop + 1), pkgBelow := 0 } }.setF
      PKG_CTL.adr PKG_CTL.ENGAGED 1)).event 7044
  else if watts * 100 < lim * 95 then
    (if s.power.pkgBelow + 1 < 10 then { s with power := { s.power with pkgBelow := s.power.pkgBelow + 1 } }
     else
      let d := s.power.pkgDrop - 1
      let s := { s with power := { s.power with pkgDrop := d, pkgBelow := 0 } }
      (if d = 0 then s.setF PKG_CTL.adr PKG_CTL.ENGAGED 0 else s).relevel)
  else { s with power := { s.power with pkgBelow := 0 } }

/-- The sensors of die `die`: 7d to 7d + 6 on compute die d, 56 + 2i and 57 + 2i on I/O die i = die − 8 (R428). -/
def dieSensors (die : Nat) : List Nat :=
  if die < 8 then numsFrom (7 * die) 7 else numsFrom (56 + 2 * (die - 8)) 2

/-- Show whether a die is throttled in THERM_CTL. -/
def State.showThrottled (s : State) (die : Nat) (on : Bool) : State :=
  let w := s.rd THERM_CTL.adr
  let b : Word := BitVec.ofNat 64 (if die < 8 then 2 ^ die else 2 ^ (16 + (die - 8)))
  s.wr THERM_CTL.adr (if on then w ||| b else w &&& ~~~ b)

/-- One throttle period of a die with these sensor readings (R428): above THROTTLE_C its limit drops one level, with
event 7,043 if it was not throttled; 2 °C below on every sensor, at the end of a millisecond, it rises one level. -/
def State.thermalStep (s : State) (die : Nat) (temps : List (BitVec 16)) (ms : Bool) : State :=
  let s := ((dieSensors die).zip temps).foldl (fun s p => s.setF (TSENS.adr p.1) TSENS.TEMP p.2.toNat) s
  let lim : Int := s.fld THERM_CTL.adr THERM_CTL.THROTTLE_C * 16
  let now := (dieSensors die).map fun i => (BitVec.ofNat 16 (s.fld (TSENS.adr i) TSENS.TEMP)).toInt
  let cur := s.power.capped.get 0 die
  if now.any fun t => decide (lim < t) then
    let s' := { s with power := { s.power with capped := s.power.capped.put 0 die (min 7 (cur + 1)) } }
    let s' := (s'.showThrottled die true).relevel
    if cur = 0 then s'.event 7043 else s'
  else if ms && decide (cur ≠ 0) && now.all fun t => decide (t ≤ lim - 32) then
    let s' := { s with power := { s.power with capped := s.power.capped.put 0 die (cur - 1) } }
    (if cur = 1 then s'.showThrottled die false else s').relevel
  else s

end Sys2Proof.Machine
end

