-- ==== Sys2Proof/Machine/Device.lean ====
section
/-!
DEFINITION. Tile states, domains going off and coming up, device states, and resets (spec/13, R398, R401, R409 to
R424, R429, R437; spec/14, R440).
-/

namespace Sys2Proof.Machine

/-- Change the power block's own state. -/
def State.updPower (s : State) (f : Power → Power) : State := { s with power := f s.power }

/-! ## What a domain loses when it goes off (R409, R417, R421) -/

/-- Bytes, check fields and spare assignments of the storage from `lo` to `hi - 1` are lost. -/
def State.loseStore (s : State) (lo hi : Nat) : State :=
  { s with mem := SMap.eraseRange s.mem lo hi, chk := s.chk.eraseRange (lo / 4) (hi / 4) }

/-- A core loses what only the core complex holds: L1I, L1D, line buffers, predictors and return stacks (R409). -/
def Core.napLoss (k : Core) : Core :=
  { k with l1i := [], l1d := [], lineBuf := [], fills := [], ask := none, bundles := [], pred := Pred.clear, misp := none,
           missed := 0 }

/-- The queues of tile `p` drive no level any more: their sources follow EVMODE at reset (R273). -/
def State.dropLevels (s : State) (p : Nat) : State :=
  (numsFrom (2048 + p * 32) 32).foldl (fun s n =>
    if (s.src n).isLevel then s.setSrc n { s.src n with isLevel := false, level := false } else s) s

/-- Tile `p` loses everything. -/
def State.loseTile (s : State) (p : Nat) : State :=
  let cs := s.tileCores p
  let s := s.dropLevels p
  let s := cs.foldl (fun s c => s.setCore c Core.reset) s
  let s := { s with
    queues := s.queues.eraseRange (p * 32) (p * 32 + 32),
    qholds := s.qholds.filter fun h => h.ptile ≠ p,
    outst := s.outst.filter fun o => !cs.contains o.core,
    segLines := s.segLines.filter fun k => k / 4096 / 16 ≠ p,
    tags := s.tags.filter fun t => t.seg / 16 ≠ p,
    spareOf := s.spareOf.eraseRange (rowKey p 0 0) (rowKey (p + 1) 0 0),
    hardWait := s.hardWait.filter fun h => h.1 ≠ tileBlk p,
    beaten := s.beaten.filter (· ≠ tileBlk p) }
  let s := (s.loseStore (2 ^ 41 + p * 2 ^ 22) (2 ^ 41 + (p + 1) * 2 ^ 22)).loseStore (rowStore p 0 0) (rowStore (p + 1) 0 0)
  (s.resetRegs (tileBlk p) (tileBlk (p + 1))).loseWindow (.tile p)

/-- Registers of which every block holds a replica are lost only with the last of them. -/
def State.loseBlock (s : State) (lo hi : Nat) (replicas : List (Nat × Nat)) (last : Bool) : State :=
  { s with ctrl := s.ctrl.filter fun r =>
      !(lo ≤ r.1 && r.1 < hi) || (!last && replicas.any fun q => q.1 ≤ r.1 && r.1 < q.2) }

/-- Die fabric `d` loses its registers; the home map, DRAM_MAP and REHOME stay while another fabric is on (assumption
log entry 21). -/
def State.loseFabric (s : State) (d : Nat) : State :=
  let last := (numsFrom 136 8).all fun k => k == 136 + d || s.dom k == 0
  let t := s.loseBlock (dieBlk d) (dieBlk (d + 1))
    [(HOME_CTL.adr, HOME_CTL.adr + 0x28), (HOME_MAP.adr 0, HOME_MAP.adr 1024)] last
  (t.recore s d).loseWindow (.die d)

/-- A conversion when controller `d` goes off (R247, R261): with controller 0 the code map and what it says of a running
conversion are lost; another controller that has not completed its part owes it again. -/
def State.loseConv (s : State) (d : Nat) : State :=
  match s.conv with
  | none => s
  | some c =>
    if d = 0 then { s with conv := none }
    else if c.done.contains d then s
    else { s with conv := some { c with pos := c.pos.eraseRange d (d + 1), owed := nset c.owed d } }

/-- Memory subsystem `d` loses its registers, the code map with controller 0 (R261), and, with the supply of its stack's
refresh, what the stack held, the dirty marks of its granules' tracker among it (R367). -/
def State.loseMc (s : State) (d : Nat) : State :=
  let s := (s.resetRegs (mcBlk d) (mcBlk (d + 1))).loseConv d
  let s := (s.loseStore (d * 2 ^ 36) ((d + 1) * 2 ^ 36)).loseStore (blockStore d 0) (blockStore (d + 1) 0)
  let s : State := { s with spareOf := s.spareOf.eraseRange (blockKey d 0) (blockKey (d + 1) 0),
                            hardWait := s.hardWait.filter fun h => h.1 ≠ mcBlk d,
                            beaten := s.beaten.filter (· ≠ mcBlk d),
                            couch := s.couch.loseTracker d }
  s.loseWindow (.mc d)

/-- Router slice `i` loses its registers, tables, contexts and packets; slice 0 the device-wide registers and the time
exchange, slice 3 the couch engine (R362, R367). -/
def State.loseSlice (s : State) (i : Nat) : State :=
  let s := s.resetRegs (sliceBlk i) (sliceBlk (i + 1))
  let s : State := { s with rtWait := s.rtWait.filter (fun r => r.slice ≠ i),
                            coll := s.coll.eraseRange (16 * i) (16 * i + 16),
                            epochWait := s.epochWait.filter (· ≠ i) }
  let s : State := if i = 0 then { s with tsync := ⟨0, true, 0, 0⟩ } else s
  let s := if i = 3 then
      { ((s.resetRegs 0xC080000000 0xC080000200).resetRegs 0xC080010000 0xC090000000) with couch := CouchSt.reset }
    else s
  s.loseWindow (.slice i)

/-- The PCIe port loses its registers (the board interface group is not its, R491) and the requests under way. -/
def State.losePcie (s : State) : State :=
  let s := (s.resetRegs 0xC0A0000000 0xC0A1000000).resetRegs 0xC0A1000020 0xC0B0000000
  let s : State := { s with pcieAsks := [], pcieAns := [], msix := [] }
  (s.setF PCIE_STAT.adr PCIE_STAT.MODE (b2n s.straps.endpoint)).loseWindow .pcie

/-- Crossings of other windows whose far side lies in domain `k` (R62): the readers of global time for the time base,
the pulses to the event hub for the service complex. -/
def farCrossings (k : Nat) : List (Window × Nat) :=
  if k = 302 then
    (numsFrom 0 136).map (fun p => (.tile p, 0)) ++ (numsFrom 0 144).map (fun n => (.link n, 5))
      ++ (numsFrom 0 4).map (fun i => (.slice i, 0)) ++ [(.svc, 14)]
  else if k = 301 then
    (numsFrom 0 8).flatMap (fun d => (numsFrom 4 8).map fun x => (.mc d, x))
      ++ (numsFrom 0 144).flatMap (fun n => (numsFrom 6 4).map fun x => (.link n, x))
      ++ (numsFrom 1 16).map (fun x => (.time, x)) ++ (numsFrom 4 4).map (fun x => (.pcie, x))
  else []

/-- Domain `k` is reset: the crossings that other running domains share with it resynchronise (R58, R59). -/
def State.farReset (s : State) (k : Nat) : State :=
  ((farCrossings k).filter fun q => s.isOn (winDom q.1)).foldl (fun s q => s.xSideReset q.1 q.2 false) s

/-- The time base loses time and its registers (R431, R439). -/
def State.loseTime (s : State) : State :=
  let s := s.resetRegs 0xC070000000 0xC080000000
  let s : State := { s with clock := { s.clock with gt := 0, frac := 0, slewed := 0, timeArmed := false } }
  s.loseWindow .time

/-- The registers that no device reset changes: the fuse shadow, the watcher, AON_ALARM, the SMBus group and the black
box. -/
def aonKept (a : Nat) : Bool :=
  (0xC050300000 ≤ a && a < 0xC050300210) || a == AON_ALARM.adr
  || (0xC090000200 ≤ a && a < 0xC090000220) || (0xC090000300 ≤ a && a < 0xC090000440)
  || (0xC090001000 ≤ a && a < 0xC090001200) || a == BB_STAT.adr || a == BRD_SMB.adr || a == BRD_MBOX.adr

/-- The service complex loses the hub, the service block, its SRAM and its cores. -/
def State.loseSvc (s : State) : State :=
  let s := ((s.setCore 0x1000 Core.reset).setCore 0x1001 Core.reset).loseStore (2 ^ 43) (2 ^ 43 + 2 ^ 23)
  let s : State := { s with ctrl := s.ctrl.filter fun r =>
    !((0xC050000000 ≤ r.1 && r.1 < 0xC060000000) || (0xC090000000 ≤ r.1 && r.1 < 0xC0A0000000)) || aonKept r.1 }
  let s : State := { s with hub := [], aonQueue := [], aonWait := [], aonAcks := [], sigCode := none, xspiRes := none, mgmtSending := false }
  s.loseWindow .svc

/-- The links of slice `i`. -/
def sliceLinks (i : Nat) : List Nat := numsFrom (36 * i) 36

/-- Link `n` is switched off with its domain, and what awaits it fails (R321, R356, R358). -/
def State.linkLost (s : State) (n : Nat) : State := ((s.linkOff n).timeLink n).collLink n

/-- Domain `k` is off and has lost its state; a slice takes its links out of service with it (R32). -/
def State.lose (s : State) (k : Nat) : State :=
  let s := if k < 136 && s.dom k = 2 then s.incF (NAP_RES.adr k) NAP_RES.TICKS (s.napSpent k) else s
  let s := if k < 136 then s.loseTile k
    else if k < 144 then s.loseFabric (k - 136)
    else if k < 152 then s.loseMc (k - 144)
    else if k < 296 then s.linkLost (k - 152)
    else if k < 300 then
      ((sliceLinks (k - 296)).foldl (fun s n => if s.dom (152 + n) = 0 then s else s.linkLost n) s).loseSlice (k - 296)
    else if k = 300 then s.losePcie
    else if k = 301 then s.loseSvc.farReset 301
    else s.loseTime.farReset 302
  let s := (((s.setDom k 0).setF (DOM_STAT.adr k) DOM_STAT.RAMPING 0).setF (DOM_STAT.adr k) DOM_STAT.LEVEL_NOW 0).setF
    (DOM_STAT.adr k) DOM_STAT.LEVEL_EFF 0
  let s := if k < 136 then s.setF (DOM_CTL.adr k) DOM_CTL.NAP_NOW 0 else s
  s.updPower fun w => { w with
    volt := w.volt.eraseRange k (k + 1), ramping := w.ramping.filter (· ≠ k), waiting := w.waiting.filter (· ≠ k),
    napFrom := w.napFrom.eraseRange k (k + 1), goingOff := w.goingOff.filter (· ≠ k) }

/-- An OFF request of a tile, a memory subsystem or slice 3, or the service complex that R417 refuses. -/
def State.offRefused (s : State) (k : Nat) : Bool :=
  let mirror := s.has CE_CTL.adr CE_CTL.ENABLE || s.has RX_CTL.adr RX_CTL.ENABLE
  if k < 136 then (numsFrom 0 16).any fun g => s.homeNamed k g
  else if 144 ≤ k && k < 152 || k = 299 then mirror
  else k == 301

/-- An OFF request of tile `p` that waited for the end of an entry or exit takes effect (R416), unless a home map entry
has come to name the tile: then it is refused (R217). -/
def State.tileOff (s : State) (p : Nat) : State :=
  if !s.power.goingOff.contains p then s
  else if s.offRefused p then
    let s := (s.setF (DOM_CTL.adr p) DOM_CTL.OFF 0).updPower fun w => { w with goingOff := w.goingOff.filter (· ≠ p) }
    (s.setF (DOM_STAT.adr p) DOM_STAT.REFUSED 1).event 7046
  else s.lose p

/-! ## Tile states (R409 to R416) -/

/-- A core counts as held for the tile's idle entry: in WAIT, in SLEEP, or held in reset (R412, R469). -/
def Core.idle (k : Core) : Bool := !k.running || k.waiting || k.sleeping

/-- Core `c` is held and stays so: its WAIT or SLEEP is not about to commit (R136, R412). -/
def State.heldCore (s : State) (c : Nat) : Bool :=
  let k := s.core c
  k.idle && (!k.running || (k.sleepRes.isNone && !s.pendingAt c && !s.woken.contains c))

/-- Entry starts (R414 step 1): a calibration pass is abandoned (R48), and a level that a slot watches can fire at once
(R288). -/
def State.napStart (s : State) (p : Nat) : State := ((s.setDom p 3).calAbandon (winBase (.tile p))).fireLevels

/-- The conditions of an idle or SLEEP entry (R412). -/
def State.napReady (s : State) (p : Nat) : Bool :=
  let cs := s.tileCores p
  decide (p < 136) && s.isOn p && s.has (DOM_CTL.adr p) DOM_CTL.NAP_EN && cs.all s.heldCore && !s.heldAt p
    && (cs.any (fun c => (s.core c).sleeping) || s.has (DOM_CTL.adr p) DOM_CTL.IDLE_LIMIT)

/-- NAP entry starts (R412). -/
def State.napEntry (s : State) (p : Nat) : State := if s.napReady p then s.napStart p else s

/-- A write of 1 to NAP_NOW (R412): ignored in any state other than RUN. -/
def State.napNow (s : State) (p : Nat) : State :=
  if p < 136 && s.isOn p then (s.setF (DOM_CTL.adr p) DOM_CTL.NAP_NOW 1).napStart p else s

/-- Whether the tile has drained (R414 step 2): store buffers empty, no remote request of its cores outstanding, and
no core inside a bundle that can no longer be abandoned. -/
def State.napDrained (s : State) (p : Nat) : Bool :=
  let cs := s.tileCores p
  cs.all (fun c => (s.core c).sb.isEmpty && ((s.core c).idle ||
    (match (s.core c).cur with | some b => !b.fixed | none => true)))
    && !(s.outst.any fun o => cs.contains o.core)

/-- A core that NAP_NOW stops: its held bundle is abandoned and starts again on exit (R412). -/
def Core.napStop (k : Core) : Core :=
  if k.idle then k
  else match k.cur with
    | some b => { k with cur := none, late := b.syls :: k.late }
    | none => k

/-- CACHE segments that no home map entry names are written back (R414 step 2). -/
def State.napWriteBack (s : State) (p : Nat) : State :=
  (s.tags.filter fun t => t.seg / 16 == p && t.dirty && !s.homeNamed p (t.seg % 16)).foldl (fun s t =>
    match s.writeBack t with
    | (s, true) => { s with tags := s.tags.map fun u => if u.seg == t.seg && u.slot == t.slot then { u with dirty := false } else u }
    | (s, false) => s) s

/-- The retention policy of segment `g` (R410): a home slice in use is AWAKE, 3 acts as 1, and so does AWAKE in DORMANT
(R420). -/
def State.segPolicy (s : State) (p g : Nat) : Nat :=
  if s.segAwake p g then 2
  else if s.segMode p g = 0 && s.homeNamed p g then 1
  else if nbits (2 * g + 1) (2 * g) (s.fld (TILE_RET.adr p) TILE_RET.POL) = 0 then 0
  else 1

/-- The tile passes PNR and is in NAP (R414), unless what its write-backs reported has woken it; an OFF request that waited
takes effect (R416). -/
def State.napDone (s : State) (p : Nat) : State :=
  if s.dom p ≠ 3 || !s.napDrained p then s
  else
    let s := s.napWriteBack p
    if s.dom p ≠ 3 || s.tags.any fun t => t.seg / 16 == p && t.dirty && !s.homeNamed p (t.seg % 16) then s
    else
      let s := (s.tileCores p).foldl (fun s c => s.updCore c fun k => k.napStop.napLoss) s
      let s := (numsFrom 0 16).foldl (fun s g => if s.segPolicy p g = 0 then s.eraseSeg p g else s) s
      let s := ((s.setDom p 2).setF (TILE_RET.adr p) TILE_RET.LOST 0).setF (DOM_CTL.adr p) DOM_CTL.NAP_NOW 0
      let s := s.updPower fun w => { w with napFrom := w.napFrom.put 0 p s.clock.aon.toNat }
      s.tileOff p

/-- A wake by cause 2 or 3, before PNR or after it (R415, R416). -/
def State.napWake (s : State) (p cause : Nat) (afterPnr : Bool) : State :=
  if p < 136 then
    (if afterPnr then
      (let s' := s.napDone p
       if s.dom p = 3 && s'.dom p = 2 then s'.napExitStart p cause 0 true else s)
     else s.wakeTile p cause 0)
  else s

/-- The tile is in RUN again (R415 steps 2 and 3): a held SLEEP or WAIT resolves, the calender ramps. -/
def State.napExit (s : State) (p : Nat) : State :=
  if p < 136 && s.dom p = 4 then
    let s := (s.setDom p 1).updPower fun w => { w with volt := w.volt.put 500 p 500 }
    let s := (s.setF (DOM_STAT.adr p) DOM_STAT.LEVEL_NOW 0).rampStart p
    let s := (s.tileCores p).foldl (fun s c =>
      let k := s.core c
      if k.waiting || k.sleeping then s.setCore c { k with sleepRes := some 0 } else s) s
    s.tileOff p
  else s

/-- A regulator in low-power mode releases its `n` highest-numbered retained segments (R401). -/
def State.shed (s : State) (p n : Nat) : State :=
  let lost := s.fld (TILE_RET.adr p) TILE_RET.LOST
  let kept := ((numsFrom 0 16).filter fun g => s.segPolicy p g = 1 && !nbit g lost).reverse
  if p < 136 && s.dom p = 2 && (numsFrom 0 16).all (fun g => s.segPolicy p g ≠ 2) then
    (kept.take n).foldl (fun s g =>
      let s := s.eraseSeg p g
      let s := s.setF (TILE_RET.adr p) TILE_RET.LOST (s.fld (TILE_RET.adr p) TILE_RET.LOST ||| 2 ^ g)
      (s.setF (DOM_STAT.adr p) DOM_STAT.RET_LOST 1).event 7045) s
  else s

/-! ## OFF and power-up (R417) -/

/-- A slice whose OFF waits goes off once its links are off. -/
def State.sliceDone (s : State) (i : Nat) : State :=
  if s.power.goingOff.contains (296 + i) && (sliceLinks i).all (fun n => s.dom (152 + n) = 0) then s.lose (296 + i)
  else s

/-- A write of OFF = 1 to DOM_CTL_k (R417): a tile that is entering or leaving NAP goes off when that ends, a router
slice first takes its links to OFF. -/
def State.offRequest (s : State) (k : Nat) : State :=
  let c := DOM_CTL.adr k
  if 303 ≤ k || (152 ≤ k && k < 296) then s
  else if s.offRefused k then (s.setF (DOM_STAT.adr k) DOM_STAT.REFUSED 1).event 7046
  else
    let s := s.setF c DOM_CTL.OFF 1
    if s.dom k = 0 then s
    else if k < 136 && (s.dom k = 3 || s.dom k = 4) then s.updPower fun w => { w with goingOff := nset w.goingOff k }
    else if 296 ≤ k && k < 300 then
      let s := s.updPower fun w => { w with goingOff := nset w.goingOff k }
      let s := (sliceLinks (k - 296)).foldl (fun s n => if s.dom (152 + n) = 0 then s else s.askAgain n) s
      s.sliceDone (k - 296)
    else s.lose k

/-- A write of OFF = 0 (R411, R417): powers a domain from OFF; a tile in NAP or entering it is woken. -/
def State.onRequest (s : State) (k : Nat) : State :=
  if 303 ≤ k || (152 ≤ k && k < 296) then s
  else
    let s := (s.setF (DOM_CTL.adr k) DOM_CTL.OFF 0).updPower fun w => { w with goingOff := w.goingOff.filter (· ≠ k) }
    if s.dom k = 0 then s.setDom k 5
    else if k < 136 then s.wakeTile k 3 0
    else s

/-- The handshake window of a domain that has one. -/
def domWindow (k : Nat) : Option Window :=
  if k < 136 then some (.tile k)
  else if k < 144 then some (.die (k - 136))
  else if k < 152 then some (.mc (k - 144))
  else if k < 296 then some (.link (k - 152))
  else if k < 300 then some (.slice (k - 296))
  else if k = 300 then some .pcie
  else if k = 301 then some .svc
  else if k = 302 then some .time
  else none

/-- Domain `k` reaches its voltage, runs the calibration pass and opens its gate; a controller starts its full training
(R47, R224, R417). -/
def State.powerUp (s : State) (k : Nat) : State :=
  let s := (s.setDom k 1).updPower fun w => { w with volt := w.volt.put 500 k 500 }
  let s := match domWindow k with
    | some w => s.calPowerUp (winBase w) k
    | none => s
  let s := if 144 ≤ k && k < 152 then
      (s.setF (MC_STATE.adr (k - 144)) MC_STATE.STATE 1).setF (DOM_STAT.adr k) DOM_STAT.LEVEL_NOW
        (s.fld (DOM_CTL.adr k) DOM_CTL.LEVEL)
    else s
  s.rampStart k

/-- A powering domain is up; the time base then reports the AON counter's source (R433). -/
def State.powerUpDone (s : State) (k : Nat) : State :=
  if k < 303 && s.dom k = 5 then (if k = 302 then (s.powerUp k).reportSource else s.powerUp k) else s

/-- A regulator exceeds its normal-mode rating (R437): its record, REG_FAULT with event 7,048, and the domain is off. -/
def State.regFault (s : State) (k : Nat) : State :=
  if k < 303 && s.dom k ≠ 0 then
    let s := s.bbWrite 3 (toBytes 2 k)
    ((s.setF (DOM_STAT.adr k) DOM_STAT.REG_FAULT 1).event 7048).lose k
  else s

/-- An access has been held for 50 µs at domain `k` (R424). -/
def State.gateTimeout (s : State) (k : Nat) : State :=
  s.updPower fun w => { w with held := w.held.map fun h => if h.dom = k then { h with expired := true } else h }

/-! ## Resets and OFF (R398, R429, R440) -/

/-- A fuse command is cut by the reset (R442, R470): each bit is burnt or not; KEY_PROG burns its programmed bit last, after
the whole hash, and a slot without it is damaged. -/
def State.fuseCut (s : State) : State :=
  match s.fuse with
  | none => s
  | some j =>
    let f : Nat → Word := fun i => Config.freeWord (s.freeTick + i)
    let bit := (f 8).getLsbD 0
    let slot := nbits 49 48 j.arg.toNat % 4
    let s1 : State := { s with fuse := none, freeTick := s.freeTick + 9 }
    if j.cmd = 1 then
      let new := BitVec.ofNat 64 (2 ^ nbits 6 0 j.arg.toNat - 1)
      let v := s.rd FUSE_ROLLBACK.adr ||| (new &&& f 0)
      (s1.wr FUSE_ROLLBACK.adr v).setF FUSE_STATE.adr FUSE_STATE.LEVEL
        (((numsFrom 0 64).takeWhile fun i => v.getLsbD i).length)
    else if j.cmd = 2 then
      (if bit then s1.setF FUSE_STATE.adr FUSE_STATE.REVOKED (s.fld FUSE_STATE.adr FUSE_STATE.REVOKED ||| 2 ^ slot) else s1)
    else if j.cmd = 3 then
      let burnt : Nat → Word := fun w => if bit then j.hash.getD w 0 else j.hash.getD w 0 &&& f w
      let last := if bit then FUSE_STATE.PROG else FUSE_STATE.DAMAGED
      (numsFrom 0 8).foldl (fun s w => s.wr (KEYHASH.adr slot w) (s.rd (KEYHASH.adr slot w) ||| burnt w))
        (s1.setF FUSE_STATE.adr last (s.fld FUSE_STATE.adr last ||| 2 ^ slot))
    else if j.cmd = 4 then (if bit then s1.setF FUSE_STATE.adr FUSE_STATE.DEBUG_CLOSE 1 else s1)
    else
      let full := (numsFrom 0 8).foldl (fun s w => s.wr (CLOSED_DIGEST.adr w) (s.booted.digest.getD w 0)) s1
      if bit then full.setF FUSE_STATE.adr FUSE_STATE.UPDATE_CLOSE 1
      else (numsFrom 0 8).foldl (fun s w =>
        s.wr (CLOSED_DIGEST.adr w) (s.rd (CLOSED_DIGEST.adr w) ||| (s.booted.digest.getD w 0 &&& f w))) s1

/-- Every switched domain goes off and its state returns to its reset value; the AON domain keeps what R440 names. -/
def State.allOff (s : State) : State :=
  let s := s.fuseCut
  let r := State.reset
  let keep := s.ctrl.filter fun e => aonKept e.1
  let up := s.fld CHAIN_STAT.adr CHAIN_STAT.UP_CONN
  let down := s.fld CHAIN_STAT.adr CHAIN_STAT.DOWN_CONN
  let t : State := { r with
    pending := s.pending, ctrl := keep, aonPend := s.aonPend, lineFuses := s.lineFuses,
    clock := { r.clock with aon := s.clock.aon, phase := s.clock.phase, aonArmed := s.clock.aonArmed, internal := s.clock.internal,
                             srcChanged := s.clock.srcChanged },
    power := { r.power with powerGood := s.power.powerGood, aonGood := s.power.aonGood,
                            thermTrip := s.power.thermTrip, rstLow := s.power.rstLow, devOff := true },
    straps := s.straps, flash := s.flash, bb := s.bb, wptr := s.wptr, smbIndex := s.smbIndex, jtag := s.jtag,
    out := s.out, freeTick := s.freeTick }
  let t := (t.setDom 301 0).setDom 302 0
  (t.setF CHAIN_STAT.adr CHAIN_STAT.UP_CONN up).setF CHAIN_STAT.adr CHAIN_STAT.DOWN_CONN down

/-- A device reset by cause 2 RST_N, 3 PWRGD_MAIN or 4 a thermal trip: its record, then every switched domain is off
(R440, R465). -/
def State.deviceReset (s : State) (cause : Nat) : State :=
  let s := s.bbWrite 1 (toBytes 1 cause)
  let s := s.updPower fun w =>
    if cause = 2 then { w with rstLow := true } else if cause = 3 then { w with powerGood := false } else w
  s.allOff

/-- A sensor reaches 115 °C (R429, R485): the trip's record, THERMTRIP_N, OFF. -/
def State.thermTrip (s : State) (sensor : Nat) : State :=
  if !s.power.aonGood then s
  else
  let s := s.bbWrite 2 (toBytes 2 (sensor % 256) ++ toBytes 2 1840)
  let s := (s.updPower fun w => { w with thermTrip := true }).emit .thermTrip
  s.deviceReset 4

/-- PWRGD_AON rises, or the AON regulator browned out: every domain is reset and the fuses are read again (R440,
R441); `damage` and `wptr` are the black-box records and WPTR copies that the brown-out changed (R402). -/
def State.coldReset (s : State) (brownOut fusesOk : Bool) (damage : List (Nat × List Byte)) (wptr : List Nat) : State :=
  let s := s.allOff
  let keep := s.ctrl.filter fun e => e.1 < 0xC091000000 && 0xC090000200 ≤ e.1 && aonKept e.1 && e.1 ≠ BB_STAT.adr
  let count := s.fld BB_STAT.adr BB_STAT.COUNT
  let bb := if brownOut then damage.foldl (fun m r => SMap.put m bbEmpty (r.1 % 8192) r.2) s.bb else s.bb
  let copies := if brownOut && wptr.length = 3 then wptr.map (· % 8192) else s.wptr
  let t : State := { s with
    ctrl := keep, aonPend := [], clock := Clock.reset, bb := bb, wptr := copies, smbIndex := 0, jtag := Jtag.reset,
    power := { s.power with aonGood := true, thermTrip := false, rstLow := true } }
  let t := (t.setDom 301 0).setDom 302 0
  let t := (t.setF BB_STAT.adr BB_STAT.COUNT count).setF BB_STAT.adr BB_STAT.WPTR t.bbPtr
  let t := t.setF FUSE_STATE.adr FUSE_STATE.LOAD_ERR (b2n (!fusesOk))
  t.bbWrite 1 (toBytes 1 (b2n brownOut))

/-- PWRGD_AON falls: nothing runs until it rises (R482). -/
def State.aonFall (s : State) : State :=
  let s := s.allOff
  { s with aonPend := [], clock := Clock.reset, power := { s.power with aonGood := false, rstLow := true } }

/-! ## Device states (R418 to R422) -/

/-- A PWR_DEV_STAT field. -/
def State.devStat (s : State) (f : Fld) : Nat := s.fld PWR_DEV_STAT.adr f
/-- Set a PWR_DEV_STAT field. -/
def State.setDev (s : State) (f : Fld) (v : Nat) : State := s.setF PWR_DEV_STAT.adr f v

/-- A request ends with a result: GO returns to 0 and event 7,047 arrives. -/
def State.devEnd (s : State) (result : Nat) : State :=
  ((s.setDev PWR_DEV_STAT.RESULT result).setF PWR_DEV_CMD.adr PWR_DEV_CMD.GO 0).event 7047

/-- A request is refused: its result, with event 7,046. -/
def State.devRefuse (s : State) (result : Nat) : State := (s.setDev PWR_DEV_STAT.RESULT result).event 7046

/-- Some enabled slot with ACTION 1 or 2 watches an AON source (R419). -/
def State.aonSlot (s : State) : Bool :=
  (numsFrom 0 64).any fun i =>
    let w := s.rd (WW_SLOT.adr i)
    fset? WW_SLOT.ENABLE w && fget WW_SLOT.ACTION w ≠ 0 && aonSource (fget WW_SLOT.SOURCE w)

/-- Tiles in RUN receive NAP_NOW (R420 step 1); those of this entry are remembered. -/
def State.napTiles (s : State) : State :=
  (numsFrom 0 136).foldl (fun s p =>
    if s.isOn p then (s.napNow p).updPower fun w => { w with devNapped := nset w.devNapped p } else s) s

/-- Entry to HOLD (1) or DORMANT (2) starts. -/
def State.devEnter (s : State) (req : Nat) : State :=
  let s := (s.setF PWR_DEV_CMD.adr PWR_DEV_CMD.REQ req).setF PWR_DEV_CMD.adr PWR_DEV_CMD.GO 1
  let s := ((s.setDev PWR_DEV_STAT.RESULT 5).setDev PWR_DEV_STAT.POINT 0).setDev PWR_DEV_STAT.STATE 3
  let s := s.updPower fun w => { w with devNapped := [], devLinks := [], devWake := none, devDorm := req == 2 }
  s.napTiles.fireLevels

/-- A write of PWR_DEV_CMD with GO = 1 (R419, R422).  REQ = ON before B3 of a running entry is a device wake (R418);
any other write is ignored, and REQ with it, while RESULT reads 5. -/
def State.devReq (s : State) (req : Nat) : State :=
  let st := s.devStat PWR_DEV_STAT.STATE
  if !s.isOn 301 then s
  else if s.devStat PWR_DEV_STAT.RESULT = 5 then
    (if req = 0 && s.devStat PWR_DEV_STAT.POINT < 3 then s.wakeDevice 3 0 else s)
  else if req = 0 then
    (let s := s.setF PWR_DEV_CMD.adr PWR_DEV_CMD.REQ 0
     if st = 1 then (s.wakeDevice 3 0).devEnd 0 else if st = 0 then s.devEnd 0 else s.devRefuse 6)
  else if req = 3 then s.allOff
  else if st ≠ 0 && st ≠ 1 then (s.setF PWR_DEV_CMD.adr PWR_DEV_CMD.REQ req).devRefuse 6
  else if req = 2 && (s.has CE_CTL.adr CE_CTL.ENABLE || s.has RX_CTL.adr RX_CTL.ENABLE) then
    (s.setF PWR_DEV_CMD.adr PWR_DEV_CMD.REQ req).devRefuse 3
  else if req = 2 && !s.aonSlot then (s.setF PWR_DEV_CMD.adr PWR_DEV_CMD.REQ req).devRefuse 4
  else s.devEnter req

/-- Links that are not QUIET or OFF. -/
def State.liveLinks (s : State) : List Nat := (numsFrom 0 144).filter fun n => s.dom (152 + n) ≠ 0 && s.ps n = 0

/-- Step 2 undone: the links that this entry quieted or switched off come back. -/
def State.undoStep2 (s : State) : State :=
  s.power.devLinks.foldl (fun s n =>
    if s.lctl n LNK_CTL.PWR_REQ = 2 then s else if s.ps n = 2 then s.linkWake n else s.startWake n) s

/-- Step 3 undone: the controllers leave self-refresh. -/
def State.undoStep3 (s : State) : State :=
  (numsFrom 0 8).foldl (fun s d => if s.mcState d = 3 then s.setF (MC_STATE.adr d) MC_STATE.STATE 2 else s) s

/-- Entry is abandoned at a B point: the completed steps are undone in reverse order, RESULT is 2 (R422).  The wake ends
a HOLD too, the one that the entry started from among them (R418). -/
def State.devAbort (s : State) : State :=
  let dormant := s.power.devDorm
  let pt := s.devStat PWR_DEV_STAT.POINT
  let s := match s.power.devWake with
    | some n => s.wr DEV_LAST_WAKE.adr (lastWake n.cause n.slot s.clock.aon.toNat false)
    | none => s
  let s := if 2 ≤ pt && dormant then s.undoStep3 else s
  let s := if 1 ≤ pt then s.undoStep2 else s
  let s := if s.power.devHold then s.holdEnd else s
  let s := s.power.devNapped.foldl (fun s p => s.wakeTile p 3 0) s
  let s := s.updPower fun w => { w with devNapped := [], devLinks := [], devWake := none, devDorm := false }
  ((s.setDev PWR_DEV_STAT.STATE 0).setDev PWR_DEV_STAT.POINT 0).devEnd 2

/-- Step 2 starts (R420): levels to L0 and links to QUIET, or links to OFF. -/
def State.devStep2 (s : State) (dormant : Bool) : State :=
  let live := s.liveLinks
  if dormant then
    live.foldl (fun s n => s.askAgain n) (s.updPower fun w => { w with devLinks := live })
  else
    let was := (numsFrom 0 8).filterMap fun d =>
      if s.isOn (144 + d) then some (d, s.fld (DOM_STAT.adr (144 + d)) DOM_STAT.LEVEL_NOW) else none
    let s := s.updPower fun w => { w with devLinks := live, devHold := true, memWas := if w.devHold then w.memWas else was }
    let s := s.relevel
    live.foldl (fun s n => s.askAgain n) s

/-- Whether step 2 of HOLD has quiesced: levels L0, memory levels M0, links QUIET or OFF. -/
def State.holdQuiet (s : State) : Bool :=
  ((numsFrom 0 302).filter levelled).all (fun k => !s.isOn k || s.volt k == 500)
    && (numsFrom 0 8).all (fun d => !s.isOn (144 + d) || s.fld (DOM_STAT.adr (144 + d)) DOM_STAT.LEVEL_NOW == 0)
    && s.liveLinks.isEmpty

/-- Every changed line of every home slice is written to DRAM (R420 step 1). -/
def State.flushSlices (s : State) : State :=
  (s.tags.filter CacheTag.dirty).foldl (fun s t =>
    match s.writeBack t with
    | (s, true) => { s with tags := s.tags.map fun u => if u.seg == t.seg && u.slot == t.slot then { u with dirty := false } else u }
    | (s, false) => s) s

/-- Device entry passes its next B point, if the previous step's domains have quiesced, or is abandoned there. -/
def State.devPoint (s : State) : State :=
  let dormant := s.power.devDorm
  let pt := s.devStat PWR_DEV_STAT.POINT
  if s.devStat PWR_DEV_STAT.STATE ≠ 3 then s
  else if pt = 0 then
    (if (numsFrom 0 136).all fun p => s.dom p = 0 || s.dom p = 2 then
      (if s.power.devWake.isSome then s.devAbort
       else ((if dormant then s.flushSlices else s).setDev PWR_DEV_STAT.POINT 1).devStep2 dormant)
     else s.napTiles)
  else if pt = 1 then
    (if s.power.devWake.isSome then s.devAbort
     else if dormant then
       ((numsFrom 0 144).foldl (fun s n => if s.dom (152 + n) = 0 then s else s.linkLost n) s).setDev PWR_DEV_STAT.POINT 2
     else if s.holdQuiet then s.setDev PWR_DEV_STAT.POINT 2
     else s)
  else if pt = 2 && dormant then
    (if s.power.devWake.isSome then s.devAbort
     else
       let s := (numsFrom 0 8).foldl (fun s d =>
         if s.isOn (144 + d) && s.mcState d = 2 then s.setF (MC_STATE.adr d) MC_STATE.STATE 3 else s) s
       let s := (s.setF GT_AT_SLEEP.adr GT_AT_SLEEP.GT s.clock.gt.toNat).setF AON_AT_SLEEP.adr AON_AT_SLEEP.COUNT
         s.clock.aon.toNat
       let s : State := { s with clock := { s.clock with srcMoved := false } }
       let s := s.setF PERIOD_AT_SLEEP.adr PERIOD_AT_SLEEP.PERIOD (s.fld AON_PERIOD.adr AON_PERIOD.PERIOD)
       s.setDev PWR_DEV_STAT.POINT 3)
  else s

/-- The device passes PNR of DORMANT: fabrics, slices, links, PCIe and time base are off, the service complex and the
memory subsystems in retention. -/
def State.dormant (s : State) : State :=
  let s := (((s.setDev PWR_DEV_STAT.STATE 2).setDev PWR_DEV_STAT.POINT 4)).devEnd 0
  let off := numsFrom 136 8 ++ numsFrom 296 5 ++ [302]
  let s := off.foldl (fun s k => if s.dom k = 0 then s else s.lose k) s
  let s : State := (numsFrom 144 8 ++ [301]).foldl (fun s k => if s.isOn k then s.setDom k 2 else s) s
  ((numsFrom 0 8).map Window.mc ++ [Window.svc]).foldl (fun s w => s.calAbandon (winBase w)) s

/-- The device reaches HOLD or DORMANT, or the entry is abandoned by a wake that came before. -/
def State.devDone (s : State) : State :=
  let pt := s.devStat PWR_DEV_STAT.POINT
  if s.devStat PWR_DEV_STAT.STATE ≠ 3 then s
  else if s.power.devDorm then
    (if pt ≠ 3 then s else if s.power.devWake.isSome then s.devAbort else s.dormant)
  else if pt ≠ 2 then s
  else if s.power.devWake.isSome then s.devAbort
  else (s.setDev PWR_DEV_STAT.STATE 1).devEnd 0

/-- A device wake through slot `slot`; after PNR the entry completes and exit begins at once (R422). -/
def State.devWake (s : State) (slot : Nat) (afterPnr : Bool) : State :=
  if afterPnr then
    let s' := s.devDone
    if s.devStat PWR_DEV_STAT.STATE = 3 && s'.devStat PWR_DEV_STAT.STATE = 2 then
      let s' := s'.wakeDevice 1 slot
      s'.wr DEV_LAST_WAKE.adr (lastWake 1 slot s'.clock.aon.toNat true)
    else s
  else s.wakeDevice 1 slot

/-- DORMANT exit ends (R421 steps 2 to 4): time is interpolated, the hub takes the AON arrivals, a held WAIT of a
service core resolves, the domains that DOM_CTL keeps on power up, the controllers leave self-refresh, and each link
whose PWR_REQ is not 2 wakes. -/
def State.dormantExit (s : State) : State :=
  if s.devStat PWR_DEV_STAT.STATE ≠ 4 then s
  else
    let s := s.setDom 301 1
    let s := (if s.has (DOM_CTL.adr 302) DOM_CTL.OFF then s else (s.powerUp 302).interpolate).deliverAon
    let s := [0x1000, 0x1001].foldl (fun s c =>
      if (s.core c).waiting then s.updCore c fun k => { k with sleepRes := some 0 } else s) s
    let s := (numsFrom 136 8 ++ numsFrom 296 5).foldl (fun s k =>
      if s.has (DOM_CTL.adr k) DOM_CTL.OFF then s else s.powerUp k) s
    let s := (numsFrom 0 8).foldl (fun s d =>
      if s.dom (144 + d) = 2 then
        (let s := s.setDom (144 + d) 1
         if s.mcState d = 3 then s.setF (MC_STATE.adr d) MC_STATE.STATE 2 else s)
      else s) s
    let s := (numsFrom 0 144).foldl (fun s n => if s.lctl n LNK_CTL.PWR_REQ = 2 then s else s.linkWake n) s
    let s := if s.power.devHold then s.holdEnd else s
    ((s.updPower fun w => { w with devDorm := false, devLinks := [], devNapped := [] }).setDev PWR_DEV_STAT.STATE 0).devEnd 0

end Sys2Proof.Machine
end

