-- ==== Sys2Proof/Machine/Service.lean ====
section
/-!
DEFINITION. Fuses, boot images, the signature engine, xSPI, tile moves and the management lane (spec/14, R441 to R451,
R453 to R464).
-/

namespace Sys2Proof.Machine

/-! ## Fuses (R441, R442, R459) -/

/-- A FUSE_STATE field. -/
def State.fuseSt (s : State) (f : Fld) : Nat := s.fld FUSE_STATE.adr f

/-- The words of 64 bytes, least significant byte first. -/
def hashWords (bs : List Byte) : List Word := (numsFrom 0 8).map fun i => BitVec.ofNat 64 (bytesAt bs (8 * i) 8)

/-- The bytes of eight words. -/
def hashBytes (ws : List Word) : List Byte := ws.flatMap fun w => toBytes 8 w.toNat

/-- Key slots that are programmed and not revoked. -/
def State.goodSlots (s : State) : List Nat :=
  (numsFrom 0 4).filter fun k => nbit k (s.fuseSt FUSE_STATE.PROG) && !nbit k (s.fuseSt FUSE_STATE.REVOKED)

/-- Whether a fuse command is refused (R442). -/
def State.fuseRefused (s : State) (cmd : Nat) (arg : Word) : Bool :=
  let slot := nbits 49 48 arg.toNat
  if cmd = 1 then s.booted.rollback < nbits 6 0 arg.toNat
  else if cmd = 2 then s.goodSlots == [slot]
  else if cmd = 3 then nbit slot (s.fuseSt FUSE_STATE.PROG) || nbit slot (s.fuseSt FUSE_STATE.DAMAGED)
    || s.fuseSt FUSE_STATE.UPDATE_CLOSE == 1
  else !(cmd == 4 || cmd == 5)

/-- Bytes of service memory or local memory as the engines read them: none where a read is not performed; with whether
any word is poisoned. -/
def State.engineRead (s : State) (a n : Nat) : State × Option (List Byte × Bool) :=
  let r := s.readAll .engine false (lineParts (n / 64 + 2) a n)
  match r.ans with
  | .ok => (r.st, some (r.bytes, r.poison.any id))
  | _ => (r.st, none)

/-- A write by an engine, part by part. -/
def State.engineWrite (s : State) (a : Nat) (bs : List Byte) : State :=
  (lineParts (bs.length / 64 + 2) a bs.length).foldl (fun s q =>
    (s.memWrite .engine false q.1 ((bs.drop (q.1 - a)).take q.2) []).st) s

/-- A fuse command has ended: RESULT, event 7,651 and a record of type 0x0008. -/
def State.fuseEnd (s : State) (cmd result : Nat) : State :=
  ((s.setF FUSE_CMD.adr FUSE_CMD.RESULT result).event 7651).bbWrite 8 (toBytes 1 cmd ++ toBytes 1 result)

/-- A write of FUSE_CMD (R442): ignored while BUSY; a bad CONFIRM or a refused command ends at once with its result
(assumption log entry 44). -/
def State.fuseCmd (s : State) (v : Word) : State :=
  let r := FUSE_CMD.adr
  let cmd := fget FUSE_CMD.CMD v
  let arg := s.rd FUSE_ARG.adr
  if !s.isOn 301 || s.has r FUSE_CMD.BUSY then s
  else if fget FUSE_CMD.CONFIRM v ≠ 0x4B58 then s.fuseEnd cmd 2
  else if s.fuseRefused cmd arg then s.fuseEnd cmd 1
  else
    let h := if cmd = 3 then s.engineRead (0xF000000000 + nbits 22 0 arg.toNat) 64 else (s, none)
    let ws := match h.2 with
      | some x => hashWords x.1
      | none => []
    { h.1 with fuse := some { cmd := cmd, arg := arg, hash := ws } }.setF r FUSE_CMD.BUSY 1

/-- Bits of the rollback counter are burnt: LEVEL is the number of its consecutive 1 bits from bit 0 (R441). -/
def State.burnRollback (s : State) (bits : Word) : State :=
  let v := s.rd FUSE_ROLLBACK.adr ||| bits
  (s.wr FUSE_ROLLBACK.adr v).setF FUSE_STATE.adr FUSE_STATE.LEVEL (((numsFrom 0 64).takeWhile fun i => v.getLsbD i).length)

/-- What a fuse command burns when it ends: a burnt fuse never returns to unburnt. -/
def State.fuseBurn (s : State) (j : FuseJob) : State :=
  let slot := nbits 49 48 j.arg.toNat
  let burn (s : State) (f : Fld) (v : Nat) : State := s.setF FUSE_STATE.adr f (s.fuseSt f ||| v)
  if j.cmd = 1 then
    let n := nbits 6 0 j.arg.toNat
    if n ≤ s.fuseSt FUSE_STATE.LEVEL then s
    else s.burnRollback (BitVec.ofNat 64 (2 ^ n - 1))
  else if j.cmd = 2 then burn s FUSE_STATE.REVOKED (2 ^ slot)
  else if j.cmd = 3 then
    burn ((numsFrom 0 8).foldl (fun s w => s.wr (KEYHASH.adr slot w) (s.rd (KEYHASH.adr slot w) ||| j.hash.getD w 0)) s)
      FUSE_STATE.PROG (2 ^ slot)
  else if j.cmd = 4 then burn s FUSE_STATE.DEBUG_CLOSE 1
  else
    burn ((numsFrom 0 8).foldl (fun s w =>
      s.wr (CLOSED_DIGEST.adr w) (s.rd (CLOSED_DIGEST.adr w) ||| s.booted.digest.getD w 0)) s) FUSE_STATE.UPDATE_CLOSE 1

/-- A fuse command ends: the registers show the new values, BUSY falls, event 7,651 and a record of type 0x0008. -/
def State.fuseDone (s : State) : State :=
  match s.fuse with
  | none => s
  | some j =>
    ((({ s with fuse := none } : State).fuseBurn j).setF FUSE_CMD.adr FUSE_CMD.BUSY 0).fuseEnd j.cmd 0

/-! ## Boot images (R445, R446) -/

/-- A section of an image. -/
structure Section where
  kind : Nat
  off : Nat
  len : Nat
  dest : Nat
  digest : List Word
deriving DecidableEq, Repr

/-- Bytes of the body. -/
def imgLen (h : List Byte) : Nat := bytesAt h 0x018 8
/-- Bytes signed: the header digest (R445). -/
def imgDigest (h : List Byte) : List Word := Config.sha512 (h.take 0x580)
/-- ROLLBACK. -/
def imgRollback (h : List Byte) : Nat := bytesAt h 0x028 4
/-- VERSION. -/
def imgVersion (h : List Byte) : Nat := bytesAt h 0x010 8

/-- The sections of the header's table. -/
def imgSections (h : List Byte) : List Section :=
  (numsFrom 0 (min 8 (bytesAt h 0x02C 4))).map fun i =>
    let b := 0x80 + 96 * i
    { kind := bytesAt h b 4, off := bytesAt h (b + 8) 8, len := bytesAt h (b + 16) 8, dest := bytesAt h (b + 24) 8,
      digest := hashWords ((h.drop (b + 32)).take 64) }

/-- Whether MAGIC or HDR_VERSION is wrong. -/
def imgEmpty (h : List Byte) : Bool := bytesAt h 0 4 != 0x5654584B || bytesAt h 4 4 != 1

/-- Whether a range lies inside service SRAM. -/
def inSram (a n : Nat) : Bool := 0xF000000000 ≤ a && a + n ≤ 0xF000800000

/-- Check 2 of R446. -/
def imgBadFormat (h : List Byte) (load : Bool) : Bool :=
  let ty := bytesAt h 8 4
  let n := bytesAt h 0x02C 4
  let ss := imgSections h
  let idx := numsFrom 0 ss.length
  let pair (i j : Nat) (f : Section → Section → Bool) : Bool :=
    match ss[i]?, ss[j]? with
    | some x, some y => f x y
    | _, _ => false
  !(ty == 1 || (load && ty == 2)) || imgLen h > 0x0FFFF000 || n < 1 || 8 < n
  || ss.any (fun x => imgLen h < x.off + x.len || x.kind < 1 || 4 < x.kind)
  || idx.any (fun i => idx.any fun j => i < j && pair i j fun x y =>
      x.kind == y.kind || (x.off < y.off + y.len && y.off < x.off + x.len && 0 < x.len && 0 < y.len))
  || (ty == 1 && !(ss.any (·.kind == 1) && ss.any (·.kind == 2)))
  || ss.any (fun x => (x.kind == 1 || x.kind == 2) && !inSram x.dest x.len)
  || ((h.drop 0x30).take 16).any (· != 0) || (h.drop 0x780).any (· != 0)

/-- Checks 1 to 6 and 9 of an image's header, in the order of R446; 0 where all pass. -/
def State.checkHeader (s : State) (h : List Byte) (load : Bool) : Nat :=
  let k := bytesAt h 0x00C 4
  if imgEmpty h then 1
  else if imgBadFormat h load then 2
  else if 3 < k || !s.goodSlots.contains k || nbit k (s.fuseSt FUSE_STATE.DAMAGED) then 3
  else if Config.sha512 ((h.drop 0x380).take 512) ≠ (numsFrom 0 8).map (fun w => s.rd (KEYHASH.adr k w)) then 4
  else if !Config.rsaGood ((h.drop 0x380).take 512) (imgDigest h) ((h.drop 0x580).take 512) then 5
  else if imgRollback h < s.fuseSt FUSE_STATE.LEVEL then 6
  else if s.fuseSt FUSE_STATE.UPDATE_CLOSE = 1 && imgDigest h ≠ (numsFrom 0 8).map (fun w => s.rd (CLOSED_DIGEST.adr w)) then 9
  else 0

/-- Check 7: the digest of the body. -/
def bodyGood (h body : List Byte) : Bool := Config.sha512 body == hashWords ((h.drop 0x40).take 64)

/-- Check 8 of one section. -/
def Section.good (x : Section) (body : List Byte) : Bool := Config.sha512 ((body.drop x.off).take x.len) == x.digest

/-- The code of an image that is booted: its header, its body and the sections that boot loads. -/
def State.checkBoot (s : State) (h body : List Byte) : Nat :=
  let c := s.checkHeader h false
  if c ≠ 0 then c
  else if !bodyGood h body then 7
  else if (imgSections h).any (fun x => (x.kind == 1 || x.kind == 2) && !x.good body) then 8
  else 0

/-- Pages of service SRAM that a range touches. -/
def pagesOf (a n : Nat) : List Nat :=
  if n = 0 then [] else
    let lo := (a - 0xF000000000) / 65536
    numsFrom lo ((a - 0xF000000000 + n - 1) / 65536 - lo + 1)

/-- Make a page of service SRAM executable, or not. -/
def State.setPage (s : State) (p : Nat) (on : Bool) : State :=
  let r := if p < 64 then SVC_XMAP_0.adr else SVC_XMAP_1.adr
  let b : Word := BitVec.ofNat 64 (2 ^ (p % 64))
  if p < 128 then s.wr r (if on then s.rd r ||| b else s.rd r &&& ~~~ b) else s

/-- A LOAD whose section is good: LOAD_CHAIN is extended, LOADS counts, SERVICE_FW pages become executable (R457). -/
def State.loaded (s : State) (x : Section) (dst : Nat) : State :=
  let chain := (numsFrom 0 8).map fun w => s.rd (LOAD_CHAIN.adr w)
  let next := Config.sha512 (hashBytes chain ++ hashBytes x.digest)
  let s := (numsFrom 0 8).foldl (fun s w => s.wr (LOAD_CHAIN.adr w) (next.getD w 0)) s
  let s := s.incF SIG_STAT.adr SIG_STAT.LOADS 1
  if x.kind = 1 then (pagesOf dst x.len).foldl (fun s p => s.setPage p true) s else s

/-- LOAD of one section to `dst`: checks 8 and 0xA in their order (R446); nothing is copied onto executable pages, else
the section is copied while it is hashed. -/
def State.loadSection (s : State) (x : Section) (dst : Nat) (data : List Byte) : State × Nat :=
  let good := Config.sha512 data == x.digest
  if inSram dst x.len && (pagesOf dst x.len).any (fun p => s.svcPageX (p * 65536)) then (s, if good then 0xA else 8)
  else
    let s := s.engineWrite dst data
    if good then (s.loaded x dst, 0) else (s, 8)

/-! ## Boot (R447 to R450) -/

/-- Bytes of a flash device. -/
def State.flashBytes (s : State) (dev off n : Nat) : List Byte := (numsFrom (flashKey dev off) n).map s.flashByte

/-- First byte of a slot. -/
def slotOff (slot : Nat) : Nat := slot * 0x10000000

/-- Header of the image in a slot; none where the device is absent. -/
def State.slotHeader (s : State) (dev slot : Nat) : List Byte :=
  if s.flashHas dev (slotOff slot) 4096 then s.flashBytes dev (slotOff slot) 4096 else []

/-- VERSION of a slot for the order of R447: an EMPTY slot counts as 0. -/
def State.slotVersion (s : State) (dev slot : Nat) : Nat :=
  let h := s.slotHeader dev slot
  if imgEmpty h then 0 else imgVersion h

/-- The four candidates in order: device and slot. -/
def State.candidates (s : State) : List (Nat × Nat) :=
  let first := s.straps.bootSrc % 2
  [first, 1 - first].flatMap fun d =>
    if s.slotVersion d 0 < s.slotVersion d 1 then [(d, 1), (d, 0)] else [(d, 0), (d, 1)]

/-- Even 4 KiB blocks of one list, odd ones of the other. -/
def interleave (a b : List Byte) : Nat → List Byte
  | 0 => []
  | n + 1 => a.take 4096 ++ (b.drop 4096).take 4096 ++ interleave (a.drop 8192) (b.drop 8192) n

/-- A candidate: whether its body is read paired, its code, and its body. -/
def State.candidate (s : State) (dev slot : Nat) : Bool × Nat × List Byte :=
  let h := s.slotHeader dev slot
  let c := s.checkHeader h false
  if c ≠ 0 then (false, c, [])
  else
    let paired := (s.slotHeader (1 - dev) slot).take 0x580 == h.take 0x580
    let own := s.flashBytes dev (slotOff slot + 4096) (imgLen h)
    let two := if paired then
        (interleave own (s.flashBytes (1 - dev) (slotOff slot + 4096) (imgLen h)) (imgLen h / 8192 + 1)).take (imgLen h)
      else own
    let body := if bodyGood h two then two else own
    (paired, s.checkBoot h body, body)

/-- A service core starts at an address, at monitor level. -/
def State.startCore (s : State) (c : Nat) (a : Word) : State := s.setCore c { Core.reset with running := true, pc := a }

/-- Number of the active service core. -/
def State.activeSvc (s : State) : Nat := 0x1000 + s.fld SVC_STAT.adr SVC_STAT.ACTIVE

/-- Step 4 of R448: LOAD places SERVICE_FW and CONFIG_TABLE, and the boot ROM jumps to LOAD_ADDR at monitor level. -/
def State.bootImage (s : State) (h body : List Byte) : State :=
  let s := ((imgSections h).filter fun x => x.kind == 1 || x.kind == 2).foldl (fun s x =>
    (s.loadSection x x.dest ((body.drop x.off).take x.len)).1) s
  let s : State := { s with booted := ⟨imgDigest h, imgRollback h, imgVersion h⟩ }
  (s.setF BOOT_STAT.adr BOOT_STAT.PHASE 2).updCore s.activeSvc fun k =>
    { k with pc := BitVec.ofNat 64 (bytesAt h 0x020 8 / 4 * 4) }

/-- Check the candidates from number `i` on, and boot the first with code 0. -/
def State.bootFrom (s : State) : Nat → List (Nat × Nat) → State × Bool
  | _, [] => (s, false)
  | i, (dev, slot) :: r =>
    let x := s.candidate dev slot
    let codes := s.fld BOOT_STAT.adr BOOT_STAT.CODES
    let s := s.setF BOOT_STAT.adr BOOT_STAT.CODES (codes - nbits (4 * i + 3) (4 * i) codes * 2 ^ (4 * i) + x.2.1 * 2 ^ (4 * i))
    if x.2.1 = 0 then
      let s := (s.setF BOOT_STAT.adr BOOT_STAT.CHOSEN i).setF BOOT_STAT.adr BOOT_STAT.DEV dev
      let s := (s.setF BOOT_STAT.adr BOOT_STAT.SLOT slot).setF BOOT_STAT.adr BOOT_STAT.PAIRED (b2n x.1)
      (s.bootImage (s.slotHeader dev slot) x.2.2, true)
    else s.bootFrom (i + 1) r

/-- The candidates are checked (R447); with LOAD_ERR no image boots (R441). -/
def State.bootTry (s : State) : State × Bool :=
  if s.fuseSt FUSE_STATE.LOAD_ERR = 1 then (s, false)
  else (s.setF BOOT_STAT.adr BOOT_STAT.CODES 0xFFFF).bootFrom 0 s.candidates

/-- PHASE of BOOT_STAT. -/
def State.phase (s : State) : Nat := s.fld BOOT_STAT.adr BOOT_STAT.PHASE

/-- The boot ROM selects (R447); where nothing boots: a record of type 0x0005, FAULT, PHASE 3 (R449). -/
def State.bootSelect (s : State) : State :=
  if !s.isOn 301 || s.phase ≠ 1 then s
  else
    match s.bootTry with
    | (s, true) => s
    | (s, false) =>
      let s := s.setF BOOT_STAT.adr BOOT_STAT.PHASE 3
      (s.bbWrite 5 (toBytes 8 (s.rd BOOT_STAT.adr).toNat)).setF SVC_CTL.adr SVC_CTL.FAULT 1

/-- Every 10 s in recovery the candidates are checked again (R449). -/
def State.recoveryRecheck (s : State) : State :=
  if s.isOn 301 && s.phase = 3 then s.bootTry.1 else s

/-- A recovery image from the UART: checked and loaded, or dropped (R449). -/
def State.recoveryImage (s : State) (bs : List Byte) : State :=
  let h := bs.take 4096
  let body := (bs.drop 4096).take (imgLen h)
  if s.isOn 301 && s.phase = 3 && s.fuseSt FUSE_STATE.LOAD_ERR = 0 && s.checkBoot h body = 0 then s.bootImage h body else s

/-- BOOT_REQ to DEST 0 with FUSE_ID_0 in bytes 4 to 11 (R450). -/
def State.bootReq (s : State) : State :=
  if s.isOn 301 && s.phase = 4 && s.chStat CHAIN_STAT.UP_CONN = 1 then
    s.chainAsk false (toBytes 1 0x10 ++ toBytes 1 0 ++ toBytes 1 s.chainPos ++ toBytes 1 s.chain.seq
      ++ toBytes 8 (s.rd FUSE_ID_0.adr).toNat ++ List.replicate 4 0)
  else s

/-- BOOT_GO (R450 steps 4 to 6): the number, the route to the master and the boot link; the image that the GETs
returned is checked and loaded, and BOOT_DONE carries the code.  Router slices that are off are powered first. -/
def State.bootGo (s : State) (dev master link : Nat) (image : List Byte) : State :=
  if !s.isOn 301 || s.phase ≠ 4 then s
  else
    let s := (numsFrom 0 4).foldl (fun s i =>
      if s.isOn (296 + i) then s else (s.setF (DOM_CTL.adr (296 + i)) DOM_CTL.OFF 0).powerUp (296 + i)) s
    let s := (s.setF RT_DEVICE.adr RT_DEVICE.DEVICE dev).setF RT_DEVICE.adr RT_DEVICE.VALID 1
    let s := (numsFrom 0 4).foldl (fun s i =>
      let r := RT_ENTRY.adr i 0 (master % 65536)
      (s.setF r RT_ENTRY.CAND_0 link).setF r RT_ENTRY.CVALID 1) s
    let s := if link < 144 then s.linkEnable link true else s
    let h := image.take 4096
    let body := (image.drop 4096).take (imgLen h)
    let code := if s.fuseSt FUSE_STATE.LOAD_ERR = 1 then 0xF else s.checkBoot h body
    let s := if code = 0 then (s.bootImage h body).setF BOOT_STAT.adr BOOT_STAT.CHAIN 1 else s
    s.chainAsk false (mkFrame 0x12 0 s.chainPos s.chain.seq code)

/-- The capacity in bytes that a flash answer gives (R444), and its log2. -/
def flashSize : FlashAnswer → Nat × Nat
  | .absent => (0, 0)
  | .unreadable => (2 ^ 30, 30)
  | .log2 n => (2 ^ n, n)

/-- Device reset is released (R448 step 2, R481): the straps are sampled, the service complex and the time base are
powered, the flash answers, the black box is checked and the active service core starts the boot ROM. -/
def State.resetRelease (s : State) (pins : Straps) (f0 f1 : FlashAnswer) : State :=
  if !s.power.aonGood || !(s.power.rstLow || !s.power.powerGood) then s
  else
    let trip := s.power.thermTrip && s.power.powerGood
    let s := s.updPower fun w => { w with powerGood := true, rstLow := false, devOff := false, thermTrip := trip }
    let s : State := { s with straps := pins, flashCap := ((flashSize f0).1, (flashSize f1).1) }
    let s := ((s.setF XSPI_STAT.adr XSPI_STAT.CAP0_LOG2 (flashSize f0).2).setF XSPI_STAT.adr XSPI_STAT.CAP1_LOG2 (flashSize f1).2)
    let s := s.setF XSPI_STAT.adr XSPI_STAT.PRESENT (b2n (f0 ≠ .absent) + 2 * b2n (f1 ≠ .absent))
    let s := s.setF PCIE_STAT.adr PCIE_STAT.MODE (b2n pins.endpoint)
    let s := (s.setDom 301 1).setDom 302 1
    let s := ((s.calPowerUp (winBase .svc) 301).calPowerUp (winBase .time) 302).reportSource
    let s := (s.deliverAon).setCh CHAIN_STAT.ROLE (pins.chainRole % 4)
    let up := s.chStat CHAIN_STAT.UP_CONN = 1
    let s := (s.setCh CHAIN_STAT.UP_CONN 0).chainIn up
    if pins.testEn && s.fuseSt FUSE_STATE.DEBUG_CLOSE = 0 then s.updPower fun w => { w with factory := true }
    else
      let s := s.bbCheck
      let dis := s.fld SVC_STAT.adr SVC_STAT.DIS
      let s := s.setF SVC_STAT.adr SVC_STAT.ACTIVE (if dis % 2 = 1 then 1 else 0)
      let s := s.startCore s.activeSvc 0xF100000000
      s.setF BOOT_STAT.adr BOOT_STAT.PHASE (if 2 ≤ pins.chainRole % 4 then 4 else 1)

/-! ## The signature engine (R457, R458) -/

/-- Bytes of an image at a global address: this device's memory, or what the far device's answers delivered. -/
def State.imgRead (s : State) (src : Nat) (remote : List Byte) (off n : Nat) : State × Option (List Byte) :=
  let own := if s.devValid then s.ownDev else 0
  if src / 2 ^ 40 = own then
    match s.engineRead (src % 2 ^ 40 + off) n with
    | (s, some (bs, false)) => (s, some bs)
    | (s, _) => (s, none)
  else if off + n ≤ remote.length then (s, some ((remote.drop off).take n))
  else (s, none)

/-- The code of an operation other than LOAD whose source cannot be read: the spec names none, and keeps 0xA and 0xB for
LOAD (R446; assumption log entry 43). -/
def State.openCode (s : State) : State × Nat := (s.tick, (Config.freeWord s.freeTick).toNat % 9 + 1)

/-- The code of VERIFY (R446). -/
def State.sigVerify (s : State) (remote : List Byte) : State × Nat :=
  let src := s.fld SIG_SRC.adr SIG_SRC.ADDR
  match s.imgRead src remote 0 4096 with
  | (s, none) => s.openCode
  | (s, some h) =>
    let c := s.checkHeader h true
    if c ≠ 0 then (s, c)
    else match s.imgRead src remote 4096 (imgLen h) with
      | (s, none) => s.openCode
      | (s, some body) => (s, if bodyGood h body then 0 else 7)

/-- LOAD of section KIND.  The spec gives no code for an image that has no such section: it is free, and not 0. -/
def State.sigLoad (s : State) (kind : Nat) (remote : List Byte) : State × Nat :=
  let src := s.fld SIG_SRC.adr SIG_SRC.ADDR
  let dst := s.fld SIG_DST.adr SIG_DST.ADDR
  match s.imgRead src remote 0 4096 with
  | (s, none) => (s, 0xB)
  | (s, some h) =>
    let c := s.checkHeader h true
    if c ≠ 0 then (s, c)
    else match (imgSections h).find? fun x => x.kind == kind with
      | none => (s.tick, (Config.freeWord s.freeTick).toNat % 255 + 1)
      | some x =>
        match s.imgRead src remote (4096 + x.off) x.len with
        | (s, none) => (s, 0xB)
        | (s, some data) => s.loadSection x (if dst = 0 then x.dest else dst) data

/-- Logical tile slots that are present (FEAT_3.TILES_LOG). -/
def State.tilesLog (s : State) : Nat := ((numsFrom 0 128).filter fun t => (s.physTile t).isSome).length

/-- FEAT_3. -/
def State.feat3 (s : State) : Word :=
  BitVec.ofNat 64 (0x2048 * 2 ^ 48 + 0xB0 * 2 ^ 40 + 136 * 2 ^ 24 + s.tilesLog % 256 * 2 ^ 16 + 16 * 2 ^ 8 + 8)

/-- The first 512 bytes of an attestation report (R458). -/
def State.report (s : State) (nonce : List Byte) : List Byte :=
  let w (a : Nat) : List Byte := toBytes 8 (s.rd a).toNat
  let pub := (numsFrom 0 64).flatMap fun i => w (IDKEY_PUB.adr i)
  toBytes 4 0x5241584B ++ toBytes 4 1 ++ w FUSE_ID_0.adr ++ w FUSE_ID_1.adr ++ toBytes 8 s.feat3.toNat
    ++ w FUSE_STATE.adr ++ toBytes 8 s.clock.aon.toNat ++ (nonce ++ List.replicate 64 0).take 64
    ++ hashBytes ((s.booted.digest ++ List.replicate 8 0).take 8) ++ toBytes 8 s.booted.version
    ++ toBytes 4 ((s.rd BOOT_STAT.adr).toNat % 32) ++ toBytes 4 (s.fld SIG_STAT.adr SIG_STAT.LOADS)
    ++ (numsFrom 0 8).flatMap (fun i => w (LOAD_CHAIN.adr i)) ++ hashBytes (Config.sha512 pub)
    ++ List.replicate 192 0

/-- ATTEST: the report is written, signed with the identity key. -/
def State.sigAttest (s : State) : State × Nat :=
  match s.engineRead (s.fld SIG_SRC.adr SIG_SRC.ADDR) 64 with
  | (s, some (nonce, false)) =>
    let r := s.report nonce
    (s.engineWrite (s.fld SIG_DST.adr SIG_DST.ADDR) (r ++ Config.identitySign (Config.sha512 r)), 0)
  | (s, _) => s.openCode

/-- A write of SIG_CMD with GO = 1 (R457): ignored while an operation runs. -/
def State.sigStart (s : State) (op kind : Nat) (remote : List Byte) : State :=
  if !s.isOn 301 || s.has SIG_CMD.adr SIG_CMD.GO then s
  else
    let s := (s.setF SIG_CMD.adr SIG_CMD.OP op).setF SIG_CMD.adr SIG_CMD.KIND kind
    let run (r : State × Nat) : State := { r.1 with sigCode := some r.2 }.setF SIG_CMD.adr SIG_CMD.GO 1
    if op = 1 then run (s.sigVerify remote)
    else if op = 2 then run (s.sigLoad kind remote)
    else if op = 3 then run s.sigAttest
    else s

/-- The operation ends: CODE is set and event 7,649 arrives. -/
def State.sigDone (s : State) : State :=
  match s.sigCode with
  | none => s
  | some c =>
    let s : State := { s with sigCode := none }
    ((s.setF SIG_CMD.adr SIG_CMD.GO 0).setF SIG_STAT.adr SIG_STAT.CODE c).event 7649

/-! ## xSPI (R444) -/

/-- The result an xSPI command will show: 1 refused, 3 out of range, 0 otherwise. -/
def State.xspiCheck (s : State) (op dev : Nat) : Nat :=
  let o := s.fld XSPI_ADDR.adr XSPI_ADDR.OFFSET
  let n := s.fld XSPI_LEN.adr XSPI_LEN.BYTES
  let b := s.fld XSPI_BUF.adr XSPI_BUF.ADDR
  if op ≠ 1 && s.fuseSt FUSE_STATE.UPDATE_CLOSE = 1 && o < 0x20000000 then 1
  else if !s.flashHas dev o n || (op ≠ 3 && !inSram b n) then 3
  else 0

/-- Program flash bytes: a bit goes from 1 to 0 only (assumption log entry 22). -/
def State.flashProgram (s : State) (o : Nat) : List Byte → State
  | [] => s
  | b :: r => ({ s with flash := s.flash.put 0xFF o (s.flashByte o &&& b) } : State).flashProgram (o + 1) r

/-- A write of XSPI_CMD with GO = 1. -/
def State.xspiStart (s : State) (op dev : Nat) : State :=
  let r := XSPI_CMD.adr
  if !s.isOn 301 || s.has r XSPI_CMD.GO then s
  else
    let s := (s.setF r XSPI_CMD.OP op).setF r XSPI_CMD.DEV dev
    if op < 1 || 3 < op then s
    else
      let c := s.xspiCheck op dev
      let o := s.fld XSPI_ADDR.adr XSPI_ADDR.OFFSET
      let n := s.fld XSPI_LEN.adr XSPI_LEN.BYTES
      let b := s.fld XSPI_BUF.adr XSPI_BUF.ADDR
      let f := flashKey dev 0
      let s := if c ≠ 0 then s
        else if op = 1 then s.engineWrite b (s.flashBytes dev o n)
        else if op = 2 then
          (match s.engineRead b n with
           | (s, some x) => s.flashProgram (f + o) x.1
           | (s, none) => s)
        else if n = 0 then s
        else { s with flash := s.flash.eraseRange (f + o / 65536 * 65536) (f + ((o + n - 1) / 65536 + 1) * 65536) }
      { s with xspiRes := some c }.setF r XSPI_CMD.GO 1

/-- The xSPI command ends: RESULT, event 7,650. -/
def State.xspiDone (s : State) (ok : Bool) : State :=
  match s.xspiRes with
  | none => s
  | some c =>
    let s : State := { s with xspiRes := none }
    ((s.setF XSPI_CMD.adr XSPI_CMD.GO 0).setF XSPI_CMD.adr XSPI_CMD.RESULT (if ok || c ≠ 0 then c else 2)).event 7650

/-! ## Service SRAM pages and tile moves (R454, R462) -/

/-- A write of SVC_XREL: pages become writable and no longer executable. -/
def State.svcXrel (s : State) (page count : Nat) : State :=
  if s.isOn 301 then (numsFrom page count).foldl (fun s p => s.setPage p false) s else s

/-- Copy one valid line, check words and poison included, from one position to another. -/
def State.moveLine (s : State) (p q g l : Nat) : State :=
  let src := s.storeAt (.seg p g l)
  let dst := s.storeAt (.seg q g l)
  (numsFrom 0 16).foldl (fun s i =>
    let (s, d, c) := s.rawRead (.seg p g l) (src + 4 * i)
    s.rawWrite (.seg q g l) (dst + 4 * i) d c) s

/-- A segment's valid bits and valid lines are copied. -/
def State.moveSeg (s : State) (p q g : Nat) : State :=
  let ls := (s.segLines.filter fun k => k / 4096 == p * 16 + g).map (· % 4096)
  let s := s.eraseSeg q g
  let s := ls.foldl (fun s l => s.moveLine p q g l) s
  { s with segLines := (ls.map (lineKey q g)).foldl nset s.segLines }

/-- A write of TILE_MOVE (R462): with GO = 1 the slot moves, one whole step, or the move is refused; event 7,652 either
way. -/
def State.tileMove (s : State) (v : Word) : State :=
  let r := TILE_MOVE.adr
  if !s.isOn 301 then s
  else
    let die := fget TILE_MOVE.DIE v
    let slot := fget TILE_MOVE.SLOT v
    let pos := fget TILE_MOVE.POSITION v
    let s := (s.setF r TILE_MOVE.DIE die).setF r TILE_MOVE.SLOT slot
    let s := (s.setF r TILE_MOVE.POSITION pos).setF r TILE_MOVE.SEGMASK (fget TILE_MOVE.SEGMASK v)
    let t := die * 16 + slot
    let q := die * 17 + pos
    if !fset? TILE_MOVE.GO v then s
    else if 16 < pos || !s.isOn q || (match s.logTile q with | some u => u ≠ t | none => false)
        || ((numsFrom 0 1024).any fun e =>
          let w := s.rd (HOME_MAP.adr e)
          fset? HOME_MAP.VALID w && fget HOME_MAP.LTILE w == t) then
      (s.setF r TILE_MOVE.REFUSED 1).event 7652
    else
      let s := match s.physTile t with
        | some p =>
          if p = q then s
          else ((numsFrom 0 16).filter fun g => nbit g (fget TILE_MOVE.SEGMASK v)).foldl (fun s g => s.moveSeg p q g) s
        | none => s
      (((s.wr (TILE_MAP.adr die slot) (fput TILE_MAP.POSITION pos 0)).recore s die).setF r TILE_MOVE.REFUSED 0).event 7652

/-! ## The management lane (R464) -/

/-- Whether the MAC runs. -/
def State.mgmtOn (s : State) : Bool := s.isOn 301 && s.has MGMT_CTL.adr MGMT_CTL.ENABLE

/-- The frame is for this station, broadcast or multicast. -/
def State.mgmtFor (s : State) (f : List Byte) : Bool :=
  (f.headD 0).getLsbD 0 || ofBytes (f.take 6).reverse == s.fld MGMT_CTL.adr MGMT_CTL.MAC

/-- A descriptor in service SRAM: its buffer, LEN and byte 10. -/
def State.descriptor (s : State) (a : Nat) : State × Nat × Nat × Nat :=
  match s.engineRead a 16 with
  | (s, some (b, _)) => (s, bytesAt b 0 8, bytesAt b 8 2, bytesAt b 10 1)
  | (s, none) => (s, 0, 0, 0)

/-- A frame is dropped. -/
def State.mgmtDrop (s : State) : State := s.satF MGMT_CNT.adr MGMT_CNT.RX_DROP 1

/-- A frame of 64 to 9,216 bytes arrives, its FCS stripped. -/
def State.mgmtReceive (s : State) (f : List Byte) (fcsOk : Bool) : State :=
  let n := s.fld MGMT_RXR.adr MGMT_RXR.COUNT
  let i := s.fld MGMT_IDX.adr MGMT_IDX.RX_NEXT
  let a := s.fld MGMT_RXR.adr MGMT_RXR.BASE + 16 * i
  if !s.mgmtOn || !s.mgmtFor f || f.length < 60 || 9212 < f.length then s
  else if !fcsOk || n = 0 then s.mgmtDrop
  else
    let (s, buf, len, own) := s.descriptor a
    if own < 128 || len < f.length then s.mgmtDrop
    else
      let s := (s.engineWrite buf f).engineWrite (a + 8) (toBytes 2 f.length ++ toBytes 1 (own - 128))
      let s := s.setF MGMT_IDX.adr MGMT_IDX.RX_NEXT ((i + 1) % n)
      (s.satF MGMT_CNT.adr MGMT_CNT.RX_FRAMES 1).event 7654

/-- A write of TX_KICK: the owned descriptors are sent in ring order. -/
def State.txKick (s : State) : State := if s.mgmtOn then { s with mgmtSending := true } else s

/-- The next owned descriptor's frame has been sent; none owned: sending ends. -/
def State.mgmtSent (s : State) : State :=
  let n := s.fld MGMT_TXR.adr MGMT_TXR.COUNT
  let i := s.fld MGMT_IDX.adr MGMT_IDX.TX_NEXT
  let a := s.fld MGMT_TXR.adr MGMT_TXR.BASE + 16 * i
  if !s.mgmtOn || !s.mgmtSending then s
  else
    let (s, buf, len, own) := if n = 0 then (s, 0, 0, 0) else s.descriptor a
    if own < 128 then { s with mgmtSending := false }
    else
      let (s, bs, pz) := match s.engineRead buf len with
        | (s, some (b, p)) => (s, b, p)
        | (s, none) => (s, [], true)
      let s := s.emit (.mgmt bs pz)
      let s := s.engineWrite (a + 10) (toBytes 1 (if pz then (own - 128) ||| 2 else own - 128))
      let s := if pz then s.satF MGMT_CNT.adr MGMT_CNT.TX_POISON 1 else s
      let s := s.setF MGMT_IDX.adr MGMT_IDX.TX_NEXT ((i + 1) % n)
      (s.satF MGMT_CNT.adr MGMT_CNT.TX_FRAMES 1).event 7655

/-- The management link goes up or down. -/
def State.mgmtLink (s : State) : State := if s.mgmtOn then s.event 7656 else s

end Sys2Proof.Machine
end

