-- ==== Sys2Proof/Machine/Pins.lean ====
section
/-!
DEFINITION. The board interfaces: WAKE_IN, the SMBus target, the PMBus controller, PCIe and JTAG (spec/15, R483, R487
to R494, R496).
-/

namespace Sys2Proof.Machine

/-! ## What the output pins do (R482, R483, R485) -/

/-- The states that the lands present of a fitted device (R482). -/
inductive PinPhase where
  | unpowered | reset | running
deriving DecidableEq, Repr

/-- What the device does at an output land: drives it low or high, releases it, or leaves it high-impedance. -/
inductive PinDrive where
  | low | high | released | highZ
deriving DecidableEq, Repr

/-- The phase the device is in (R482). -/
def State.pinPhase (s : State) : PinPhase :=
  if !s.power.aonGood then .unpowered
  else if s.power.rstLow || !s.power.powerGood then .reset
  else .running

/-- An open-drain output that `on` holds low (R482). -/
def State.openDrain (s : State) (on : Bool) : PinDrive :=
  if s.pinPhase = .running && on then .low else .released

/-- READY: low in reset, then as SVC_CTL.READY (R468, R482). -/
def State.pinReady (s : State) : PinDrive :=
  match s.pinPhase with
  | .unpowered => .highZ
  | .reset => .low
  | .running => if s.has SVC_CTL.adr SVC_CTL.READY then .high else .low

/-- FAULT_N: held low by SVC_CTL.FAULT (R468). -/
def State.pinFault (s : State) : PinDrive := s.openDrain (s.has SVC_CTL.adr SVC_CTL.FAULT)

/-- THERMTRIP_N: held low by a latched trip, in reset too (R482, R485). -/
def State.pinThermTrip (s : State) : PinDrive :=
  if s.pinPhase ≠ .unpowered && s.power.thermTrip then .low else .released

/-- SMB_ALERT_N: held low by BRD_SMB.ALERT (R491). -/
def State.pinAlert (s : State) : PinDrive := s.openDrain (s.has BRD_SMB.adr BRD_SMB.ALERT)

/-- WAKE_OUT, outside the 10 µs at the start of a DORMANT exit: held low by BRD_SMB.WAKE_OUT (R483, R491). -/
def State.pinWakeOut (s : State) : PinDrive := s.openDrain (s.has BRD_SMB.adr BRD_SMB.WAKE_OUT)

/-- PCIE_PERST_N: a root port holds it low until PCIE_CTL.ENABLE is 1; an input in endpoint mode (R482). -/
def State.pinPerst (s : State) : PinDrive :=
  if s.pinPhase = .unpowered || s.has PCIE_STAT.adr PCIE_STAT.MODE then .highZ
  else if s.pinPhase = .running && s.has PCIE_CTL.adr PCIE_CTL.ENABLE then .released
  else .low

/-- XSPIn_RESET_N: low throughout reset, released by the boot ROM (R482, R495). -/
def State.pinFlashReset (s : State) : PinDrive :=
  match s.pinPhase with
  | .unpowered => .highZ
  | .reset => .low
  | .running => .high

/-! ## AON pins and the SMBus target (R483, R492) -/

/-- WAKE_IN rises and stays high for 1 µs. -/
def State.wakeIn (s : State) : State := if s.power.aonGood then s.event 7040 else s

/-- An SMBus transaction to another address, or while the AON domain is unpowered, is not this device's; a PEC that
fails, or none where PEC_REQ asks for one, is refused (NACK); anything else is done, acknowledged, and answered. -/
def State.smbus (s : State) (q : SmbReq) (ok : Bool) (f : State → State) (reply : List Byte) : State :=
  if !s.power.aonGood || q.addr ≠ s.fld BRD_SMB.adr BRD_SMB.ADDR then s
  else
    let pec := match q.pec with
      | some good => good
      | none => !s.has BRD_SMB.adr BRD_SMB.PEC_REQ
    if ok && pec then (f s).emit (.smbus true reply) else s.emit (.smbus false [])

/-- The device state code of STATUS: 0 ON, 1 HOLD, 2 DORMANT, 3 OFF, 4 in transition. -/
def State.devCode (s : State) : Nat :=
  if s.power.devOff then 3 else min 4 (let st := s.devStat PWR_DEV_STAT.STATE; if 3 ≤ st then 4 else st)

/-- The STATUS word. -/
def State.smbStatus (s : State) : Nat :=
  b2n (s.power.powerGood && !s.power.rstLow) + 2 * s.fld SVC_CTL.adr SVC_CTL.READY + 4 * s.fld SVC_CTL.adr SVC_CTL.FAULT
    + 8 * b2n s.power.thermTrip + 16 * s.devCode + 128 * s.fld BB_STAT.adr BB_STAT.CORRUPT
    + 256 * (if s.isOn 301 then s.fld BRD_SMB.adr BRD_SMB.FW_STATUS else 0)

/-- The hottest reading of the sensors whose die is powered: a compute die's with its fabric, an I/O die's with its
slice; 0x8000 where none is. -/
def State.smbTemp (s : State) : Nat :=
  let on := ((numsFrom 0 12).filter fun d => s.isOn (if d < 8 then 136 + d else 296 + (d - 8))).flatMap dieSensors
  match on.map fun i => (BitVec.ofNat 16 (s.fld (TSENS.adr i) TSENS.TEMP)).toInt with
  | [] => 0x8000
  | t :: r => (BitVec.ofInt 16 (r.foldl max t)).toNat

/-- BB_READ steps BB_INDEX. -/
def State.smbNext (s : State) : State := { s with smbIndex := (s.smbIndex + 1) % 8192 }

/-- MAILBOX is written: BRD_MBOX.VALUE and VALID. -/
def State.smbMailbox (s : State) (bs : List Byte) : State :=
  (s.setF BRD_MBOX.adr BRD_MBOX.VALUE (ofBytes bs)).setF BRD_MBOX.adr BRD_MBOX.VALID 1

/-! ## The PMBus controller (R491, R493) -/

/-- A write of PMB_CMD: its settings are stored, and with GO = 1 the transaction runs, or PROTO 7 to 15, or a block of
no length, is refused with STATUS 5.  A write while one runs is ignored. -/
def State.pmbCmd (s : State) (v : Word) : State :=
  let r := PMB_CMD.adr
  if !s.isOn 301 || s.has r PMB_CMD.GO then s
  else
    let proto := fget PMB_CMD.PROTO v
    let len := fget PMB_CMD.LEN v
    let s := ((s.setF r PMB_CMD.LEN len).setF r PMB_CMD.PROTO proto).setF r PMB_CMD.PEC (fget PMB_CMD.PEC v)
    let s := (s.setF r PMB_CMD.TADDR (fget PMB_CMD.TADDR v)).setF r PMB_CMD.COMMAND (fget PMB_CMD.COMMAND v)
    let s := if fget PMB_CMD.SPEED v = 3 then s else s.setF r PMB_CMD.SPEED (fget PMB_CMD.SPEED v)
    if !fset? PMB_CMD.GO v then s
    else if 7 ≤ proto || (5 ≤ proto && (len < 1 || 8 < len)) then s.setF r PMB_CMD.STATUS 5
    else
      let n := if proto = 1 then 1 else if proto = 2 then 2 else if proto = 6 then len else 0
      (s.setF r PMB_CMD.GO 1).emit (.pmbus (fget PMB_CMD.TADDR v) proto (fget PMB_CMD.COMMAND v)
        (toBytes n (s.rd PMB_DATA.adr).toNat))

/-- A row of the table that names a PROTO: the write of PMB_CMD with GO = 1 and that PROTO. -/
def State.pmbRun (s : State) (proto : Nat) (v : Word) : State :=
  s.pmbCmd (fput PMB_CMD.GO 1 (fput PMB_CMD.PROTO proto v))

/-- The transaction ends: STATUS, and the bytes of a read that was done. -/
def State.pmbDone (s : State) (status : Nat) (data : Word) : State :=
  let r := PMB_CMD.adr
  if !s.has r PMB_CMD.GO then s
  else
    let p := s.fld r PMB_CMD.PROTO
    let n := if p = 3 then 1 else if p = 4 then 2 else if p = 5 then s.fld r PMB_CMD.LEN else 0
    let s := (s.setF r PMB_CMD.GO 0).setF r PMB_CMD.STATUS status
    if status = 0 && n ≠ 0 then s.wr PMB_DATA.adr (BitVec.ofNat 64 (data.toNat % 2 ^ (8 * n))) else s

/-! ## PCIe (R487 to R490, R496) -/

/-- The PCIe domain is on. -/
def State.pcieOn (s : State) : Bool := s.isOn 300
/-- Endpoint mode. -/
def State.endpoint (s : State) : Bool := s.has PCIE_STAT.adr PCIE_STAT.MODE

/-- A PCIE_EVT bit is set, with its arrival (R489). -/
def State.pcieEvt (s : State) (f : Fld) : State :=
  (s.setF PCIE_EVT.adr f 1).event (7200 + s.fld PCIE_CTL.adr PCIE_CTL.EVT_VEC)

/-- The count that pulse crossing `x` of the PCIe window has delivered sets its PCIE_EVT bit, each time with its arrival
(R62, R489, R497): link up or down, by the state the link is in; an error, correctable or not (a free value); a hot reset
at an endpoint; a change of the power state. -/
def State.pciePulse (s : State) (x n : Nat) : State :=
  (numsFrom 0 n).foldl (fun s _ =>
    if x = 4 then s.pcieEvt (if s.fld PCIE_STAT.adr PCIE_STAT.LTSSM = 0 then PCIE_EVT.LINK_DOWN else PCIE_EVT.LINK_UP)
    else if x = 5 then s.tick.pcieEvt (if (Config.freeWord s.freeTick).getLsbD 0 then PCIE_EVT.UNCORR else PCIE_EVT.CORR)
    else if x = 6 then (if s.endpoint then s.pcieEvt PCIE_EVT.HOT_RESET else s)
    else if x = 7 then s.pcieEvt PCIE_EVT.PM
    else s) s

/-- The destination of a pulse crossing takes the count (R55, R62): an event source of the hub, PCIE_EVT, the hub for the
arrivals that the AON domain kept (crossing 12 of the service complex), or its own register alone where the spec names no
effect: the management lane's error events and the PLL lock loss of a slice. -/
def State.pulseLand (s : State) (w : Window) (x : Nat) : State :=
  let c := s.xing w x
  let due := xKind w x = 4 && c.phase = .requested && s.xState w x = 0
  let s := s.pulseDeliver w x
  if !due then s
  else match w with
    | .pcie => s.pciePulse x c.flight
    | .svc => if x = 12 && s.hubOn then s.deliverAon else s
    | _ => s

/-- An MSI write with data `v`. -/
def State.msi (s : State) (v : Nat) : State :=
  if !s.pcieOn then s else if v ≤ 63 then s.event (7200 + v) else s.pcieEvt PCIE_EVT.MSI_BAD

/-- A byte of BAR2 at reset: every vector masked (assumption log entry 23). -/
def msixReset (o : Nat) : Byte := if o < 1024 && o % 16 = 12 then 1 else 0
/-- A byte of BAR2: the table of 64 entries, then the pending bits. -/
def State.msixByte (s : State) (o : Nat) : Byte := s.msix.get 0 o ^^^ msixReset o
/-- Set a byte of BAR2. -/
def State.setMsix (s : State) (o : Nat) (b : Byte) : State := { s with msix := s.msix.put 0 o (b ^^^ msixReset o) }

/-- Send vector `v`, or mark it pending while it is masked. -/
def State.msixSend (s : State) (v : Nat) : State :=
  if (s.msixByte (16 * v + 12)).getLsbD 0 then
    s.setMsix (1024 + v / 8) (s.msixByte (1024 + v / 8) ||| BitVec.ofNat 8 (2 ^ (v % 8)))
  else
    let e := (numsFrom (16 * v) 12).map s.msixByte
    s.emit (.pcie 1 (bytesAt e 0 8) 4 (e.drop 8) false)

/-- A vector whose mask has been cleared and that is pending is sent. -/
def State.msixFlush (s : State) (v : Nat) : State :=
  if !(s.msixByte (16 * v + 12)).getLsbD 0 && (s.msixByte (1024 + v / 8)).getLsbD (v % 8) then
    (s.setMsix (1024 + v / 8) (s.msixByte (1024 + v / 8) &&& ~~~ BitVec.ofNat 8 (2 ^ (v % 8)))).msixSend v
  else s

/-- An access to BAR2; the pending bits are read-only. -/
def State.bar2 (s : State) (r : PcieReq) : State :=
  if r.write then
    let s := (r.data.zip (numsFrom r.addr r.data.length)).foldl (fun s x =>
      if x.2 < 1024 then s.setMsix x.2 x.1 else s) s
    (numsFrom 0 64).foldl (fun s v => s.msixFlush v) s
  else s.emit (.pcieDone 0 ((numsFrom r.addr r.len).map s.msixByte) false)

/-- The local address that the first matching and permitting window gives an inbound request. -/
def State.pcieMap (s : State) (r : PcieReq) : Option Nat :=
  ((numsFrom 0 8).find? fun k =>
    let w := s.rd (PCIE_IN_BASE.adr k)
    fset? PCIE_IN_BASE.VALID w && fget PCIE_IN_BASE.BASE w == r.addr / 2 ^ 30
      && fset? (if r.write then PCIE_IN_BASE.WRITE else PCIE_IN_BASE.READ) w).map fun k =>
    s.fld (PCIE_IN_MAP.adr k) PCIE_IN_MAP.LOCAL * 2 ^ 30 + r.addr % 2 ^ 30

/-- Whether a range lies in local DRAM or the scratchpad windows. -/
def pcieMem (a n : Nat) : Bool := a + n ≤ 2 ^ 39 || (2 ^ 39 ≤ a && a + n ≤ 0x8020000000)

/-- One inbound request (R488): done, completed as UR, or held by memory, when it is asked again later. -/
def State.pcieDo (s : State) (r : PcieReq) : State × Bool :=
  if r.write && r.data.length = 4 && r.addr = s.fld PCIE_MSI.adr PCIE_MSI.ADDR * 4 then (s.msi (ofBytes r.data), true)
  else
    let n := if r.write then r.data.length else r.len
    match s.pcieMap r with
    | none => (s.emit (.pcieDone 1 [] false), true)
    | some a =>
      if !pcieMem a n then (s.emit (.pcieDone 1 [] false), true)
      else if r.write then
        let w := s.writeAll .pcie true a r.data (List.replicate (n / 4 + 2) r.poison)
        (match w.ans with
         | .held => (w.st, false)
         | .ok => (w.st, true)
         | .off => (w.st, true)
         | _ => (w.st.emit (.pcieDone 1 [] false), true))
      else
        let x := s.readAll .pcie true (lineParts (n / 64 + 2) a n)
        match x.ans with
        | .held => (x.st, false)
        | .ok => (x.st.emit (.pcieDone 0 x.bytes (x.poison.any id)), true)
        | .off => (x.st.emit (.pcieDone 2 (List.replicate n 0) false), true)
        | _ => (x.st.emit (.pcieDone 1 [] false), true)

/-- Held inbound requests are asked again, in arrival order. -/
def State.pcieRetry (s : State) : List PcieReq → State
  | [] => s
  | r :: l =>
    match s.pcieDo r with
    | (s, true) => ({ s with pcieHeld := l } : State).pcieRetry l
    | (s, false) => { s with pcieHeld := r :: l }

/-- An inbound request arrives. -/
def State.pcieInbound (s : State) (r : PcieReq) : State :=
  if !s.pcieOn then s
  else if r.bar2 then (if s.endpoint then s.bar2 r else s)
  else s.pcieRetry (s.pcieHeld ++ [r])

/-- PCIe address of an offset in the outbound window. -/
def State.pcieOutAddr (s : State) (off : Nat) : Nat :=
  s.fld PCIE_OUT_BASE.adr PCIE_OUT_BASE.BASE * 2 ^ 26 + (off - 0x4000000)

/-- A load in the outbound window (R489): issued once, held until its completion, then answered. -/
def State.pcieWinRead (s : State) (who : Who) (off : Nat) : State × Ans × PW :=
  let a := s.pcieOutAddr off
  match s.pcieAns.find? fun x => x.who == who && x.addr == a with
  | some x => ({ s with pcieAns := s.pcieAns.erase x }, .ok, x.value)
  | none =>
    if s.pcieAsks.any fun x => x.who == some who && x.addr == a && !x.out then (s, .held, ⟨0, false⟩)
    else (({ s with pcieAsks := s.pcieAsks ++ [⟨some who, a, false⟩] } : State).emit (.pcie 0 a 8 [] false), .held, ⟨0, false⟩)

/-- A store in the outbound window: an 8-byte memory write, poisoned where its data is (R245). -/
def State.pcieWinWrite (s : State) (off : Nat) (v : PW) : State :=
  s.emit (.pcie 1 (s.pcieOutAddr off) 8 (toBytes 8 v.val.toNat) v.poison)

/-- PCIE_OUT_WINDOW as a command at block offset `off`; what its read returns leaves as an answer. -/
def State.pcieWindow (s : State) (who : Who) (off : Nat) (write : Bool) (v : PW) : State :=
  if !s.pcieOn || off < 0x4000000 || 0x8000000 ≤ off || off % 8 ≠ 0 then s
  else if write then s.pcieWinWrite off v
  else ({ s with pcieAsks := s.pcieAsks ++ [⟨some who, s.pcieOutAddr off, true⟩] } : State).emit
    (.pcie 0 (s.pcieOutAddr off) 8 [] false)

/-- PCIE_OUT_CMD with GO = 1: issued, or refused with STATUS 5 for an address not aligned to SIZE or a configuration
request in endpoint mode.  A write while one runs is ignored. -/
def State.pcieCmd (s : State) (kind size : Nat) : State :=
  let r := PCIE_OUT_CMD.adr
  if !s.pcieOn || s.has r PCIE_OUT_CMD.GO then s
  else
    let a := (s.rd PCIE_OUT_ADDR.adr).toNat
    let n := 2 ^ size
    let s := (s.setF r PCIE_OUT_CMD.KIND kind).setF r PCIE_OUT_CMD.SIZE size
    if a % n ≠ 0 || (2 ≤ kind && s.endpoint) then s.setF r PCIE_OUT_CMD.STATUS 5
    else
      let d := if kind % 2 = 1 then toBytes n (s.rd PCIE_OUT_DATA.adr).toNat else []
      let s : State := { s with pcieAsks := s.pcieAsks ++ [⟨none, a, false⟩] }
      (s.setF r PCIE_OUT_CMD.GO 1).emit (.pcie kind a n d false)

/-- A window read ends for its requester: the value waits for the load that is held, or leaves. -/
def State.pcieAnswer (s : State) (x : PcieAsk) (who : Who) (v : PW) : State :=
  if x.out then s.emit (.answer who v) else { s with pcieAns := s.pcieAns ++ [⟨who, x.addr, v⟩] }

/-- The oldest outbound request completes: 0 done, 1 UR, 2 CA, 3 timeout, 4 poisoned. -/
def State.pcieComplete (s : State) (status : Nat) (data : PW) : State :=
  let r := PCIE_OUT_CMD.adr
  match s.pcieAsks with
  | [] => s
  | ⟨some who, a, out⟩ :: l =>
    let s : State := { s with pcieAsks := l }
    if 1 ≤ status && status ≤ 3 then
      (s.pcieEvt PCIE_EVT.UNCORR).pcieAnswer ⟨some who, a, out⟩ who ⟨BitVec.allOnes 64, false⟩
    else s.pcieAnswer ⟨some who, a, out⟩ who ⟨data.val, data.poison || status = 4⟩
  | ⟨none, _, _⟩ :: l =>
    let s : State := { s with pcieAsks := l }
    let read := s.fld r PCIE_OUT_CMD.KIND % 2 = 0
    let s := (s.setF r PCIE_OUT_CMD.GO 0).setF r PCIE_OUT_CMD.STATUS status
    if !read then s
    else if 1 ≤ status && status ≤ 3 then s.pcieEvt PCIE_EVT.UNCORR
    else s.wr PCIE_OUT_DATA.adr (BitVec.ofNat 64 (data.val.toNat % 2 ^ (8 * 2 ^ s.fld r PCIE_OUT_CMD.SIZE)))

/-- A write of PCIE_CTL.HOT_RESET: sent by a root port, no effect in an endpoint. -/
def State.hotReset (s : State) : State := if s.pcieOn && !s.endpoint then s.emit .hotReset else s

/-- A write of PCIE_MSIX_SEND. -/
def State.pcieMsix (s : State) (v : Nat) : State := if s.pcieOn && s.endpoint then s.msixSend v else s

/-- PERST_N is asserted to an endpoint (R482, R496): requests in flight are discarded; an outbound read returns all
ones and sets UNCORR; the STATUS of an indirect one is not stated: a free failure code. -/
def State.perst (s : State) : State :=
  if !s.pcieOn || !s.endpoint then s
  else
    let asks := s.pcieAsks
    let s : State := { s with pcieAsks := [], pcieHeld := [] }
    let s := asks.foldl (fun s x =>
      match x.who with
      | some w => (s.pcieEvt PCIE_EVT.UNCORR).pcieAnswer x w ⟨BitVec.allOnes 64, false⟩
      | none =>
        let read := s.fld PCIE_OUT_CMD.adr PCIE_OUT_CMD.KIND % 2 = 0
        let s := (s.setF PCIE_OUT_CMD.adr PCIE_OUT_CMD.GO 0).setF PCIE_OUT_CMD.adr PCIE_OUT_CMD.STATUS
          ((Config.freeWord s.freeTick).toNat % 3 + 1)
        let s := s.tick
        if read then (s.wr PCIE_OUT_DATA.adr (BitVec.allOnes 64)).pcieEvt PCIE_EVT.UNCORR else s) s
    s.pcieEvt PCIE_EVT.HOT_RESET

/-- The link changes state (PCIE_STAT, PCIE_EVT). -/
def State.pcieLink (s : State) (ltssm width rate : Nat) (flit : Bool) : State :=
  if !s.pcieOn then s
  else
    let r := PCIE_STAT.adr
    let old := s.fld r PCIE_STAT.LTSSM
    let s := ((s.setF r PCIE_STAT.LTSSM ltssm).setF r PCIE_STAT.WIDTH width).setF r PCIE_STAT.RATE rate
    let s := (s.setF r PCIE_STAT.FLIT (b2n flit)).setF r PCIE_STAT.LINK_UP (b2n (ltssm = 3 || ltssm = 5))
    let s := if ltssm = 3 && old ≠ 3 then s.pcieEvt PCIE_EVT.LINK_UP else s
    let s := if (old = 3 || old = 5) && ltssm = 0 then s.pcieEvt PCIE_EVT.LINK_DOWN else s
    let pm (x : Nat) : Bool := x = 3 || x = 5 || x = 6
    let s := if old ≠ ltssm && pm old && pm ltssm then s.pcieEvt PCIE_EVT.PM else s
    if s.endpoint && ltssm = 9 && old ≠ 9 then s.pcieEvt PCIE_EVT.HOT_RESET else s

/-! ## JTAG (R459, R494) -/

/-- An instruction that selects the boundary register: the pins are captured and shifted out, what is shifted in is
the register's new content, and it drives the outputs as `driving` says. -/
def State.jtagScan (s : State) (code : BitVec 8) (driving : Nat) (pins shift : List Bool) : State :=
  ({ s with jtag := ⟨code, .boundary, shift, driving⟩ } : State).emit (.tdo pins)

/-- IDCODE: version 1, part 0x2048, manufacturer 0x3C5, least significant bit first. -/
def State.jtagIdcode (s : State) : State :=
  ({ s with jtag := { s.jtag with ir := 1, reg := .idcode, driving := 0 } } : State).emit
    (.tdo ((numsFrom 0 32).map fun i => nbit i 0x1204878B))

/-- BYPASS, and every code that selects it: one bit, captured 0. -/
def State.jtagBypass (s : State) (code : BitVec 8) : State :=
  ({ s with jtag := { s.jtag with ir := code, reg := .bypass, driving := 0 } } : State).emit (.tdo [false])

/-- A debug access instruction: the bypass register once DEBUG_CLOSE is burnt; else its word enters crossing 15 of
the service complex (R62, R494).  What the word makes the device do is not given. -/
def State.jtagDebug (s : State) (code : BitVec 8) (word : Word) : State :=
  if s.fuseSt FUSE_STATE.DEBUG_CLOSE = 1 then s.jtagBypass code
  else
    let s : State := { s with jtag := { s.jtag with ir := code, reg := .debug, driving := 0 } }
    if s.isOn 301 then s.xWrite .svc 15 word else s

end Sys2Proof.Machine
end

