-- ==== Sys2Proof/Machine/StoreBuffer.lean ====
section
/-!
DEFINITION. The store buffer of a core (spec/06, R185, R186): draining committed entries to L1D and their home slice,
segment or remote destination.
-/

namespace Sys2Proof.Machine

/-- The requester that a core is: a core of a tile, or a service core (0x1000, 0x1001). -/
def coreWho (c : Nat) : Who := if ofTile c then .core c else .svc (c - 0x1000)

/-- CORE_ID.DEVICE: 0 until service firmware configures it (R193). -/
def State.coreDevice (s : State) : Nat := if s.devValid then s.ownDev else 0

/-- A global address is local: its device number is the core's own (R193). -/
def State.isLocal (s : State) (ga : Nat) : Bool := ga / 2 ^ 40 == s.coreDevice

/-- The ranges of `n` bytes from `a` and `m` bytes from `b` share a byte. -/
def overlaps (a n b m : Nat) : Bool := decide (a < b + m) && decide (b < a + n)

/-- The range of `n` bytes from `a` lies within that of `m` bytes from `b`. -/
def within (a n b m : Nat) : Bool := decide (b ≤ a) && decide (a + n ≤ b + m)

/-- An entry overlaps `n` bytes from `a`. -/
def SbEntry.over (e : SbEntry) (a n : Nat) : Bool := overlaps a n e.addr e.bytes.length

/-! ## L1D lines -/

/-- Replace bytes of a list from offset `o`. -/
def splice (old : List Byte) (o : Nat) (bs : List Byte) : List Byte :=
  old.take o ++ bs ++ old.drop (o + bs.length)

/-- Poison of word `i` of a line after bytes are stored from offset `o`: a word stored whole takes the store's poison,
one stored in part keeps its own as well (R239, R240). -/
def storedPoison (old : List Bool) (o n : Nat) (pz : List Bool) (i : Nat) : Bool :=
  let p := pz.getD (i - o / 4) false
  if !overlaps (4 * i) 4 o n then old.getD i false
  else if within (4 * i) 4 o n then p
  else p || old.getD i false

/-- A held line takes a store of bytes at offset `o` (R205); a word stored whole is encoded afresh. -/
def CLine.store (l : CLine) (o : Nat) (bs : List Byte) (pz : List Bool) : CLine :=
  { l with data := splice l.data o bs, poison := (numsFrom 0 16).map (storedPoison l.poison o bs.length pz),
           flips := l.flips.filter fun f => !within (4 * f.1) 4 o bs.length }

/-- The core no longer holds line `l`. -/
def Core.dropLine (k : Core) (l : Nat) : Core :=
  let f (ls : List CLine) : List CLine := ls.filter fun x => x.line != l
  { k.mapFills f with l1d := f k.l1d }

/-- A store performed at local address `a` updates the line where the core holds it (R186, R205).  It is no use of the
line for its replacement (assumption log entry 58). -/
def Core.storeHit (k : Core) (a : Nat) (bs : List Byte) (pz : List Bool) : Core :=
  let f := fun (l : CLine) => if l.line = a / 64 then l.store (a % 64) bs pz else l
  { k.mapFills (List.map f) with l1d := k.l1d.map f }

/-! ## Draining (R186) -/

/-- A remote store of core `c` over the bytes awaits its response. -/
def State.storeOut (s : State) (c a n : Nat) : Bool :=
  s.outst.any fun o => o.core == c && (o.kind == .store || o.kind == .write) && overlaps a n o.gaddr o.p.data.length

/-- An entry as the store buffer delivers it (R236), with the errors found. -/
def SbEntry.clean (e : SbEntry) : SbEntry × List Upset :=
  if e.flips.isEmpty then (e, [])
  else
    let r := readFlips e.flips (e.addr % 64) e.bytes e.poison
    ({ e with bytes := r.1, poison := r.2.1, flips := [] }, r.2.2)

/-- Drain a delivered entry of core `c`: false where it cannot be performed or issued yet; a remote entry is not issued while an
older store to its bytes awaits its response (R186, R230).  A failure is that of a posted store (R227). -/
def State.drainClean (s : State) (c : Nat) (e : SbEntry) : State × Bool :=
  let a := e.addr % 2 ^ 40
  if e.kind ≠ .remote then
    let r := s.memWrite (coreWho c) true a e.bytes e.poison
    match r.ans with
    | .held => (r.st, false)
    | .ok => (r.st.updCore c fun k => k.storeHit a e.bytes e.poison, true)
    | x => (r.st.pstoreFail c e.addr x.code, true)
  else if s.outstFull c || s.storeOut c e.addr e.bytes.length then (s, false)
  else
    let req : Option (OutKind × Req) :=
      match regionOf (coreWho c) a with
      | .ctrl => some (.write, ctrlWriteReq a ⟨BitVec.ofNat 64 (ofBytes e.bytes), e.poison.any id⟩)
      | .queue => none
      | _ => some (.store, putReq a e.bytes e.poison)
    match req with
    | none => (s.pstoreFail c e.addr 0x0C, true)
    | some q =>
      match s.enter (coreWho c) true e.addr (s.ownFabric c) with
      | (s, some .held) => (s, false)
      | (s, some x) => (s.pstoreFail c e.addr x.code, true)
      | (s, none) =>
        match s.sendReq c q.1 e.addr q.2 with
        | none => (s.pstoreFail c e.addr 0x0B, true)
        | some s => (s, true)

/-- Drain an entry of core `c`; the errors its words hold are counted as it leaves (R236). -/
def State.drainEntry (s : State) (c : Nat) (e : SbEntry) : State × Bool :=
  let r := s.drainClean c e.clean.1
  (if r.2 then r.1.logCore c 4 0 e.clean.2 else r.1, r.2)

/-- Entry `k` of core `c` drains where no older entry overlaps it (R186). -/
def State.drainAt (s : State) (c k : Nat) : State :=
  match (s.core c).sb[k]? with
  | none => s
  | some e =>
    if ((s.core c).sb.take k).any fun o => o.over e.addr e.bytes.length then s
    else
      match s.drainEntry c e with
      | (s, true) => s.updCore c fun q => { q with sb := q.sb.eraseIdx k }
      | (s, false) => s

/-- Drain up to `n` entries of core `c`, oldest first, as far as they can be drained now. -/
def State.drainAll (s : State) (c : Nat) : Nat → State
  | 0 => s
  | n + 1 =>
    let t := s.drainAt c 0
    if (t.core c).sb.length < (s.core c).sb.length then t.drainAll c n else t

/-- Core `c` has a remote store or QMSG that awaits its response (R115). -/
def State.storesOut (s : State) (c : Nat) : Bool := s.outst.any fun o => o.core == c && o.kind != .load

/-- Every older store of core `c` is performed or has failed. -/
def State.storesDone (s : State) (c : Nat) : Bool := (s.core c).sb.isEmpty && !s.storesOut c

/-! ## Core reset (R469) -/

/-- A core that is held in reset and whose stores are done takes its reset state; PSTORE_ERR.CODE becomes 0. -/
def State.resetDone (s : State) (c : Nat) : State :=
  if !(s.core c).running && s.storesDone c then (s.pstoreClear c).setCore c Core.reset else s

/-- Stop core `c` between bundles and reset it: committed stores drain and are waited for, the gather is discarded and
counted (R469). -/
def State.stopCore (s : State) (c : Nat) : State :=
  let n := (s.core c).gather.length
  let s := s.updCore c fun k => { k with running := false, cur := none, forming := [], late := [], bundles := [],
                                         waiting := false, sleeping := false, sleepRes := none, resp := none }
  let s : State := { s with outst := s.outst.filter fun o => !(o.core == c && o.kind == .load) }
  let s := (s.drainAll c 16).gatherDrop c n
  (s.setGather c [] 0 0).resetDone c

/-- Core `c` starts at an address at monitor level (R83); stores of its former run that are still draining stay. -/
def State.runCore (s : State) (c : Nat) (a : Word) : State :=
  let sb := (s.core c).sb
  (s.startCore c a).updCore c fun k => { k with sb := sb }

end Sys2Proof.Machine
end

