-- ==== Sys2Proof/WellFormed.lean ====
section
/-!
DEFINITION. Which commands name something the device has: the ranges of its units, and `Instr.wf`, which holds of a
command whose operands lie in them.  A command that fails it changes nothing (assumption log entry 27).
-/

set_option maxRecDepth 20000

namespace Sys2Proof

/-- A logical core of the eight compute dies, one of the two service cores, or a core of a position that serves no
slot, 0x2000 above its physical core number (R25, R27, R83). -/
def coreOk (c : Nat) : Bool := decide (c < 2048) || c == 0x1000 || c == 0x1001 || (decide (0x2000 ≤ c) && decide (c < 0x2880))

/-- A slot a syllable can stand in: a core, and an odd unit only in a pair (R68). -/
def Slot.ok (sl : Slot) (pair : Bool) : Bool := coreOk sl.core && (pair || !sl.odd)

/-- A physical tile (R25, R27). -/
def tileOk (p : Nat) : Bool := decide (p < 136)
/-- A logical tile (R27). -/
def ltileOk (t : Nat) : Bool := decide (t < 128)
/-- A compute die, and its memory controller (R25). -/
def dieOk (d : Nat) : Bool := decide (d < 8)
/-- A link (R293). -/
def linkOk (n : Nat) : Bool := decide (n < 144)
/-- A router slice (R293). -/
def sliceOk (i : Nat) : Bool := decide (i < 4)
/-- A power domain (R408). -/
def domOk (k : Nat) : Bool := decide (k < 303)
/-- A collective context: 16 in each slice (R350). -/
def ctxOk (c : Nat) : Bool := decide (c < 64)
/-- A unit with repair registers. -/
def RUnit.ok : RUnit → Bool
  | .tile p => tileOk p
  | .mc d => dieOk d
/-- A handshake window of the device (R49). -/
def Window.ok : Window → Bool
  | .tile p => tileOk p
  | .die d => dieOk d
  | .mc d => dieOk d
  | .link n => linkOk n
  | .slice i => sliceOk i
  | .time => true
  | .svc => true
  | .pcie => true
/-- The number of crossings in a window (R49, R62). -/
def Window.crossings : Window → Nat
  | .tile _ => 1
  | .die _ => 0
  | .mc _ => 12
  | .link _ => 10
  | .slice _ => 3
  | .time => 17
  | .svc => 18
  | .pcie => 8
/-- A crossing of a window. -/
def Window.xOk (w : Window) (x : Nat) : Bool := w.ok && decide (x < w.crossings)
/-- A register whose writes enter crossing 10: a watcher slot, AON_ALARM or BRD_SMB (R290). -/
def aonSetting (a : Nat) : Bool :=
  (decide (0xC050300000 ≤ a ∧ a < 0xC050300200) && a % 8 == 0) || a == 0xc060000038 || a == 0xc0a1000000


/-- The command names units the device has, and its operands lie in their ranges. -/
def Instr.wf : Instr → Bool
  | .registerWrite _ _ _ => true
  | .tileMapUpdate die slot _ => dieOk die && slot < 16
  | .calIntervalExpiry w => w.ok
  | .calStep w => w.ok
  | .calTrimWrite w _ => w.ok
  | .nearMiss w _ => w.ok
  | .hfrOffer w x _ => w.xOk x
  | .hfrAck w x => w.xOk x
  | .pulseEvent w x => w.xOk x
  | .pulseHandshakeDone w x => w.xOk x
  | .pulseCountDelivery w x => w.xOk x
  | .queueCrossingWrite w x _ => w.xOk x
  | .queueCrossingRead w x => w.xOk x
  | .dstStopped w x => w.xOk x
  | .dstClockReturn w x => w.xOk x
  | .crossingSideReset w x _ => w.xOk x
  | .xctlResync w x => w.xOk x
  | .resyncComplete w x => w.xOk x
  | .resyncHoldTimeout w x => w.xOk x
  | .add sl _ _ _ => sl.ok true
  | .sub sl _ _ _ => sl.ok true
  | .and sl _ _ _ => sl.ok true
  | .or sl _ _ _ => sl.ok true
  | .xor sl _ _ _ => sl.ok true
  | .andn sl _ _ _ => sl.ok true
  | .min sl _ _ _ => sl.ok true
  | .max sl _ _ _ => sl.ok true
  | .minu sl _ _ _ => sl.ok true
  | .maxu sl _ _ _ => sl.ok true
  | .shl sl _ _ _ => sl.ok true
  | .shr sl _ _ _ => sl.ok true
  | .sar sl _ _ _ => sl.ok true
  | .rol sl _ _ _ => sl.ok true
  | .cmpeq sl _ _ _ => sl.ok true
  | .cmpne sl _ _ _ => sl.ok true
  | .cmplt sl _ _ _ => sl.ok true
  | .cmpltu sl _ _ _ => sl.ok true
  | .cmple sl _ _ _ => sl.ok true
  | .cmpleu sl _ _ _ => sl.ok true
  | .csel sl _ _ _ => sl.ok true
  | .bfx sl _ _ _ => sl.ok true
  | .bfxu sl _ _ _ => sl.ok true
  | .bfi sl _ _ _ => sl.ok true
  | .clz sl _ _ => sl.ok true
  | .ctz sl _ _ => sl.ok true
  | .popc sl _ _ => sl.ok true
  | .bperm sl _ _ _ => sl.ok true
  | .ldil sl _ _ => sl.ok true
  | .ldih sl _ _ => sl.ok true
  | .mul sl _ _ _ => sl.ok true
  | .mulh sl _ _ _ => sl.ok true
  | .mulhu sl _ _ _ => sl.ok true
  | .div sl _ _ _ => sl.ok true
  | .divu sl _ _ _ => sl.ok true
  | .rem sl _ _ _ => sl.ok true
  | .remu sl _ _ _ => sl.ok true
  | .ld8 sl _ _ _ => sl.ok true
  | .ld8u sl _ _ _ => sl.ok true
  | .ld16 sl _ _ _ => sl.ok true
  | .ld16u sl _ _ _ => sl.ok true
  | .ld32 sl _ _ _ => sl.ok true
  | .ld32u sl _ _ _ => sl.ok true
  | .ld64 sl _ _ _ => sl.ok true
  | .st8 sl _ _ _ => sl.ok true
  | .st16 sl _ _ _ => sl.ok true
  | .st32 sl _ _ _ => sl.ok true
  | .st64 sl _ _ _ => sl.ok true
  | .vld sl _ _ _ => sl.ok true
  | .vst sl _ _ _ => sl.ok true
  | .pref sl _ _ _ => sl.ok true
  | .amoadd sl _ _ _ => sl.ok true
  | .amoswap sl _ _ _ => sl.ok true
  | .amocas sl _ _ _ => sl.ok true
  | .fenceRel sl => sl.ok true
  | .fenceAcq sl => sl.ok true
  | .fenceFull sl => sl.ok true
  | .jr sl _ => sl.ok false
  | .callr sl _ _ => sl.ok false
  | .ret sl _ => sl.ok false
  | .br sl _ => sl.ok false
  | .call sl _ => sl.ok false
  | .bz sl _ _ => sl.ok false
  | .bnz sl _ _ => sl.ok false
  | .vfma sl _ _ _ _ _ _ => sl.ok true
  | .vfadd sl _ _ _ _ => sl.ok true
  | .vfsub sl _ _ _ _ => sl.ok true
  | .vfmul sl _ _ _ _ => sl.ok true
  | .vfmin sl _ _ _ _ => sl.ok true
  | .vfmax sl _ _ _ _ => sl.ok true
  | .vcvt sl _ _ _ _ => sl.ok true
  | .vcmp sl _ _ _ _ _ => sl.ok true
  | .viadd sl _ _ _ _ => sl.ok true
  | .visub sl _ _ _ _ => sl.ok true
  | .vimul sl _ _ _ _ => sl.ok true
  | .vpermb sl _ _ _ => sl.ok true
  | .vbcast sl _ _ _ => sl.ok true
  | .vmovg sl _ _ _ _ => sl.ok true
  | .vmovv sl _ _ => sl.ok true
  | .nop sl => sl.ok false
  | .sysMf sl _ _ => sl.ok false
  | .sysMt sl _ _ => sl.ok false
  | .syscall sl _ => sl.ok false
  | .breakpoint sl _ => sl.ok false
  | .mtrap sl _ => sl.ok false
  | .eret sl => sl.ok false
  | .iflushAll sl => sl.ok false
  | .iflushRange sl _ _ => sl.ok false
  | .specbar sl => sl.ok false
  | .wait sl => sl.ok false
  | .sleepQuery sl _ _ => sl.ok false
  | .sleepNap sl _ _ => sl.ok false
  | .sleepReserved sl _ _ => sl.ok false
  | .epochQuery sl _ _ => sl.ok false
  | .epochMark sl _ _ => sl.ok false
  | .epochReserved sl _ _ => sl.ok false
  | .rmClr sl _ => sl.ok false
  | .rmNeg sl _ => sl.ok false
  | .rmStat sl _ _ => sl.ok false
  | .rmAddv sl _ _ => sl.ok false
  | .rmFma4 sl _ _ _ _ => sl.ok false
  | .rmMerge sl _ _ => sl.ok false
  | .rmRnd sl _ _ _ => sl.ok false
  | .rmSt sl _ _ => sl.ok false
  | .rmLd sl _ _ => sl.ok false
  | .copAbsent sl _ _ => sl.ok false
  | .illegalBundle core words => coreOk core && decide (words.length ≤ 8)
  | .interruptEntry core => coreOk core
  | .etlbRead sl _ => sl.ok false
  | .etlbWrite sl _ => sl.ok false
  | .etlbProbe sl _ => sl.ok false
  | .etlbInval sl _ => sl.ok false
  | .etlbInvalAll sl _ => sl.ok false
  | .etlbInvalAsid sl _ => sl.ok false
  | .dropPrivate sl _ => sl.ok false
  | .predFlush sl _ => sl.ok false
  | .bundleAlign core => coreOk core
  | .l1iFill core _ => coreOk core
  | .branchMispredict core => coreOk core
  | .l1dFill core bundle _ => coreOk core && decide (bundle < 4)
  | .storeDrain core _ => coreOk core
  | .homeSliceEvict ptile seg _ => tileOk ptile && seg < 16
  | .rehome _ => true
  | .rehomeSwitch => true
  | .segModeWrite ptile seg _ => tileOk ptile && seg < 16
  | .segErase ptile seg => tileOk ptile && seg < 16
  | .mcTrainingDone d _ => dieOk d
  | .memLevelChange d => dieOk d
  | .selfRefreshEntry d => dieOk d
  | .selfRefreshExit d => dieOk d
  | .segCodeChange ptile _ => tileOk ptile
  | .dramCodeConvert g _ => g < 512
  | .conversionLine d => dieOk d
  | .conversionPartDone d => dieOk d
  | .memFill d => dieOk d
  | .memFillDone d => dieOk d
  | .beaterRewrite u _ => u.ok
  | .spareRowMap ptile _ => tileOk ptile
  | .dramBlockRemap d _ => dieOk d
  | .spareMapWrite ptile seg r _ => tileOk ptile && seg < 16 && r < 8
  | .dramRemapWrite d i _ => dieOk d && i < 1024
  | .recEntryFree u i => u.ok && i < 32
  | .recDecayExpiry u => u.ok
  | .beatPass u => u.ok
  | .beaterVisit u _ => u.ok
  | .beaterPassEnd u _ => u.ok
  | .readRaw u _ => u.ok
  | .writeRaw u _ _ => u.ok
  | .qpush _ lt q _ => ltileOk lt && q < 32
  | .qpushLast _ lt q _ => ltileOk lt && q < 32
  | .qabort _ lt q => ltileOk lt && q < 32
  | .heldPushAccept lt q => ltileOk lt && q < 32
  | .stale lt q => ltileOk lt && q < 32
  | .qpop _ lt q => ltileOk lt && q < 32
  | .queueFlush lt q => ltileOk lt && q < 32
  | .evmodeWrite lt q _ => ltileOk lt && q < 32
  | .qwmWrite lt q _ => ltileOk lt && q < 32
  | .eventArrival src => src < 7712
  | .levelChange src _ => src < 7712
  | .evPendSet w _ => w < 128
  | .evPendClr w _ => w < 128
  | .evClaim c => c < 2048
  | .evEoi c _ => c < 2048
  | .evRing _ => true
  | .aonSettingWrite _ addr _ => aonSetting addr
  | .aonSettingTaken => true
  | .detectProbe n _ => linkOk n
  | .rxLock n => linkOk n
  | .fallback n => linkOk n
  | .trainingFailure n _ => linkOk n
  | .codewordReceive n _ => linkOk n
  | .flitReceive n _ => linkOk n
  | .flitSend n => linkOk n
  | .flitDequeue n => linkOk n
  | .crd n _ _ _ => linkOk n
  | .ack n _ _ => linkOk n
  | .replay n _ _ => linkOk n
  | .init n _ _ => linkOk n
  | .initDone n _ => linkOk n
  | .quietReq n _ => linkOk n
  | .quietAck n _ => linkOk n
  | .quietNak n _ => linkOk n
  | .offReq n _ => linkOk n
  | .offAck n _ => linkOk n
  | .retrain n _ => linkOk n
  | .retire n _ => linkOk n
  | .lctlReserved n _ => linkOk n
  | .lctlResend n => linkOk n
  | .ackTimeExpiry n => linkOk n
  | .replayTimeout n => linkOk n
  | .crdTimeExpiry n => linkOk n
  | .quietIdleExpiry n => linkOk n
  | .wakeSeen n => linkOk n
  | .wakeComplete n => linkOk n
  | .linkRetrainCmd n => linkOk n
  | .fullTrain n => linkOk n
  | .linkRetireCmd n _ => linkOk n
  | .linkEnable n _ => linkOk n
  | .pwrReq n _ => linkOk n
  | .linkTest n _ => linkOk n
  | .healthWindowExpiry n => linkOk n
  | .packetRoute i vc _ => sliceOk i && vc < 8
  | .put i _ => sliceOk i
  | .get i _ => sliceOk i
  | .amo i _ => sliceOk i
  | .ctrl i _ => sliceOk i
  | .qmsg i _ => sliceOk i
  | .qmsgHoldDeliver t q => ltileOk t && q < 32
  | .responseReceive i _ => sliceOk i
  | .reqTimeout _ => true
  | .retryDelayExpiry _ => true
  | .gatherQpush c device t q _ => coreOk c && device < 65536 && ltileOk t && q < 32
  | .gatherQpushLast c device t q _ => coreOk c && device < 65536 && ltileOk t && q < 32
  | .gatherQabort c device t q => coreOk c && device < 65536 && ltileOk t && q < 32
  | .oldPktsDrained i => sliceOk i
  | .collEnable c _ => ctxOk c
  | .collDisable c => ctxOk c
  | .collSubmit c _ => ctxOk c
  | .collUp link _ => linkOk link
  | .collDown link _ => linkOk link
  | .collCombine c => ctxOk c
  | .collTimeout c => ctxOk c
  | .timeExchangeStart _ => true
  | .timeReq link _ _ _ => linkOk link
  | .timeResp link _ _ => linkOk link
  | .ceMark => true
  | .ceAbort => true
  | .extentFull i => i < 256
  | .granuleRead => true
  | .preimageCopy g => g < 2 ^ 26
  | .couchResponse link _ => linkOk link
  | .couchResend _ => true
  | .couchBegin link _ => linkOk link
  | .couchData link _ => linkOk link
  | .couchEnd link _ => linkOk link
  | .couchAbort link _ => linkOk link
  | .couchHb link _ => linkOk link
  | .applyDone => true
  | .reapply => true
  | .discard => true
  | .hbPeriodExpiry => true
  | .chainInConnect _ => true
  | .chainFrameReceive _ _ => true
  | .chainEnum p => p < 256
  | .chainEnumDone _ => true
  | .chainAck _ _ _ _ => true
  | .chainEnumCmd => true
  | .chainSend => true
  | .chainRelease => true
  | .chainResend => true
  | .pwrgdMainFall => true
  | .retentionShed p _ => tileOk p
  | .levelRampStart k => domOk k
  | .levelRampEnd k => domOk k
  | .napEntryStart p => tileOk p
  | .napNow p => tileOk p
  | .napEntryComplete p => tileOk p
  | .napWake p _ _ => tileOk p
  | .napExitComplete p => tileOk p
  | .domainOffRequest k => domOk k && !(152 ≤ k && k < 296)
  | .domainPowerUp k => domOk k && !(152 ≤ k && k < 296)
  | .domainPowerUpDone k => domOk k
  | .devReqOn => true
  | .devReqHold => true
  | .devReqDormant => true
  | .devReqOff => true
  | .devEntryPoint => true
  | .devEntryComplete => true
  | .deviceWake slot _ => slot < 64
  | .dormantExitComplete => true
  | .gateHoldTimeout k => domOk k
  | .pcapXfer _ => true
  | .pcapXferComplete => true
  | .pkgPowerWindow _ => true
  | .thermalStep die _ _ => die < 12
  | .thermalTrip sensor => sensor < 256
  | .regFault k => domOk k
  | .timeAdj _ => true
  | .aonPeriodMeasure _ => true
  | .xtalAbsent => true
  | .xtalReturn => true
  | .timeAlarm => true
  | .aonAlarm => true
  | .coldReset _ _ damage _ => damage.all fun r => r.2.length = 32
  | .deviceReset _ => true
  | .deviceResetRelease _ _ _ => true
  | .rollbackAdv => true
  | .revoke => true
  | .keyProg => true
  | .closeDebug => true
  | .closeUpdate => true
  | .fuseCmdInvalid _ => true
  | .fuseCmdDone => true
  | .bootSelect => true
  | .recoveryImage _ => true
  | .recoveryRecheck => true
  | .bootReqResend => true
  | .bootGo _ _ _ _ _ => true
  | .verify _ => true
  | .sigLoad _ _ => true
  | .attest => true
  | .sigDone => true
  | .xspiRead _ => true
  | .xspiProgram _ => true
  | .xspiErase _ => true
  | .xspiDone _ => true
  | .handover => true
  | .watchdogExpiry => true
  | .kick => true
  | .standbyRun => true
  | .svcXrel _ _ => true
  | .tileMove _ => true
  | .tileCoreStart p c => tileOk p && c < 16
  | .tileCoreReset p c => tileOk p && c < 16
  | .bbWrGo => true
  | .mgmtFrameReceive _ _ => true
  | .txKick => true
  | .mgmtFrameSent => true
  | .wakeIn => true
  | .smbStatus _ => true
  | .smbTemp _ => true
  | .smbWake _ _ => true
  | .smbId _ => true
  | .smbMailboxWrite _ _ => true
  | .smbMailboxRead _ => true
  | .smbIndexWrite _ _ => true
  | .smbIndexRead _ => true
  | .smbRecord _ => true
  | .smbBbStat _ => true
  | .smbAddr _ _ => true
  | .smbusClockTimeout => true
  | .pmbSendByte _ => true
  | .pmbWriteByte _ => true
  | .pmbWriteWord _ => true
  | .pmbReadByte _ => true
  | .pmbReadWord _ => true
  | .pmbBlockRead _ => true
  | .pmbBlockWrite _ => true
  | .pmbRefused _ => true
  | .pmbDone _ _ => true
  | .msiWrite _ => true
  | .pcieInbound _ => true
  | .pcieOutWindow _ offset _ _ => offset < 0x4000000 && offset % 8 = 0
  | .pcieMemRead _ => true
  | .pcieMemWrite _ => true
  | .pcieCfgRead _ => true
  | .pcieCfgWrite _ => true
  | .pcieOutComplete _ _ => true
  | .hotReset => true
  | .pcieMsixSend _ => true
  | .perstAssert => true
  | .pcieLinkChange _ _ _ _ => true
  | .extest _ _ => true
  | .idcode => true
  | .samplePreload _ _ => true
  | .extestPulse _ _ => true
  | .extestTrain _ _ => true
  | .debugAccess code _ => 0x80#8 ≤ code && code < 0xC0#8
  | .bypass _ => true
  | .codewordLock n => linkOk n
  | .retireWaitExpiry n => linkOk n
  | .chainOutConnect _ => true
  | .mgmtLinkChange _ => true
  | .pllLockLoss i => sliceOk i
  | .slewEnd => true
  | .pwrgdAonFall => true

end Sys2Proof
end

