-- ==== Sys2Proof/Machine/Control.lean ====
section
/-!
DEFINITION. Control space (R37 to R39): which block an address lies in, the gates on the way, what a read returns and
what a write does, the filter of remote CTRL requests (R347), service core handover (R455, R456) and the release and
reset of tile cores (R469).
-/

namespace Sys2Proof.Machine

/-! ## Blocks and gates -/

/-- The blocks of R37; the chain registers lie in the service complex, and so does the board interface group. -/
inductive Blk where
  | tile (p : Nat) | die (d : Nat) | mc (d : Nat) | link (n : Nat) | slice (i : Nat)
  | hub | pwr | time | couch | chain | svc | pcie | brd | none
deriving DecidableEq, Repr

/-- The block that a control space address lies in (R37, R38). -/
def blkOf (a : Nat) : Blk :=
  let o := a - 0xC000000000
  if o < 0x8800000 then .tile (o / 0x100000)
  else if 0x10000000 ≤ o && o < 0x18000000 then .die ((o - 0x10000000) / 0x1000000)
  else if 0x20000000 ≤ o && o < 0x20800000 then .mc ((o - 0x20000000) / 0x100000)
  else if 0x30000000 ≤ o && o < 0x30900000 then .link ((o - 0x30000000) / 0x10000)
  else if 0x40000000 ≤ o && o < 0x50000000 then .slice ((o - 0x40000000) / 0x4000000)
  else if 0x50000000 ≤ o && o < 0x60000000 then .hub
  else if 0x60000000 ≤ o && o < 0x70000000 then .pwr
  else if 0x70000000 ≤ o && o < 0x80000000 then .time
  else if 0x80000000 ≤ o && o < 0x90000000 then (if 0x80000200 ≤ o && o < 0x80000248 then .chain else .couch)
  else if 0x90000000 ≤ o && o < 0xA0000000 then .svc
  else if 0xA0000000 ≤ o && o < 0xB0000000 then (if 0xA1000000 ≤ o && o < 0xA1000020 then .brd else .pcie)
  else .none

/-- The handshake window an address lies in, if any (R49). -/
def winOf (a : Nat) : Option Window :=
  let w : Option Window := match blkOf a with
    | .tile p => some (.tile p)
    | .die d => some (.die d)
    | .mc d => some (.mc d)
    | .link n => some (.link n)
    | .slice i => some (.slice i)
    | .time => some .time
    | .svc => some .svc
    | .pcie => some .pcie
    | _ => none
  match w with
  | some w => if winBase w ≤ a && a < winBase w + 0x1000 then some w else none
  | none => none

/-- Registers of a link that stay reachable through its slice while the link is OFF (R321): LNK_CTL, LNK_EXPECT,
LNK_TIMING, LNK_HEALTH and LNK_VC. -/
def linkKept (a : Nat) : Bool :=
  let o := (a - 0xC030000000) % 0x10000
  o < 8 || (0x28 ≤ o && o < 0x80)

/-- The domain whose gate a block's registers lie behind, for a block on the I/O dies. -/
def State.blkDomain (s : State) (a : Nat) : Blk → Nat
  | .link n => if s.dom (152 + n) = 0 && linkKept a then 296 + n / 36 else 152 + n
  | .slice i => 296 + i
  | .time => 302
  | .couch => 299
  | .pcie => 300
  | _ => 301

/-- The gates on the way to a control space address; an access that comes to a tile's block wakes the tile (R22, R411). -/
def State.ctrlGates (s : State) (who : Who) (a : Nat) : State × Gates :=
  match blkOf a with
  | .tile p =>
    let t := if s.wayOpen who p then s.accessWake p else s
    (t, s.fabricGates who (p / 17) (some p) ++ [t.gateOf p])
  | .die d => (s, s.fabricGates who d none)
  | .mc d => (s, s.fabricGates who d none ++ [s.gateOf (144 + d)])
  | .none => (s, [])
  | b => (s, s.ownGate who ++ [s.gateOf (s.blkDomain a b)])

/-- Registers that every die fabric or controller replicates are those of block 0 (R214, R247): the address that holds
them. -/
def replicaOf (a : Nat) : Nat :=
  match blkOf a with
  | .die d =>
    let o := a - dieBlk d
    if d ≠ 0 && ((0x2000 ≤ o && o < 0x2028) || (0x100000 ≤ o && o < 0x102000)) then dieBlk 0 + o else a
  | .mc d =>
    let o := a - mcBlk d
    if d ≠ 0 && 0x6000 ≤ o && o < 0x7000 then mcBlk 0 + o else a
  | _ => a

/-! ## Reads -/

/-- The 64 granules of word `n` of a bitmap (R371). -/
def bitmapWord (l : List Nat) (n : Nat) : Word :=
  BitVec.ofNat 64 (packLanes 1 ((numsFrom (64 * n) 64).map fun g => b2n (l.contains g)))

/-- PRESENT_0 and PRESENT_1: the logical tiles that are not absent. -/
def State.present (s : State) (w : Nat) : Word :=
  BitVec.ofNat 64 (packLanes 1 ((numsFrom (64 * w) 64).map fun t => b2n (s.physTile t).isSome))

/-- Registers that only a service core reads (R468). -/
def svcReadOnly (a : Nat) : Bool :=
  a == FUSE_CMD.adr || a == FUSE_ARG.adr || (SIG_CMD.adr ≤ a && a ≤ SIG_STAT.adr)
    || (XSPI_CMD.adr ≤ a && a ≤ XSPI_STAT.adr)

/-- A read of a handshake window register that shows the selected line or the crossings' summary (R46, R50, R61). -/
def State.readWin (s : State) (w : Nat) (m : Nat) : Word :=
  if m = CAL_TRIM.adr w then s.readCalTrim w
  else if m = CAL_MARGIN.adr w then s.readCalMargin w
  else if m = XSUM.adr w then s.readXsum w
  else s.rd m

/-- A read of an event hub register (R276 to R286). -/
def State.readHub (s : State) (m : Nat) (h : RegHit) : State × Word :=
  let b := h.row.base
  let n := h.idx.headD 0
  if b = EV_MASK.adr 0 then (s, s.srcBits n fun e => e.masked)
  else if b = EV_PEND.adr 0 then (s, s.srcBits n fun e => e.pend)
  else if b = EV_INSVC.adr 0 then (s, s.srcBits n fun e => e.insvc)
  else if b = EV_SAT.adr 0 then (s, s.srcBits n fun e => e.sat)
  else if b = EV_ACKOVER.adr 0 then (s, s.srcBits n fun e => e.ackOver)
  else if b = EV_CFG.adr 0 then (s, s.readSource n 0)
  else if b = EV_COUNT.adr 0 then (s, s.readSource n 1)
  else if b = EV_BOOK.adr 0 then (s, s.readSource n 2)
  else if b = EV_CLAIM.adr 0 then s.claim n
  else if b = EV_CORE_STAT.adr 0 then (s, s.readCoreStat n)
  else (s, s.rd m)

/-- LNK_PHYSTAT of link `n` is read (R326): the eye height and the error ratio of a link that is in training or trained,
and the symbol errors that a PRBS check has met since the last read, are free values. -/
def State.readPhystat (s : State) (n : Nat) : State × Word :=
  let a := LNK_PHYSTAT.adr n
  let f := Config.freeWord s.freeTick
  let w := s.rd a
  let w := if 2 ≤ s.ts n && s.ts n ≤ 5 then fput LNK_PHYSTAT.EYE_MV (fget LNK_PHYSTAT.EYE_MV f)
      (fput LNK_PHYSTAT.BER_LOG (fget LNK_PHYSTAT.BER_LOG f) w) else w
  let w := if s.ts n = 8 && s.lctl n LNK_CTL.TEST = 2 then
      fput LNK_PHYSTAT.PRBS_ERR (min (2 ^ 32 - 1) (fget LNK_PHYSTAT.PRBS_ERR w + fget LNK_PHYSTAT.PRBS_ERR f)) w else w
  (s.tick.wr a w, w)

/-- What a read of the register found at `a` returns to `who`; a claim changes the hub (R280). -/
def State.readReg (s : State) (who : Who) (a : Nat) (h : RegHit) : State × Word :=
  let m := h.mainAddr a
  let b := h.row.base
  match winOf a with
  | some w => (s, s.readWin (winBase w) m)
  | none =>
    match blkOf a with
    | .hub => s.readHub m h
    | _ =>
      if svcReadOnly m && !(match who with | .svc _ => true | _ => false) then (s, 0)
      else if b = SEG_CTL.adr 0 0 then
        (match h.idx with
         | [p, g] =>
           let n := if s.segMode p g = 0 then (s.tags.filter fun t => t.seg == p * 16 + g).length
                    else (s.segLines.filter fun k => k / 4096 == p * 16 + g).length
           (s, BitVec.ofNat 64 (n * 2 ^ 16) ||| (s.rd m &&& 0x1F#64))
         | _ => (s, s.rd m))
      else if b = RT_STAT.adr 0 then (s, s.readRtStat (h.idx.headD 0))
      else if b = CE_DIRTY.adr 0 then (s, bitmapWord s.couch.dirty (h.idx.headD 0))
      else if b = CE_PENDING.adr 0 then (s, bitmapWord s.couch.pend (h.idx.headD 0))
      else if m = TIME_NOW.adr then (s, s.clock.gt)
      else if b = LNK_PHYSTAT.adr 0 then s.readPhystat (h.idx.headD 0)
      else if b = ENERGY.adr 0 then
        -- what a domain has drawn since the last read is a free value (R430)
        (let v := s.rd m + Config.freeWord s.freeTick
         (s.tick.wr m v, v))
      else if b = NAP_RES.adr 0 then
        (let p := h.idx.headD 0
         (s, if p < 136 && s.dom p = 2 then s.rd m + BitVec.ofNat 64 (s.napSpent p) else s.rd m))
      else if m = AON_NOW.adr then (s, s.clock.aon.setWidth 64)
      else if m = PRESENT_0.adr then (s, s.present 0)
      else if m = PRESENT_1.adr then (s, s.present 1)
      else if m = MGMT_IDX.adr then (s, fput MGMT_IDX.TX_KICK (b2n s.mgmtSending) (s.rd m))
      else if m = SVC_STAT.adr then
        (s, fput SVC_STAT.WHO (match who with | .svc i => i | _ => 0) (s.rd m))
      else if b = BB_RD.adr 0 then (s, s.readBbRd (h.idx.headD 0))
      else (s, s.rd m)

/-- A read of control space (R38): no responder where it is unassigned, the gate's answer, the outbound PCIe window
(R489), 0 where no register is defined, or the register. -/
def State.ctrlRead (s : State) (who : Who) (a : Nat) : State × Ans × PW :=
  if blkOf a = .none then (s, .noResp, ⟨0, false⟩)
  else
    let (s, gs) := s.ctrlGates who a
    match s.enter who false a gs with
    | (s, some r) => (s, r, ⟨0, false⟩)
    | (s, none) =>
      if blkOf a = .pcie && 0xC0A4000000 ≤ a && a < 0xC0A8000000 then s.pcieWinRead who (a - 0xC0A0000000)
      else
        let m := replicaOf a
        match regAt m with
        | none => (s, .ok, ⟨0, false⟩)
        | some h =>
          let (s, v) := s.readReg who m h
          (s, .ok, ⟨v, false⟩)

/-! ## The service cores (R455, R456) -/

/-- The standby service core, if fuses leave one. -/
def State.standby (s : State) : Option Nat :=
  let o := 1 - s.fld SVC_STAT.adr SVC_STAT.ACTIVE
  if nbit o (s.fld SVC_STAT.adr SVC_STAT.DIS) then none else some o

/-- The standby becomes active (R455 step 3), with the cause (1 HANDOVER, 2 watchdog). -/
def State.takeOver (s : State) (o cause : Nat) : State :=
  let r := SVC_STAT.adr
  let s := s.stopCore s.activeSvc
  let s := ((s.setF r SVC_STAT.ACTIVE o).setF r SVC_STAT.CAUSE cause).incF r SVC_STAT.HANDOVERS 1
  let s := if (s.core (0x1000 + o)).running then s else s.runCore (0x1000 + o) (s.rd SVC_VEC.adr)
  (s.event 7648).bbWrite 4 (toBytes 4 cause)

/-- A write of SVC_CTL.HANDOVER (R455): refused with NO_STANDBY where no standby exists. -/
def State.handover (s : State) : State :=
  if !s.isOn 301 then s
  else
    match s.standby with
    | none => s.setF SVC_STAT.adr SVC_STAT.NO_STANDBY 1
    | some o => (s.setF SVC_CTL.adr SVC_CTL.STANDBY_RUN 0).takeOver o 1

/-- SVC_WDOG expires (R455, R456): the active core is reset at once; without a standby it restarts. -/
def State.watchdog (s : State) : State :=
  if !s.isOn 301 || !s.has SVC_WDOG.adr SVC_WDOG.PERIOD then s
  else
    let s := s.setCore s.activeSvc Core.reset
    match s.standby with
    | none => s.runCore s.activeSvc (s.rd SVC_VEC.adr)
    | some o => (s.setF SVC_CTL.adr SVC_CTL.STANDBY_RUN 0).takeOver o 2

/-- A write of SVC_CTL.STANDBY_RUN = 1 after a handover: the former active core starts as the standby (R455 step 4). -/
def State.standbyRun (s : State) : State :=
  if !s.isOn 301 then s
  else
    let s := s.setF SVC_CTL.adr SVC_CTL.STANDBY_RUN 1
    match s.standby with
    | none => s
    | some o =>
      if s.has SVC_STAT.adr SVC_STAT.CAUSE && !(s.core (0x1000 + o)).running then
        s.runCore (0x1000 + o) (s.rd SVC_VEC.adr)
      else s

/-! ## Tile cores (R83, R469) -/

/-- Core `c` of physical tile `p` by its number. -/
def State.tileCore (s : State) (p c : Nat) : Nat := s.firstCore p + c

/-- A TILE_BOOT_RUN bit goes from 0 to 1: the core starts at TILE_BOOT_START. -/
def State.tileStart (s : State) (p c : Nat) : State :=
  if nbit c (s.rd (TILE_BOOT_RUN.adr p)).toNat then s
  else
    let s := s.wr (TILE_BOOT_RUN.adr p) (s.rd (TILE_BOOT_RUN.adr p) ||| BitVec.ofNat 64 (2 ^ c))
    s.runCore (s.tileCore p c) (s.rd (TILE_BOOT_START.adr p))

/-- A TILE_BOOT_RUN bit goes from 1 to 0: the core stops, drains and is reset (R469). -/
def State.tileStop (s : State) (p c : Nat) : State :=
  if !nbit c (s.rd (TILE_BOOT_RUN.adr p)).toNat then s
  else
    let s := s.wr (TILE_BOOT_RUN.adr p) (s.rd (TILE_BOOT_RUN.adr p) &&& ~~~ BitVec.ofNat 64 (2 ^ c))
    s.stopCore (s.tileCore p c)

/-- TILE_CORE_START and TILE_CORE_RESET as commands reach a tile in RUN; any other is woken, and the write is held. -/
def State.tileRun (s : State) (p c : Nat) (on : Bool) : State :=
  if 136 ≤ p || 16 ≤ c then s
  else if s.isOn p then (if on then s.tileStart p c else s.tileStop p c)
  else
    let s := s.accessWake p
    if s.dom p = 0 then s
    else
      let w := s.rd (TILE_BOOT_RUN.adr p)
      let v := if on then w ||| BitVec.ofNat 64 (2 ^ c) else w &&& ~~~ BitVec.ofNat 64 (2 ^ c)
      { s with ctrlHeld := s.ctrlHeld ++ [⟨.svc 0, TILE_BOOT_RUN.adr p, v⟩] }

/-! ## Writes -/

/-- The listed fields take their values from `v`. -/
def State.store (s : State) (a : Nat) (v : Word) (fs : List Fld) : State :=
  fs.foldl (fun s f => s.setF a f (fget f v)) s

/-- The listed fields take their values from `v`, a 0 storing 1. -/
def State.storeNz (s : State) (a : Nat) (v : Word) (fs : List Fld) : State :=
  fs.foldl (fun s f => s.setF a f (max 1 (fget f v))) s

/-- A field takes its value from `v` where that is at most `top`; a higher one leaves it unchanged. -/
def State.storeUpTo (s : State) (a : Nat) (v : Word) (f : Fld) (top : Nat) : State :=
  if fget f v ≤ top then s.setF a f (fget f v) else s

/-- A field takes its value from `v`, a value above `top` storing `top`. -/
def State.storeMin (s : State) (a : Nat) (v : Word) (f : Fld) (top : Nat) : State :=
  s.setF a f (min top (fget f v))

/-- A write by the access codes alone (R11, R12). -/
def State.plainWrite (s : State) (m : Nat) (h : RegHit) (v : Word) : State :=
  s.wr m (writeFields h.row.fields h.alia v (s.rd m))

/-- A write in a handshake window (R45, R46, R58). -/
def State.writeWin (s : State) (w : Window) (m : Nat) (h : RegHit) (v : Word) : State :=
  let b := winBase w
  if m = CAL_CTL.adr b then
    let s := s.plainWrite m h v
    let s := if fset? CAL_CTL.FREEZE v then s.calAbandon b else s
    if fset? CAL_CTL.STEP v then s.calStep b (winDom w) else s
  else if m = CAL_TRIM.adr b then s.calTrim b v
  else if m = CAL_MARGIN.adr b then s.writeCalMargin b v
  else if XCTL.adr b 0 ≤ m && (m - XCTL.adr b 0) % 0x40 = 0 then
    (if fset? XCTL.RESYNC v then s.ctlResync w ((m - XCTL.adr b 0) / 0x40) else s)
  else s.plainWrite m h v

/-- A write in a repair group (R252 to R259). -/
def State.writeRepair (s : State) (u : RUnit) (m : Nat) (h : RegHit) (v : Word) : State :=
  let b := unitBlk u
  if m = REC_CTL.adr b then (s.plainWrite m h v).storeNz m v [REC_CTL.HARD_AFTER, REC_CTL.REWRITE_AT]
  else if REC_ENTRY.adr b 0 ≤ m && m < REC_ENTRY.adr b 32 then
    (if fset? REC_ENTRY.VALID v then s else s.wr m 0)
  else if m = BEAT_CTL.adr b then
    let s := (s.store m v [BEAT_CTL.ENABLE]).storeNz m v [BEAT_CTL.PERIOD]
    if fset? BEAT_CTL.PASS v then s.setF m BEAT_CTL.PASS 1 else s
  else if m = DIAG_CMD.adr b then s.writeDiag u v
  else s.plainWrite m h v

/-- A write of TILE_BOOT_RUN: each changed bit starts or resets its core. -/
def State.writeBootRun (s : State) (p : Nat) (v : Word) : State :=
  (numsFrom 0 16).foldl (fun s c => if v.getLsbD c then s.tileStart p c else s.tileStop p c) s

/-- A write in a tile's block. -/
def State.writeTileReg (s : State) (p m : Nat) (h : RegHit) (v : Word) : State :=
  let b := h.row.base
  if b = SEG_CTL.adr 0 0 then s.writeSegCtl p (h.idx.getLastD 0) v
  else if b = SEG_REPAIR.adr 0 then
    (s.store m v [SEG_REPAIR.RETIRED]).setSegCodes p (fget SEG_REPAIR.LIGHT v)
  else if b = SPARE_MAP.adr 0 0 0 then
    (match h.idx with
     | [_, g, r] => s.writeSpareMap p g r v
     | _ => s)
  else if b = TILE_BOOT_RUN.adr 0 then s.writeBootRun p v
  else if 0x2000 ≤ m - tileBlk p && m - tileBlk p < 0x2200 then s.writeRepair (.tile p) m h v
  else s.plainWrite m h v

/-- A write of TILE_MAP (R27, R220): ignored where it names a position that no die has, or, present, one that serves
another slot of the die. -/
def State.writeTileMap (s : State) (d k : Nat) (v : Word) : State :=
  let pos := fget TILE_MAP.POSITION v
  let w := v &&& (fmask TILE_MAP.ABSENT ||| fmask TILE_MAP.POSITION)
  if 16 < pos then s
  else if !fset? TILE_MAP.ABSENT v && (numsFrom 0 16).any fun j => j != k && s.physTile (d * 16 + j) == some (d * 17 + pos) then s
  else (s.wr (TILE_MAP.adr d k) w).recore s d

/-- A write in a die fabric's block (R214 to R220). -/
def State.writeDieReg (s : State) (m : Nat) (h : RegHit) (v : Word) : State :=
  let b := h.row.base
  let locked := s.has HOME_CTL.adr HOME_CTL.LOCKED
  if b = TILE_MAP.adr 0 0 then
    (match h.idx with
     | [d, k] => s.writeTileMap d k v
     | _ => s)
  else if m = REHOME.adr then s.startRehome v
  else if m = DRAM_MAP.adr then (if locked then s else s.storeUpTo m v DRAM_MAP.MODE 2)
  else if b = HOME_MAP.adr 0 then (if locked then s else s.plainWrite m h v)
  else s.plainWrite m h v

/-- A write in a memory controller's block. -/
def State.writeMcReg (s : State) (d m : Nat) (h : RegHit) (v : Word) : State :=
  let b := h.row.base
  if b = FILL_CTL.adr 0 then
    let s := s.store m v [FILL_CTL.POISON]
    if fset? FILL_CTL.GO v then s.startFill d else s
  else if b = DRAM_REMAP.adr 0 0 then s.writeRemap d (h.idx.getLastD 0) v
  else if b = DRAM_CODE.adr 0 then s.convert (h.idx.headD 0) (fset? DRAM_CODE.LIGHT v)
  else if 0x2000 ≤ m - mcBlk d && m - mcBlk d < 0x2200 then s.writeRepair (.mc d) m h v
  else s.plainWrite m h v

/-- A command to link `n` and what follows from it: what the link asks for by itself, the loss of the time parent (R358)
and of contexts that await a link out of service (R356), the check of the buddy group (R365), and the OFF of a slice
that waits for its links (R417). -/
def State.linkDo (s : State) (n : Nat) (f : State → State) : State :=
  (((((f s).linkSettle n).timeLink n).collLink n).groupCheck s).sliceDone (n / 36)

/-- A write of LNK_CTL: the settings, then what takes the link down, its power state, what brings it up, and the
trainings (R307, R318, R321, R324, R326).  A write of ENABLE and PWR_REQ acts also where it changes neither; RETIRE and
TEST act where they change (assumption log entry 71). -/
def State.writeLnkCtl (s : State) (n : Nat) (v : Word) : State :=
  let a := LNK_CTL.adr n
  let s := s.store a v [LNK_CTL.AUTO_QUIET, LNK_CTL.WAKE_ANY, LNK_CTL.ENERGY_DET]
  let s := (s.storeUpTo a v LNK_CTL.MODE 2).storeUpTo a v LNK_CTL.RATE 2
  let ch (s : State) (f : Fld) : Bool := s.fld a f != fget f v
  let s := if fset? LNK_CTL.ENABLE v then s else s.linkEnable n false
  let s := if fset? LNK_CTL.RETIRE v && ch s LNK_CTL.RETIRE then s.retireCmd n true else s
  let s := s.pwrReq n (fget LNK_CTL.PWR_REQ v)
  let s := if fset? LNK_CTL.ENABLE v then s.linkEnable n true else s
  let s := if ch s LNK_CTL.RETIRE then s.retireCmd n false else s
  let s := if ch s LNK_CTL.TEST then s.linkTest n (fget LNK_CTL.TEST v) else s
  let s := if fset? LNK_CTL.FULL_TRAIN v then s.fullTrainCmd n else s
  if fset? LNK_CTL.RETRAIN v then s.retrainCmd n else s

/-- A write in a link's block. -/
def State.writeLinkReg (s : State) (n m : Nat) (h : RegHit) (v : Word) : State :=
  let b := h.row.base
  if b = LNK_CTL.adr 0 then s.linkDo n fun s => s.writeLnkCtl n v
  else if b = LNK_TIMING.adr 0 then
    s.storeNz m v [LNK_TIMING.QUIET_IDLE, LNK_TIMING.REPLAY_TIMEOUT, LNK_TIMING.ACK_EVERY, LNK_TIMING.ACK_TIME,
                   LNK_TIMING.CRD_THRESH, LNK_TIMING.CRD_TIME]
  else if b = LNK_HEALTH.adr 0 then
    (s.plainWrite m h v).storeNz m v [LNK_HEALTH.RETRAIN_LIMIT, LNK_HEALTH.REPLAY_LIMIT, LNK_HEALTH.WINDOW_MS]
  else s.plainWrite m h v

/-- A write in a router slice's block (R341, R344, R349, R351 to R358). -/
def State.writeSliceReg (s : State) (m : Nat) (h : RegHit) (v : Word) : State :=
  let b := h.row.base
  let ctx := match h.idx with
    | [i, k] => i * 16 + k
    | _ => 0
  let ctxOn := s.has (COLL_CFG.adr (ctx / 16) (ctx % 16)) COLL_CFG.ENABLE
  if m = RT_DEVICE.adr then
    let dev := if s.devValid then s.ownDev else fget RT_DEVICE.DEVICE v
    (s.plainWrite m h v).setF m RT_DEVICE.DEVICE dev
  else if m = RT_EPOCH.adr then s.setBank v
  else if m = RT_TIMEOUT.adr then s.storeNz m v [RT_TIMEOUT.RETRY_DELAY, RT_TIMEOUT.REQ_TIMEOUT]
  else if b = COLL_CFG.adr 0 0 then s.writeCollCfg ctx v
  else if b = COLL_CHILD_0.adr 0 0 || b = COLL_CHILD_1.adr 0 0 || b = COLL_CHILD_2.adr 0 0
      || b = COLL_RESULT.adr 0 0 || b = COLL_STAT.adr 0 0 then
    (if ctxOn then s else s.plainWrite m h v)
  else if b = COLL_SUBMIT.adr 0 0 then s.collSubmit ctx v
  else if m = TSYNC_CTL.adr then s.writeTsync v
  else s.plainWrite m h v

/-- A write in the event hub's block (R278 to R290). -/
def State.writeHubReg (s : State) (who : Who) (m : Nat) (h : RegHit) (v : Word) : State :=
  let b := h.row.base
  let n := h.idx.headD 0
  if m = EV_RING.adr then s.ring v
  else if b = EV_MASK.adr 0 then
    let new := writeFields h.row.fields h.alia v (s.srcBits n fun e => e.masked)
    (s.updSrcs n (~~~ new) fun e => { e with masked := false }).updSrcs n new fun e => { e with masked := true }
  else if b = EV_PEND.adr 0 then
    (match h.alia with
     | .main => s
     | .set => s.pendSet n v
     | .clr => s.pendClr n v)
  else if b = EV_SAT.adr 0 then
    (if h.alia = .clr then s.updSrcs n v fun e => { e with sat := false } else s)
  else if b = EV_ACKOVER.adr 0 then
    (if h.alia = .clr then s.updSrcs n v fun e => { e with ackOver := false } else s)
  else if b = EV_CFG.adr 0 then s.writeCfg n v
  else if b = EV_EOI.adr 0 then s.eoi n v
  else if b = EV_CORE_CTL.adr 0 then (s.plainWrite m h v).noteCore n
  else if b = WW_SLOT.adr 0 then (s.aonWrite who m v false).1
  else s.plainWrite m h v

/-- A write of DOM_CTL_k (R404, R407, R411, R412, R417). -/
def State.writeDom (s : State) (k : Nat) (v : Word) : State :=
  let a := DOM_CTL.adr k
  let s := s.store a v [DOM_CTL.IDLE_LIMIT, DOM_CTL.CAL_EN, DOM_CTL.NAP_EN]
  let s := if 144 ≤ k && k < 152 then s.storeMin a v DOM_CTL.LEVEL 3
           else (s.store a v [DOM_CTL.LEVEL]).rampStart k
  let s := if 152 ≤ k && k < 296 then s
           else if fset? DOM_CTL.OFF v then (if s.has a DOM_CTL.OFF then s else s.offRequest k)
           else s.onRequest k
  if fset? DOM_CTL.NAP_NOW v && k < 136 then s.napNow k else s

/-- A write of LVL_COST_n may move every cap limit (R404). -/
def State.writeCost (s : State) (m : Nat) (v : Word) : State := (s.store m v [LVL_COST.TOKENS]).relevel

/-- A write of PKG_CTL: LIMIT_W is at most 1,700, and ENABLE = 0 ends the package limit (R427; assumption log entry
72). -/
def State.writePkg (s : State) (v : Word) : State :=
  let m := PKG_CTL.adr
  let s := (s.store m v [PKG_CTL.ENABLE]).storeMin m v PKG_CTL.LIMIT_W 1700
  if fset? PKG_CTL.ENABLE v then s
  else
    State.relevel ({ s with power := { s.power with pkgDrop := 0, pkgBelow := 0 } }.setF m PKG_CTL.ENGAGED 0)

/-- A write in the power block. -/
def State.writePwrReg (s : State) (who : Who) (m : Nat) (h : RegHit) (v : Word) : State :=
  let b := h.row.base
  if m = PWR_DEV_CMD.adr then
    if fset? PWR_DEV_CMD.GO v then s.devReq (fget PWR_DEV_CMD.REQ v) else s.store m v [PWR_DEV_CMD.REQ]
  else if b = DOM_CTL.adr 0 then s.writeDom (h.idx.headD 0) v
  else if m = PCAP_POOL.adr then s.pcapPool v
  else if m = PCAP_XFER.adr then s.pcapXfer v
  else if b = LVL_COST.adr 0 then s.writeCost m v
  else if m = PKG_CTL.adr then s.writePkg v
  else if m = THERM_CTL.adr then s.storeMin m v THERM_CTL.THROTTLE_C 110
  else if m = AON_ALARM.adr then (s.aonWrite who m v false).1
  else s.plainWrite m h v

/-- A write in the time base's block (R432 to R436). -/
def State.writeTimeReg (s : State) (m : Nat) (h : RegHit) (v : Word) : State :=
  if m = TIME_ADJ.adr then s.correct v
  else if m = TIME_ALARM.adr then s.writeTimeAlarm v
  else if m = TB_CTL.adr then (s.store m v [TB_CTL.STEP_MIN]).setF m TB_CTL.SLEW_PPM (max 1 (min 500 (fget TB_CTL.SLEW_PPM v)))
  else if m = TIME_STATUS.adr && h.alia = .clr then
    let was := s.has m TIME_STATUS.INTERP
    let s := s.plainWrite m h v
    if was && !s.has m TIME_STATUS.INTERP then s.pulse 7168 else s
  else s.plainWrite m h v

/-- A write in the couch engine's registers (R364 to R385). -/
def State.couchReg (s : State) (m : Nat) (h : RegHit) (v : Word) : State :=
  let b := h.row.base
  let off := s.fld CE_STAT.adr CE_STAT.STATE == 0
  let rxOff := !s.has RX_CTL.adr RX_CTL.ENABLE
  if m = CE_CTL.adr then s.writeCeCtl v
  else if m = CE_STAT.adr then (if off then s.plainWrite m h v else s)
  else if m = CE_CMD.adr then
    let s := if fset? CE_CMD.ABORT v then s.epochFail false else s
    if fset? CE_CMD.MARK v then s.mark else s
  else if m = CE_PRE.adr then (if off then (s.store m v [CE_PRE.BASE]).storeMin m v CE_PRE.SLOTS 4096 else s)
  else if m = CE_TIMING.adr then
    s.storeNz m v [CE_TIMING.HB_PERIOD, CE_TIMING.MISS_LIMIT, CE_TIMING.RESEND_LIMIT, CE_TIMING.ACK_TIMEOUT]
  else if b = CE_EXT_SRC.adr 0 then s.writeExtSrc (h.idx.headD 0) v
  else if b = CE_EXT_DST.adr 0 then s.writeExtDst (h.idx.headD 0) v
  else if m = RX_CTL.adr then s.writeRxCtl v
  else if m = RX_STAT.adr || m = RX_IDX.adr || m = RX_WIN.adr then (if rxOff then s.plainWrite m h v else s)
  else if m = RX_LOG.adr then (if rxOff then (s.store m v [RX_LOG.BASE]).storeMin m v RX_LOG.SIZE 1048576 else s)
  else if m = CHAIN_CMD.adr then s.writeChainCmd v
  else s.plainWrite m h v

/-- A write in the couch engine's block, and the check of the group it may have changed (R365). -/
def State.writeCouchReg (s : State) (m : Nat) (h : RegHit) (v : Word) : State := (s.couchReg m h v).groupCheck s

/-- A write in the service block (R442, R444, R454 to R465). -/
def State.writeSvcReg (s : State) (m : Nat) (h : RegHit) (v : Word) : State :=
  if m = SVC_CTL.adr then
    let s := s.store m v [SVC_CTL.FAULT, SVC_CTL.READY]
    let s := if fset? SVC_CTL.HANDOVER v then s.handover else s
    if fset? SVC_CTL.STANDBY_RUN v then s.standbyRun else s.setF m SVC_CTL.STANDBY_RUN 0
  else if m = SVC_XREL.adr then s.svcXrel (fget SVC_XREL.PAGE v) (fget SVC_XREL.COUNT v)
  else if m = FUSE_CMD.adr then s.fuseCmd v
  else if m = SIG_CMD.adr then
    (if s.has m SIG_CMD.GO then s
     else
       let s := s.store m v [SIG_CMD.KIND, SIG_CMD.OP]
       if fset? SIG_CMD.GO v then s.sigStart (fget SIG_CMD.OP v) (fget SIG_CMD.KIND v) [] else s)
  else if m = XSPI_CMD.adr then
    (if s.has m XSPI_CMD.GO then s
     else
       let s := s.store m v [XSPI_CMD.DEV, XSPI_CMD.OP]
       if fset? XSPI_CMD.GO v then s.xspiStart (fget XSPI_CMD.OP v) (fget XSPI_CMD.DEV v) else s)
  else if m = MGMT_IDX.adr then (if fset? MGMT_IDX.TX_KICK v then s.txKick else s)
  else if m = TILE_MOVE.adr then s.tileMove v
  else if m = BB_WR_GO.adr then (if fset? BB_WR_GO.GO v then s.bbWrGo else s)
  else s.plainWrite m h v

/-- A write in the PCIe block or the board interface group (R488 to R493). -/
def State.writePcieReg (s : State) (who : Who) (m : Nat) (h : RegHit) (v : Word) : State :=
  if m = PCIE_CTL.adr then
    let s := s.store m v [PCIE_CTL.ENABLE, PCIE_CTL.EVT_VEC]
    let n := fget PCIE_CTL.BAR0_LOG2 v
    let s := if 30 ≤ n && n ≤ 40 then s.setF m PCIE_CTL.BAR0_LOG2 n else s
    let s := (s.storeUpTo m v PCIE_CTL.MAX_WIDTH 4).storeUpTo m v PCIE_CTL.MAX_RATE 5
    if fset? PCIE_CTL.HOT_RESET v then s.hotReset else s
  else if m = PCIE_MSIX_SEND.adr then s.pcieMsix (fget PCIE_MSIX_SEND.VECTOR v)
  else if m = PCIE_OUT_CMD.adr then
    (if fset? PCIE_OUT_CMD.GO v then s.pcieCmd (fget PCIE_OUT_CMD.KIND v) (fget PCIE_OUT_CMD.SIZE v)
     else if s.has m PCIE_OUT_CMD.GO then s else s.plainWrite m h v)
  else if m = BRD_SMB.adr then (s.aonWrite who m v false).1
  else if m = PMB_CMD.adr then s.pmbCmd v
  else s.plainWrite m h v

/-- Only the service cores may write the register found at `a`: those the table marks, and the whole block of a die
fabric, its handshake window included (R219). -/
def svcWriteOnly (a : Nat) (h : RegHit) : Bool := h.row.svcOnly || (match blkOf a with | .die _ => true | _ => false)

/-- A write by `who` of the register found at `a`: ignored where only the service cores may write it. -/
def State.writeReg (s : State) (who : Who) (a : Nat) (h : RegHit) (v : Word) : State :=
  let m := h.mainAddr a
  if svcWriteOnly a h && !(match who with | .svc _ => true | _ => false) then s
  else
    match winOf a with
    | some w => s.writeWin w m h v
    | none =>
      match blkOf a with
      | .hub => s.writeHubReg who m h v
      | b =>
        if h.alia ≠ .main && b ≠ .time then s.plainWrite m h v
        else match b with
          | .tile p => s.writeTileReg p m h v
          | .die _ => s.writeDieReg m h v
          | .mc d => s.writeMcReg d m h v
          | .link n => s.writeLinkReg n m h v
          | .slice _ => s.writeSliceReg m h v
          | .pwr => s.writePwrReg who m h v
          | .time => s.writeTimeReg m h v
          | .couch => s.writeCouchReg m h v
          | .chain => s.writeCouchReg m h v
          | .svc => s.writeSvcReg m h v
          | .pcie => s.writePcieReg who m h v
          | .brd => s.writePcieReg who m h v
          | _ => s

/-- A write of control space (R38, R290): no responder where it is unassigned, the gate's answer, the outbound PCIe window,
nothing where no register is defined or a replica's is addressed, or the register; crossing 10 may hold a write. -/
def State.ctrlWrite (s : State) (who : Who) (a : Nat) (v : PW) : State × Ans :=
  if blkOf a = .none then (s, .noResp)
  else
    let (s, gs) := s.ctrlGates who a
    match s.enter who true a gs with
    | (s, some r) => (s, r)
    | (s, none) =>
      if blkOf a = .pcie && 0xC0A4000000 ≤ a && a < 0xC0A8000000 then (s.pcieWinWrite (a - 0xC0A0000000) v, .ok)
      else if replicaOf a ≠ a then (s, .ok)
      else
        match regAt a with
        | none => (s, .ok)
        | some h =>
          let mine := !svcWriteOnly a h || (match who with | .svc _ => true | _ => false)
          if aonSetting a && mine then
            (match s.aonWrite who a v.val true with
             | (s, .entered) => (s, .ok)
             | (s, .held) => (s, .held)
             | (s, .away) => (s, .off))
          else (s.writeReg who a h v.val, .ok)

/-! ## Writes as commands, and the remote side -/

/-- A register write as a command: held at a gate in transition it waits its turn (R38, R424). -/
def State.regWrite (s : State) (who : Who) (a : Nat) (v : Word) : State :=
  match s.ctrlWrite who a ⟨v, false⟩ with
  | (s, .held) => { s with ctrlHeld := s.ctrlHeld ++ [⟨who, a, v⟩] }
  | (s, _) => s

/-- Held register writes are asked again, in order. -/
def State.ctrlRetry (s : State) : State :=
  let l := s.ctrlHeld
  l.foldl (fun s w => s.regWrite w.who w.addr w.value) { s with ctrlHeld := [] }

/-- Whether some RT_CTRLF entry admits a CTRL request from device `src` (R347). -/
def State.ctrlAdmits (s : State) (src : Nat) (write : Bool) : Bool :=
  (numsFrom 0 8).any fun k =>
    let w := s.rd (RT_CTRLF.adr k)
    fset? RT_CTRLF.VALID w && (src ^^^ fget RT_CTRLF.DEVICE w) &&& fget RT_CTRLF.MASK w == 0
      && (if write then fset? RT_CTRLF.WRITE w else fset? RT_CTRLF.READ w)

/-- CTRL at slice `i` (R343, R347): admitted by the filter and performed, or refused; a poisoned write is refused
(R242). -/
def State.ctrlAt (s : State) (i : Nat) (p : Packet) : State :=
  s.serve i p fun s p =>
    let write := nbit 0 (bytesAt p.body 8 1)
    let a := p.addr
    if !s.ctrlAdmits p.src write || regionOf (pktWho p) a ≠ .ctrl || a % 8 ≠ 0 || (write && p.mask.any id) then
      s.refuseReq i p
    else if write then
      (match s.ctrlWrite (pktWho p) a ⟨BitVec.ofNat 64 (bytesAt p.data 0 8), false⟩ with
       | (s, .held) => s.putWait (RtPkt.new i 0 p)
       | (s, e) => s.reportReq i i p e)
    else
      match s.ctrlRead (pktWho p) a with
      | (s, .held, _) => s.putWait (RtPkt.new i 0 p)
      | (s, .ok, v) => s.inject i (responseTo p 0 (toBytes 8 v.val.toNat) [v.poison, v.poison])
      | (s, e, _) => s.reportReq i i p e

end Sys2Proof.Machine
end

