-- ==== Sys2Proof/Machine/SysRegs.lean ====
section
/-!
DEFINITION. System registers of a core (R92 and the tables under it; spec/04 FPMODE and FPSTAT; spec/06 CORE_CTL and
the performance counters; spec/07 the extent TLB): what SYS.MF reads, what SYS.MT stores, the ETLB commands (R197,
R201 to R204), and the counting of events (R190).
-/

namespace Sys2Proof.Machine

/-! ## Fields -/

/-- STATUS.PL. -/
def fPL : Fld := ⟨1, 0⟩
/-- STATUS.IE. -/
def fIE : Fld := ⟨2, 2⟩
/-- STATUS.SPIE. -/
def fSPIE : Fld := ⟨4, 4⟩
/-- STATUS.SPPL. -/
def fSPPL : Fld := ⟨5, 5⟩
/-- STATUS.MPIE. -/
def fMPIE : Fld := ⟨8, 8⟩
/-- STATUS.MPPL. -/
def fMPPL : Fld := ⟨10, 9⟩
/-- STATUS.XLATE. -/
def fXLATE : Fld := ⟨11, 11⟩
/-- STATUS.VDIRTY. -/
def fVDIRTY : Fld := ⟨14, 14⟩
/-- STATUS.RDIRTY. -/
def fRDIRTY : Fld := ⟨15, 15⟩
/-- ETLB_INDEX.INDEX. -/
def fINDEX : Fld := ⟨5, 0⟩
/-- ETLB_INDEX.CMD. -/
def fCMD : Fld := ⟨14, 12⟩
/-- ETLB_INDEX.WIRED. -/
def fWIRED : Fld := ⟨21, 16⟩
/-- ETLB_INDEX.NEXT. -/
def fNEXT : Fld := ⟨29, 24⟩
/-- ETLB_INDEX.MISS. -/
def fMISS : Fld := ⟨63, 63⟩
/-- ETLB_HI.VPN, ETLB_LO.PPN. -/
def fVPN : Fld := ⟨55, 16⟩
/-- ETLB_HI.SIZE. -/
def fSIZE : Fld := ⟨15, 12⟩
/-- ETLB_HI.ASID. -/
def fASID : Fld := ⟨7, 0⟩
/-- ETLB_LO.ATTR. -/
def fATTR : Fld := ⟨11, 10⟩
/-- ETLB_LO.G. -/
def fG : Fld := ⟨9, 9⟩
/-- ETLB_LO.V. -/
def fV : Fld := ⟨8, 8⟩

/-- The current level: 0 user, 1 supervisor, 2 monitor (R82). -/
def Core.pl (k : Core) : Nat := k.sf 0x010 fPL

/-- FPMODE as the floating-point operations use it. -/
def Core.fenv (k : Core) : FEnv :=
  { rm := k.sf 0x030 ⟨2, 0⟩, dn := k.sf 0x030 ⟨4, 4⟩ == 1, cvtz := k.sf 0x030 ⟨5, 5⟩ == 1 }

/-! ## SYS.MF -/

/-- CORE_ID of core `c`: a service core has no physical and no logical number and reads 0 in both; the LOGICAL_CORE of
a core whose position serves no slot is a free value. -/
def State.coreId (s : State) (c : Nat) : Word :=
  let phys := match s.coreTile c with
    | some p => p * 16 + c % 16
    | none => 0
  let logical := if c < 2048 then c else (Config.spareLogical c).toNat
  BitVec.ofNat 64 (s.coreDevice * 2 ^ 48 + (if ofTile c then phys * 2 ^ 32 + logical else 0))

/-- What SYS.MF of register `n` returns on core `c` (R92, R134). -/
def State.sysRead (s : State) (c n : Nat) : Word :=
  if n = 0x000 then s.coreId c
  else if n = 0x001 then 0x02000000FF0840E0
  else if n = 0x002 then 0x4046404210204000
  else if n = 0x003 then 0x3838280000001FFF
  else if n = 0x004 then s.feat3
  else if n = 0x060 then s.clock.gt
  else (s.core c).sysRd n

/-! ## The extent TLB (R197 to R204) -/

/-- ETLB entry `i`. -/
def Core.tlb (k : Core) (i : Nat) : TlbEntry := k.etlb.get ⟨0, 0⟩ i

/-- `k` with ETLB entry `i` replaced. -/
def Core.setTlb (k : Core) (i : Nat) (e : TlbEntry) : Core := { k with etlb := k.etlb.put ⟨0, 0⟩ i e }

/-- log2 of an entry's page size. -/
def TlbEntry.n (e : TlbEntry) : Nat := 16 + 2 * fget fSIZE e.hi

/-- The entry is valid. -/
def TlbEntry.valid (e : TlbEntry) : Bool := fset? fV e.lo

/-- An entry matches a virtual address under an address space (R197). -/
def TlbEntry.hit (e : TlbEntry) (asid va : Nat) : Bool :=
  e.valid && (nbits 55 e.n va == nbits 55 e.n e.hi.toNat) && (fset? fG e.lo || fget fASID e.hi == asid)

/-- The entry with V = 0. -/
def TlbEntry.off (e : TlbEntry) : TlbEntry := ⟨e.hi, fput fV 0 e.lo⟩

/-- Two entries' ranges overlap and they would match under one address space (R202). -/
def TlbEntry.clash (a b : TlbEntry) : Bool :=
  let n := max a.n b.n
  nbits 55 n a.hi.toNat == nbits 55 n b.hi.toNat
    && (fset? fG a.lo || fset? fG b.lo || fget fASID a.hi == fget fASID b.hi)

/-- The entry of core `k` that matches `va` in the current address space. -/
def Core.tlbFind (k : Core) (va : Nat) : Option Nat :=
  (numsFrom 0 64).find? fun i => (k.tlb i).hit (k.sf 0x051 fASID) va

/-- Every entry that satisfies `f` gets V = 0. -/
def Core.tlbDrop (k : Core) (f : Nat → TlbEntry → Bool) : Core :=
  (numsFrom 0 64).foldl (fun k i => if f i (k.tlb i) then k.setTlb i (k.tlb i).off else k) k

/-- NEXT advances after a WRITE whose INDEX equals it (R203). -/
def Core.tlbNext (k : Core) (i : Nat) : Core :=
  if k.sf 0x050 fNEXT = i then k.setSf 0x050 fNEXT (if i = 63 then k.sf 0x050 fWIRED else i + 1) else k

/-- Command WRITE into entry `i` (R201, R202). -/
def Core.tlbWrite (k : Core) (i : Nat) : Core :=
  let hi := k.sysRd 0x051
  let e : TlbEntry := ⟨hi, if 13 ≤ fget fSIZE hi then fput fV 0 (k.sysRd 0x052) else k.sysRd 0x052⟩
  let k := if e.valid then k.tlbDrop fun j o => j != i && o.valid && o.clash e else k
  (k.setTlb i e).tlbNext i

/-- The ETLB command `cmd` with the present INDEX (R201). -/
def Core.tlbCmd (k : Core) (cmd : Nat) : Core :=
  let i := k.sf 0x050 fINDEX
  match cmd with
  | 1 => (k.sysWr 0x051 (k.tlb i).hi).sysWr 0x052 (k.tlb i).lo
  | 2 => k.tlbWrite i
  | 3 =>
    (match k.tlbFind (k.sf 0x051 fVPN * 2 ^ 16) with
     | some j => (k.setSf 0x050 fINDEX j).setSf 0x050 fMISS 0
     | none => k.setSf 0x050 fMISS 1)
  | 4 => k.setTlb i (k.tlb i).off
  | 5 => k.tlbDrop fun _ _ => true
  | 6 => k.tlbDrop fun _ e => !fset? fG e.lo && fget fASID e.hi == k.sf 0x051 fASID
  | 7 =>
    let f (ls : List CLine) : List CLine := ls.filter fun l => !l.priv
    { k.mapFills f with l1d := f k.l1d }
  | _ => k

/-- A SYS.MT to ETLB_INDEX: INDEX and WIRED are stored, then the command runs (R201, R203). -/
def Core.writeIndex (k : Core) (v : Word) : Core :=
  let k := (k.setSf 0x050 fINDEX (fget fINDEX v)).setSf 0x050 fWIRED (fget fWIRED v)
  let k := if k.sf 0x050 fNEXT < fget fWIRED v then k.setSf 0x050 fNEXT (fget fWIRED v) else k
  k.tlbCmd (fget fCMD v)

/-! ## SYS.MT -/

/-- The listed fields of register `n` take their values from `v`. -/
def Core.storeSf (k : Core) (n : Nat) (v : Word) (fs : List Fld) : Core :=
  fs.foldl (fun k f => k.setSf n f (fget f v)) k

/-- A SYS.MT to STATUS at level `pl` (R93): MPPL and MPIE only at monitor level, 3 stored as 2. -/
def Core.writeStatus (k : Core) (pl : Nat) (v : Word) : Core :=
  let k := k.storeSf 0x010 v [fRDIRTY, fVDIRTY, fXLATE, fSPPL, fSPIE, fIE]
  if pl = 2 then (k.setSf 0x010 fMPPL (min 2 (fget fMPPL v))).storeSf 0x010 v [fMPIE] else k

/-- The bits of registers that SYS.MT stores as they are (their RW fields). -/
def sysMask (n : Nat) : Word :=
  if n = 0x011 || n = 0x020 then 0xFFFFFFFFFFFFFFFC
  else if n = 0x012 || n = 0x021 then 0x8000000000007FFF
  else if n = 0x014 || n = 0x023 then 0x00000000FFFFFFFF
  else if n = 0x015 || n = 0x024 then 0xFFFFFFFFFFFFF800
  else if n = 0x017 then 0xFFFFFFFFFFFFFFC7
  else if n = 0x026 then 0x000000000003FFFE
  else if n = 0x031 then 0x000000000000001F
  else if n = 0x040 then 0x0000000000000005
  else if n = 0x051 then 0x00FFFFFFFFFFF0FF
  else if n = 0x052 then 0x00FFFFFFFFFF0F77
  else 0xFFFFFFFFFFFFFFFF

/-- What SYS.MT of `v` to register `n` does at level `pl` (R92, R93, R134). -/
def Core.sysWrite (k : Core) (pl n : Nat) (v : Word) : Core :=
  if n = 0x010 then k.writeStatus pl v
  else if n = 0x030 then
    let k := k.storeSf 0x030 v [⟨5, 5⟩, ⟨4, 4⟩]
    if fget ⟨2, 0⟩ v ≤ 4 then k.storeSf 0x030 v [⟨2, 0⟩] else k
  else if n = 0x050 then k.writeIndex v
  else if 0x070 ≤ n && n ≤ 0x077 then
    let k := k.storeSf n v [⟨31, 31⟩, ⟨30, 30⟩, ⟨24, 24⟩, ⟨23, 23⟩, ⟨22, 22⟩, ⟨21, 21⟩, ⟨7, 0⟩]
    if fget ⟨27, 26⟩ v = 3 then k else k.storeSf n v [⟨27, 26⟩]
  else
    let k := k.sysWr n (v &&& sysMask n)
    if n = 0x040 && v.getLsbD 4 then { k with pred := Pred.clear } else k

/-! ## Performance counters (R190 to R192) -/

/-- Whether counter `i` counts event `e` of a bundle at level `pl`, committed or on a wrong path. -/
def Core.counts (k : Core) (i pl e : Nat) (wrong : Bool) : Bool :=
  let w := k.sysRd (0x070 + i)
  let path := fget ⟨27, 26⟩ w
  w.getLsbD 21 && w.getLsbD (22 + pl) && fget ⟨7, 0⟩ w == e && (path == 2 || (path == 1) == wrong)

/-- Counter `i` advances by `n`; wrapping sets OVF. -/
def Core.advance (k : Core) (i n : Nat) : Core :=
  let v := (k.sysRd (0x078 + i)).toNat + n
  let k := k.sysWr (0x078 + i) (BitVec.ofNat 64 v)
  if 2 ^ 64 ≤ v then k.setSf (0x070 + i) ⟨31, 31⟩ 1 else k

/-- The events `(number, count)` of a bundle at level `pl` are counted, but for counter `skip` (R192). -/
def Core.countAll (k : Core) (pl : Nat) (wrong : Bool) (skip : Option Nat) (evs : List (Nat × Nat)) : Core :=
  evs.foldl (fun k e => (numsFrom 0 8).foldl (fun k i =>
    if k.counts i pl e.1 wrong && skip != some i then k.advance i e.2 else k) k) k

/-! ## Trap entry and return (R88 to R90) -/

/-- The level a synchronous trap or an interrupt is taken to (R88): `route` is its bit of TRAP_ROUTE. -/
def Core.trapLevel (k : Core) (route : Nat) (mtrap : Bool) : Nat :=
  if k.pl = 2 || mtrap || (k.sysRd 0x026).getLsbD route then 2 else 1

/-- Trap entry at level `lv` (R89): the saved registers of that level, STATUS, and the handler's address. -/
def Core.enterTrap (k : Core) (lv : Nat) (epc : Word) (int : Bool) (code blen slot : Nat) (badaddr badsyl : Word) : Core :=
  let b := if lv = 2 then 0x020 else 0x011
  let pl := k.pl
  let ie := k.sf 0x010 fIE
  let vec := k.sysRd (b + 4)
  let k := k.sysWr b (epc &&& 0xFFFFFFFFFFFFFFFC#64)
  let k := k.sysWr (b + 1) (BitVec.ofNat 64 (b2n int * 2 ^ 63 + slot * 2 ^ 12 + blen * 2 ^ 8 + code))
  let k := (k.sysWr (b + 2) badaddr).sysWr (b + 3) badsyl
  let k := if lv = 2 then (k.setSf 0x010 fMPIE ie).setSf 0x010 fMPPL pl
           else (k.setSf 0x010 fSPIE ie).setSf 0x010 fSPPL pl
  let k := (k.setSf 0x010 fPL lv).setSf 0x010 fIE 0
  { k with pc := vec + (if int then 0x400 else 0) }

/-- ERET (R90). -/
def Core.eret (k : Core) : Core :=
  if k.pl = 2 then
    let pl := k.sf 0x010 fMPPL
    let ie := k.sf 0x010 fMPIE
    let k : Core := { k with pc := k.sysRd 0x020 }
    (((k.setSf 0x010 fPL pl).setSf 0x010 fIE ie).setSf 0x010 fMPIE 1).setSf 0x010 fMPPL 0
  else
    let pl := k.sf 0x010 fSPPL
    let ie := k.sf 0x010 fSPIE
    let k : Core := { k with pc := k.sysRd 0x011 }
    (((k.setSf 0x010 fPL pl).setSf 0x010 fIE ie).setSf 0x010 fSPIE 1).setSf 0x010 fSPPL 0

end Sys2Proof.Machine
end

