-- ==== Sys2Proof/Machine/Predict.lean ====
section
/-!
DEFINITION. Control transfers and their prediction (spec/04 R116; spec/06 R167 to R171, R179): where a bundle goes,
what is predicted for it, and the training of the predictor.  Prediction changes timing only: what a bundle does never
depends on it.  Counter thresholds and the trigger of a tagged entry's allocation are assumption log entry 24.
-/

namespace Sys2Proof.Machine

/-! ## Transfers -/

/-- The B syllable of a bundle. -/
def bOf (ys : List Syl) : Option Op := (ys.find? fun y => y.u == 6).map Syl.op

/-- The kind of a transfer (R167): 0 conditional, 1 direct, 2 indirect, 3 return. -/
def Op.transfer : Op → Option Nat
  | .bz _ _ _ => some 0
  | .br _ => some 1
  | .call _ => some 1
  | .jr _ => some 2
  | .callr _ _ => some 2
  | .ret _ => some 3
  | _ => none

/-- The transfer writes a return address. -/
def Op.isCall : Op → Bool
  | .call _ => true
  | .callr _ _ => true
  | _ => false

/-- The address behind a bundle (R75). -/
def behind (a : Word) (ys : List Syl) : Word := a + BitVec.ofNat 64 (4 * ys.length)

/-- The target that BR, CALL, BZ and BNZ compute (R75, R116); `d` for any other operation. -/
def Op.dest (a d : Word) : Op → Word
  | .br i => a + 4 * i.signExtend 64
  | .call i => a + 4 * i.signExtend 64
  | .bz _ _ i => a + 4 * i.signExtend 64
  | _ => d

/-! ## Prediction -/

/-- History length of tagged table `t` (R168). -/
def histLen (t : Nat) : Nat := ([8, 20, 48, 112, 256] : List Nat).getD t 0

/-- The place of a bundle in tagged table `t` under a history. -/
def tagIndex (a : Word) (hist : List Bool) (t : Nat) : Nat :=
  t * 2048 + Config.predIndex t a (hist.take (histLen t)) % 2048

/-- The tag of a bundle in tagged table `t`. -/
def tagOf (a : Word) (hist : List Bool) (t : Nat) : Nat := Config.predTag t a (hist.take (histLen t)) % 1024

/-- A cleared tagged entry.  The spec gives an entry no valid bit: an entry that holds nothing but zeros is taken as
absent and matches no bundle (assumption log entry 24). -/
def TagEntry.zero : TagEntry := ⟨0, 0, 0⟩

/-- The matching tagged entry with the longest history. -/
def Pred.tagged? (p : Pred) (a : Word) (hist : List Bool) : Option Nat :=
  ([4, 3, 2, 1, 0] : List Nat).findSome? fun t =>
    let k := tagIndex a hist t
    if (p.tagged.any fun e => e.1 == k) && (p.tagged.get TagEntry.zero k).tag == tagOf a hist t then some k else none

/-- The predicted direction of a conditional branch (R168). -/
def Pred.dir (p : Pred) (a : Word) (hist : List Bool) : Bool :=
  match p.tagged? a hist with
  | some k => 4 ≤ (p.tagged.get TagEntry.zero k).ctr
  | none => 2 ≤ p.base.get 0 (nbits 15 2 a.toNat)

/-- The target buffer's entry for a bundle (R169). -/
def Pred.target? (p : Pred) (a : Word) : Option BtbEntry :=
  p.btb.find? fun e => e.set == nbits 11 2 a.toNat && e.tag == nbits 23 12 a.toNat

/-- A lookup that finds an entry makes it its set's most recently used (R169). -/
def Pred.useTarget (p : Pred) : Option BtbEntry → Pred
  | some e => { p with btb := e :: p.btb.filter fun o => !(o.set == e.set && o.tag == e.tag) }
  | none => p

/-- Push a return address (R170). -/
def Pred.pushRet (p : Pred) (r : Word) : Pred := { p with ras := p.ras.put 0 p.top r, top := (p.top + 1) % 32 }

/-- Record an outcome in the global history (R168). -/
def Pred.record (p : Pred) (taken : Bool) : Pred := { p with hist := (taken :: p.hist).take 256 }

/-- The predictor behind its prediction for a bundle at `a`, and the prediction (R167 to R170). The saved top is the
one the bundle's own push or pop leaves. -/
def Pred.predict (p : Pred) (a : Word) (ys : List Syl) : Pred × Predn :=
  let n := behind a ys
  let e := p.target? a
  let at_ (d : Word) : Word := match e with | some e => e.target | none => d
  match bOf ys with
  | none => (p, ⟨n, false, false, p.hist, p.top⟩)
  | some o =>
    match o.transfer with
    | none => (p, ⟨n, false, false, p.hist, p.top⟩)
    | some kind =>
    let q := p.useTarget e
    match kind with
    | 0 =>
      let d := p.dir a p.hist
      (q.record d, ⟨if d then at_ (o.dest a n) else n, d, e.isSome, p.hist, p.top⟩)
    | 3 =>
      let top := (p.top + 31) % 32
      ({ q with top := top }, ⟨p.ras.get 0 top, true, e.isSome, p.hist, top⟩)
    | _ =>
      let q := if o.isCall then q.pushRet n else q
      (q, ⟨at_ (o.dest a n), true, e.isSome, p.hist, q.top⟩)

/-! ## Training (R171) -/

/-- A saturating counter up to `top` moves towards an outcome. -/
def towards (top : Nat) (up : Bool) (n : Nat) : Nat := if up then min top (n + 1) else n - 1

/-- The direction counters take an outcome.  A usefulness counter keeps what allocation gave it: R168 names no event
that changes it (assumption log entry 24).  `free` decides whether an entry is allocated, in which table, and with
which counters. -/
def Pred.trainDir (p : Pred) (a : Word) (hist : List Bool) (taken : Bool) (free : Word) : Pred :=
  let p := match p.tagged? a hist with
    | some k =>
      let e := p.tagged.get TagEntry.zero k
      { p with tagged := p.tagged.put TagEntry.zero k { e with ctr := towards 7 taken e.ctr } }
    | none =>
      let k := nbits 15 2 a.toNat
      { p with base := p.base.put 0 k (towards 3 taken (p.base.get 0 k)) }
  let t := free.toNat % 6
  if t = 5 then p
  else
    let e : TagEntry := ⟨tagOf a hist t, free.toNat / 8 % 8, free.toNat / 64 % 4⟩
    { p with tagged := p.tagged.put TagEntry.zero (tagIndex a hist t) e }

/-- Keep at most `n` entries of a set. -/
def keepWays (set : Nat) : Nat → List BtbEntry → List BtbEntry
  | _, [] => []
  | 0, e :: r => if e.set = set then keepWays set 0 r else e :: keepWays set 0 r
  | n + 1, e :: r => if e.set = set then e :: keepWays set n r else e :: keepWays set (n + 1) r

/-- A taken transfer enters the target buffer as its set's most recently used entry (R169). -/
def Pred.trainTarget (p : Pred) (a : Word) (kind : Nat) (target : Word) : Pred :=
  let e : BtbEntry := ⟨nbits 11 2 a.toNat, nbits 23 12 a.toNat, target, kind⟩
  { p with btb := keepWays e.set 4 (e :: p.btb.filter fun o => !(o.set == e.set && o.tag == e.tag)) }

/-- Train the predictor on a resolved transfer. -/
def Pred.train (p : Pred) (a : Word) (kind : Nat) (pr : Predn) (taken : Bool) (target free : Word) : Pred :=
  let p := if kind = 0 then p.trainDir a pr.hist taken free else p
  if taken then p.trainTarget a kind target else p

/-- The events of a resolved transfer (R190): a mispredict by its kind, and a taken transfer that missed the buffer. -/
def transferEvents (kind : Nat) (pr : Predn) (taken : Bool) (next : Word) : List (Nat × Nat) :=
  let wrong :=
    if kind = 0 && pr.taken != taken then [(0x05, 1)]
    else if pr.next = next then []
    else if kind = 3 then [(0x07, 1)]
    else [(0x06, 1)]
  let miss := if taken && !pr.hit then [(0x08, 1)] else []
  let cond := if kind = 0 then [(0x04, 1)] else []
  [(0x03, 1)] ++ cond ++ wrong ++ miss

end Sys2Proof.Machine
end

