-- ==== Sys2Proof/Machine/CoreAccess.lean ====
section
/-!
DEFINITION. What a bundle asks of memory, and the checks before it acts: register reads, effective addresses (R107),
translation (R196 to R199), the trap causes of R85 in their order, and the accesses a syllable makes (R108, R109,
R156).
-/

namespace Sys2Proof.Machine

/-! ## Register reads -/

/-- General register `r`; g0 reads 0 (R64). -/
def Core.rg (k : Core) (r : RegNo) : PW := if r = 0 then ⟨0, false⟩ else k.g[r.toNat]'r.isLt

/-- A second operand. -/
def Core.sv (k : Core) : Src → PW
  | .reg r => k.rg r
  | .imm i => ⟨i.signExtend 64, false⟩

/-- Vector register of a field. -/
def Core.vr (k : Core) (r : RegNo) : VReg := k.v[r.toNat % 32]'(Nat.mod_lt _ (by decide))

/-- Accumulator of a field. -/
def Core.ac (k : Core) (r : RegNo) : Ream := k.acc[r.toNat % 4]'(Nat.mod_lt _ (by decide))

/-! ## Effective addresses -/

/-- What an access needs of its page (R198). -/
inductive Want where
  | fetch | load | store | amo
deriving DecidableEq, Repr

/-- Bytes of a load. -/
def LdK.size : LdK → Nat
  | .ld8 => 1 | .ld8u => 1 | .ld16 => 2 | .ld16u => 2 | .ld32 => 4 | .ld32u => 4 | .ld64 => 8

/-- Bytes of a store. -/
def StK.size : StK → Nat
  | .st8 => 1 | .st16 => 2 | .st32 => 4 | .st64 => 8

/-- A data access: what it needs, its address and extent, whether it is an LD64 or ST64, and whether it is RM.LD or
RM.ST. -/
structure Ext where
  want : Want
  ea : Word
  n : Nat
  word : Bool
  ream : Bool
deriving DecidableEq, Repr

/-- ea := wrap(a + b) (R107). -/
def Core.ea (k : Core) (a : RegNo) (b : Src) : Word := (k.rg a).val + (k.sv b).val

/-- The data access of a syllable (R107, R108, R111, R156). -/
def Core.ext (k : Core) : Op → Option Ext
  | .ld o _ a b => some ⟨.load, k.ea a b, o.size, o == .ld64, false⟩
  | .st o _ a b => some ⟨.store, k.ea a b, o.size, o == .st64, false⟩
  | .vld _ a b => some ⟨.load, k.ea a b, 64, false, false⟩
  | .vst _ a b => some ⟨.store, k.ea a b, 64, false, false⟩
  | .amo _ _ a _ => some ⟨.amo, (k.rg a).val, 8, false, false⟩
  | .rmLd _ a => some ⟨.load, (k.rg a).val, 552, false, true⟩
  | .rmSt d a => some ⟨.store, (k.rg a).val, (k.ac d).bytes.length, false, true⟩
  | _ => none

/-- The parts of an access by line (R109): the address presented and the bytes. -/
def vparts (ea : Word) (n : Nat) : List (Word × Nat) :=
  (lineParts 12 ea.toNat n).map fun p => (BitVec.ofNat 64 p.1, p.2)

/-! ## Translation (R83, R196 to R199) -/

/-- Bits [63:56] equal bit 55 (R196). -/
def canonical (va : Word) : Bool := nbits 63 56 va.toNat == (if nbit 55 va.toNat then 255 else 0)

/-- The global physical address of `va` and the ETLB_LO of the entry that gives it; no entry is needed at monitor
level or with XLATE = 0. -/
def Core.walk (k : Core) (va : Word) : Option (Nat × Option Word) :=
  if !canonical va then none
  else if k.pl = 2 || k.sf 0x010 fXLATE = 0 then some (va.toNat % 2 ^ 56, none)
  else
    (k.tlbFind va.toNat).map fun i =>
      let e := k.tlb i
      (nbits 55 e.n e.lo.toNat * 2 ^ e.n + va.toNat % 2 ^ e.n, some e.lo)

/-- The entry grants the access at the core's level (R198). -/
def Core.grants (k : Core) (w : Want) : Option Word → Bool
  | none => true
  | some lo =>
    let b (i : Nat) : Bool := lo.getLsbD (i + if k.pl = 0 then 0 else 4)
    match w with
    | .fetch => b 2
    | .load => b 0
    | .store => b 1
    | .amo => b 0 && b 1

/-- The attribute of local DRAM under an entry (R199): 0 cacheable, 1 uncached, 2 cacheable and private. -/
def attrOf : Option Word → Nat
  | none => 0
  | some lo => if fget fATTR lo = 3 then 1 else fget fATTR lo

/-- The region of a global address, seen from core `c`; another device has no service memories. -/
def State.region (s : State) (c ga : Nat) : Region :=
  regionOf (if s.isLocal ga then coreWho c else .remote 0 0) (ga % 2 ^ 40)

/-! ## Traps -/

/-- A trap: its code, BADADDR, the syllable (none for a fetch cause), and whether MTRAP raised it. -/
structure Trap where
  code : Nat
  bad : Word
  slot : Option Nat
  mtrap : Bool
deriving DecidableEq, Repr

/-- A trap of syllable `i`. -/
def Trap.at_ (i code : Nat) (bad : Word) : Trap := ⟨code, bad, some i, false⟩

/-- The first cause of a list. -/
def firstOf : List (Option Trap) → Option Trap
  | [] => none
  | some t :: _ => some t
  | none :: r => firstOf r

/-- A trap where a condition holds. -/
def Trap.if_ (c : Bool) (t : Trap) : Option Trap := if c then some t else none

/-! ## Row 8a: poison that bites (R242) -/

/-- A poisoned operand of a syllable is used as an address, a decision or system-register data. -/
def Core.bites (k : Core) : Op → Bool
  | .alu .csel _ a _ => (k.rg a).poison
  | .ld _ _ a b => (k.rg a).poison || (k.sv b).poison
  | .st _ _ a b => (k.rg a).poison || (k.sv b).poison
  | .vld _ a b => (k.rg a).poison || (k.sv b).poison
  | .vst _ a b => (k.rg a).poison || (k.sv b).poison
  | .amo _ _ a _ => (k.rg a).poison
  | .rmLd _ a => (k.rg a).poison
  | .rmSt _ a => (k.rg a).poison
  | .jr a => (k.rg a).poison
  | .callr _ a => (k.rg a).poison
  | .ret a => (k.rg a).poison
  | .bz _ d _ => (k.rg d).poison
  | .sleep _ a => (k.rg a).poison
  | .epoch _ a => (k.rg a).poison
  | .mt d _ => (k.rg d).poison
  | .iflushRange a b => (k.rg a).poison || (k.rg b).poison
  | _ => false

/-- The data of a store carries poison that bites at control space (R242).  The data of RM.ST does not: an accumulator's
poison never traps (R148, R154). -/
def Core.poisonedData (k : Core) : Op → Bool
  | .st _ d _ _ => (k.rg d).poison
  | .vst d _ _ => (k.vr d).poison != 0
  | _ => false

/-- Poisoned data of a write to local control space. -/
def State.ctrlPoison (s : State) (c : Nat) (k : Core) (op : Op) : Bool :=
  match k.ext op with
  | none => false
  | some x => k.poisonedData op && (vparts x.ea x.n).any fun p =>
      match k.walk p.1 with
      | some r => s.isLocal r.1 && s.region c r.1 == .ctrl
      | none => false

/-! ## Rows 8b to 8e -/

/-- The target of an indirect jump. -/
def Core.jump? (k : Core) : Op → Option Word
  | .jr a => some (k.rg a).val
  | .callr _ a => some (k.rg a).val
  | .ret a => some (k.rg a).val
  | _ => none

/-- Row 8b: a misaligned atomic or jump target (R75, R111). -/
def Core.misaligned (k : Core) (i : Nat) (op : Op) : Option Trap :=
  match k.jump? op with
  | some t => Trap.if_ (t.toNat % 4 != 0) (.at_ i 0x04 t)
  | none =>
    match op with
    | .amo _ _ a _ => Trap.if_ ((k.rg a).val.toNat % 8 != 0) (.at_ i 0x04 (k.rg a).val)
    | _ => none

/-- Row 8c: a part has no entry. -/
def Core.missing (k : Core) (i : Nat) (x : Ext) : Option Trap :=
  ((vparts x.ea x.n).find? fun p => (k.walk p.1).isNone).map fun p =>
    .at_ i (if x.want = .load then 0x06 else 0x07) p.1

/-- Row 8d, first: an entry forbids the access. -/
def Core.denied (k : Core) (i : Nat) (x : Ext) : Option Trap :=
  ((vparts x.ea x.n).find? fun p => match k.walk p.1 with | some r => !k.grants x.want r.2 | none => false).map fun p =>
    .at_ i 0x08 p.1

/-- The parts of an access with the global addresses and attributes they reach. -/
def Core.gparts (k : Core) (x : Ext) : List (Word × Nat × Nat × Nat) :=
  (vparts x.ea x.n).filterMap fun p => (k.walk p.1).map fun r => (p.1, r.1, p.2, attrOf r.2)

/-- Row 8d, second: MISALIGNED on the physical address (R109, R156, R264): two devices or two regions at ea, then an
access to control space, or by other than the atomics and the ream syllables to a queue window, that is not an aligned
LD64 or ST64. -/
def State.physMisaligned (s : State) (c : Nat) (k : Core) (i : Nat) (x : Ext) : Option Trap :=
  let ps := (k.gparts x).map fun p => (p.1, s.region c p.2.1, p.2.1 / 2 ^ 40)
  let real := ps.filter fun p => p.2.1 != .none
  let odd := !(x.word && x.ea.toNat % 8 == 0)
  let two := (ps.any fun p => ps.any fun q => p.2.2 != q.2.2) || (real.any fun p => real.any fun q => p.2.1 != q.2.1)
  if two then some (.at_ i 0x04 x.ea)
  else if odd then
    (ps.find? fun p => p.2.1 == .ctrl || (p.2.1 == .queue && x.want != .amo && !x.ream)).map fun p => .at_ i 0x04 p.1
  else none

/-- Row 8e: a part overlaps the watched line (R87). -/
def Core.watched (k : Core) (i : Nat) (x : Ext) : Option Trap :=
  let w := k.sysRd 0x017
  let on := match x.want with
    | .load => w.getLsbD 0
    | .store => w.getLsbD 1
    | .amo => w.getLsbD 0 || w.getLsbD 1
    | .fetch => false
  if k.pl = 2 || !on then none
  else ((vparts x.ea x.n).find? fun p => p.1.toNat / 64 == w.toNat / 64).map fun p => .at_ i 0x0F p.1

/-- Rows 8b to 8e of a data access. -/
def State.accessCause (s : State) (c : Nat) (k : Core) (i : Nat) (x : Ext) : Option Trap :=
  firstOf [k.missing i x, k.denied i x, s.physMisaligned c k i x, k.watched i x]

/-- Row 8g: TRAP and MTRAP (R135). -/
def trapOp (i : Nat) : Op → Option Trap
  | .trap brk _ => some ⟨if brk then 0x0D else 0x0E, 0, some i, false⟩
  | .mtrap _ => some ⟨0x0E, 0, some i, true⟩
  | _ => none

/-- Row 8 of one syllable, but for 8f. -/
def State.sylCause (s : State) (c : Nat) (k : Core) (i : Nat) (op : Op) : Option Trap :=
  firstOf [Trap.if_ (k.bites op || s.ctrlPoison c k op) (.at_ i 0x09 0), k.misaligned i op,
           (match k.ext op with | some x => s.accessCause c k i x | none => none), trapOp i op]

/-! ## Rows 1 to 7 -/

/-- A bundle may be fetched from a global address (R164, R453, R454): DRAM, scratchpad and the boot flash window of
this device; for a service core also the boot ROM and the executable pages of service SRAM. -/
def State.fetchable (s : State) (c ga : Nat) : Bool :=
  s.isLocal ga && (match s.region c ga with
    | .dram => true
    | .scratch => true
    | .flash => true
    | .rom => true
    | .sram => s.svcPageX (ga % 2 ^ 40 - 0xF000000000)
    | _ => false)

/-- Rows 1 and 2 of the syllable at `va`. -/
def State.fetchCause (s : State) (c : Nat) (k : Core) (va : Word) : Option (Nat × Word) :=
  match k.walk va with
  | none => some (0x05, va)
  | some r => if k.grants .fetch r.2 && s.fetchable c r.1 then none else some (0x08, va)

/-- Rows 1 and 2 of `n` syllables from `a`. -/
def State.fetchFault (s : State) (c : Nat) (k : Core) (a : Word) (n : Nat) : Option (Nat × Word) :=
  (numsFrom 0 n).findSome? fun i => s.fetchCause c k (a + BitVec.ofNat 64 (4 * i))

/-- Row 4: a syllable lies in the watched line (R87). -/
def Core.watchFetch (k : Core) (a : Word) (n : Nat) : Bool :=
  let w := k.sysRd 0x017
  k.pl != 2 && w.getLsbD 2 && (numsFrom 0 n).any fun i => (a + BitVec.ofNat 64 (4 * i)).toNat / 64 == w.toNat / 64

/-- Row 7: a syllable beyond the level (R80, R82, R92). -/
def beyond (pl : Nat) : Op → Bool
  | .mf _ n => (match sysAccess n.toNat with | some x => accessAt pl x == 0 | none => true)
  | .mt _ n => (match sysAccess n.toNat with | some x => accessAt pl x != 2 | none => true)
  | .eret => pl == 0
  | .mtrap _ => pl == 0
  | .sleep _ _ => pl == 0
  | .epoch _ _ => pl == 0
  | _ => false

/-- A coprocessor syllable (R81); FEAT_0.COP_MASK is 0. -/
def Op.isCop : Op → Bool
  | .cop _ _ => true
  | _ => false

/-- The index of the first syllable whose operation satisfies `f`. -/
def firstSyl (ys : List Syl) (f : Op → Bool) : Option Nat :=
  (numsFrom 0 ys.length).find? fun i => match ys[i]? with | some y => f y.op | none => false

/-- Row 8 of a bundle, in ascending unit order. -/
def State.rowEight (s : State) (c : Nat) (k : Core) (ys : List Syl) : Option Trap :=
  firstOf ((numsFrom 0 ys.length).map fun i =>
    match ys[i]? with
    | some y => s.sylCause c k i y.op
    | none => none)

/-- The cause a bundle at `a` reports before it acts (R85); `fault` is what its fetch met. -/
def State.cause (s : State) (c : Nat) (k : Core) (a : Word) (ys : List Syl) (fault : Option (Nat × Word)) : Option Trap :=
  match fault with
  | some f => some ⟨f.1, f.2, none, false⟩
  | none =>
    if k.watchFetch a ys.length then some ⟨0x0F, a, none, false⟩
    else
      match firstIllegal ys with
      | some i => some (.at_ i 0x01 0)
      | none =>
        match firstSyl ys Op.isCop with
        | some i => some (.at_ i 0x02 0)
        | none =>
          match firstSyl ys (beyond k.pl) with
          | some i => some (.at_ i 0x03 0)
          | none => s.rowEight c k ys

/-! ## The accesses of a bundle -/

/-- Poison of the check words that bytes from `a` touch, from the poison of each byte (R241). -/
def wordPoison (a : Nat) (pb : List Bool) : List Bool :=
  (numsFrom (a / 4) ((a + pb.length + 3) / 4 - a / 4)).map fun w =>
    (numsFrom 0 pb.length).any fun i => (a + i) / 4 == w && pb.getD i false

/-- Poison of each of `n` bytes from `a`, from that of the check words they touch. -/
def bytePoison (a n : Nat) (pz : List Bool) : List Bool :=
  (numsFrom a n).map fun b => pz.getD (b / 4 - a / 4) false

/-- The bytes a store writes, with the poison of each (R108, R154). -/
def Core.storeData (k : Core) : Op → List Byte × List Bool
  | .st o d _ _ => (toBytes o.size (k.rg d).val.toNat, List.replicate o.size (k.rg d).poison)
  | .vst d _ _ =>
    let es := (numsFrom 0 8).map (k.vr d).elem
    (es.flatMap fun e => toBytes 8 e.val.toNat, es.flatMap fun e => List.replicate 8 e.poison)
  | .rmSt d _ =>
    let bs := (k.ac d).bytes
    (bs, List.replicate bs.length (k.ac d).poison)
  | _ => ([], [])

/-- The parts an access performs: all, or only the first that lies in no region, which is answered NO_RESPONDER
(R109). -/
def State.doneParts (s : State) (c : Nat) (k : Core) (x : Ext) : List (Word × Nat × Nat × Nat) :=
  let ps := k.gparts x
  match ps.find? fun p => s.region c p.2.1 == .none with
  | some p => [p]
  | none => ps

/-- The loads of an extent by syllable `i`; a remote ream form is read as few GETs as its pages allow (R156). -/
def State.loadActs (s : State) (c : Nat) (k : Core) (i : Nat) (x : Ext) : List Act :=
  let ps := s.doneParts c k x
  let one : List Act := ps.map fun p => .load i p.2.1 p.2.2.1 p.2.2.2
  match ps with
  | [] => []
  | p :: _ =>
    let whole := (ps.zip (ps.drop 1)).all fun q => q.1.2.1 + q.1.2.2.1 == q.2.2.1
    if x.ream && !s.isLocal p.2.1 && whole && s.region c p.2.1 != .none then [.load i p.2.1 x.n p.2.2.2] else one

/-- The stores of a syllable. -/
def State.storeActs (s : State) (c : Nat) (k : Core) (i : Nat) (x : Ext) (op : Op) : List Act :=
  let d := k.storeData op
  (s.doneParts c k x).map fun p =>
    let o := (p.1 - x.ea).toNat
    .store i p.2.1 ((d.1.drop o).take p.2.2.1) (wordPoison p.2.1 ((d.2.drop o).take p.2.2.1)) p.2.2.2

/-- The accesses and waits of syllable `i` (R107 to R115, R136, R137, R156, R373, R413). A PREF that would meet a
cause, or whose line is not cacheable local memory, does nothing (R110). RM.LD reads its form once its header is known
(a remote one by a GET of its own, R156), unless its extent runs into no region. -/
def State.sylActs (s : State) (c : Nat) (k : Core) (i : Nat) (op : Op) : List Act :=
  match op with
  | .amo o d a b =>
    (match k.walk (k.rg a).val with
     | some r => [.amo i r.1 o (k.rg b) (k.rg d)]
     | none => [])
  | .pref h a b =>
    let x : Ext := ⟨.load, k.ea a b, 1, false, false⟩
    (match k.walk x.ea with
     | some r =>
       if !(k.rg a).poison && !(k.sv b).poison && (s.accessCause c k i x).isNone && s.isLocal r.1
           && s.region c r.1 == .dram && attrOf r.2 != 1 then [.pref i r.1 h.toNat (attrOf r.2)]
       else []
     | none => [])
  | .fence f => [.fence i f]
  | .iflushAll => [.drain i]
  | .iflushRange _ _ => [.drain i]
  | .wait => [.wait i]
  | .sleep _ a => if (k.rg a).val.toNat % 16 = 1 then [.nap i] else []
  | .epoch _ a => if (k.rg a).val.toNat % 16 = 1 then [.mark i] else []
  | .rmLd _ a =>
    let x : Ext := ⟨.load, (k.rg a).val, 552, false, true⟩
    if (k.gparts x).any fun p => s.region c p.2.1 == .none then s.loadActs c k i x
    else if (k.gparts x).any fun p => !s.isLocal p.2.1 then s.loadActs c k i { x with n := 16 } ++ [.form i]
    else [.form i]
  | op =>
    match k.ext op with
    | some x => if x.want = .store then s.storeActs c k i x op else s.loadActs c k i x
    | none => []

/-- The limbs that syllable `i`, an RM.LD, reads behind a header (R155); none where the header is poisoned. -/
def State.limbActs (s : State) (c : Nat) (k : Core) (i : Nat) (ea : Word) (w0 w1 : Nat) : List Act :=
  s.loadActs c k i ⟨.load, ea + 16, formLen w0 w1 - 16, false, true⟩

/-- Whether an access takes a store buffer entry. -/
def Act.isStore : Act → Bool
  | .store _ _ _ _ _ => true
  | _ => false

/-- Whether an act waits for something other than an access. -/
def Act.waits : Act → Bool
  | .drain _ => true
  | .wait _ => true
  | .nap _ => true
  | .mark _ => true
  | _ => false

/-- The bytes of an access: address and number. -/
def Act.span : Act → Option (Nat × Nat)
  | .load _ a n _ => some (a, n)
  | .store _ a bs _ _ => some (a, bs.length)
  | .amo _ a _ _ _ => some (a, 8)
  | _ => none

/-- A local atomic. -/
def State.localAmo (s : State) : Act → Bool
  | .amo _ a _ _ _ => s.isLocal a
  | _ => false

/-- A device, uncached or remote access of a bundle, whose response can come in a later step or stop the bundle; an
uncached access that shares bytes with an atomic of the bundle stays in its place. -/
def State.farAct (s : State) (c : Nat) (k : Core) (ys : List Syl) (amos : List Act) : Act → Bool
  | .load _ a n attr => !s.isLocal a || !(s.region c a == .dram || s.region c a == .scratch)
      || (attr == 1 && !amos.any fun x => match x.span with | some p => a < p.1 + p.2 && p.1 < a + n | none => false)
  | .store _ a bs _ attr => !s.isLocal a || !(s.region c a == .dram || s.region c a == .scratch)
      || (attr == 1 && !amos.any fun x => match x.span with | some p => a < p.1 + p.2 && p.1 < a + bs.length | none => false)
  | .amo _ a _ _ _ => !s.isLocal a
  | .form i => (match ys[i]? with
      | some y => (match k.ext y.op with | some x => (k.gparts x).any fun p => !s.isLocal p.2.1 | none => false)
      | none => false)
  | _ => false

/-- A local atomic takes effect only with its bundle (R73, R84): the accesses that may still stop the bundle are
performed first, which R230 allows since they reach other bytes. -/
def State.amoLast (s : State) (c : Nat) (k : Core) (ys : List Syl) (l : List Act) : List Act :=
  let amos := l.filter s.localAmo
  if amos.isEmpty then l
  else
    let far := s.farAct c k ys amos
    l.filter (fun x => match x with | .fence _ _ => true | _ => false) ++ l.filter far
      ++ l.filter (fun x => !far x && !x.waits && (match x with | .fence _ _ => false | _ => true))
      ++ l.filter Act.waits

/-- The accesses of a bundle in the order of R73, after room for its stores is found (R185). -/
def State.acts (s : State) (c : Nat) (k : Core) (ys : List Syl) : List Act :=
  let l := s.amoLast c k ys ((numsFrom 0 ys.length).flatMap fun i =>
    match ys[i]? with
    | some y => s.sylActs c k i y.op
    | none => [])
  let n := (l.filter Act.isStore).length
  if n = 0 then l else .room n :: l

end Sys2Proof.Machine
end

