-- ==== Sys2Proof/Machine/LoadStore.lean ====
section
/-!
DEFINITION. The accesses and waits of a bundle, one at a time (spec/04 R109 to R115, R136; spec/06 R185 to R188;
spec/07 R205 to R208; spec/09 R263 to R269; spec/11 R344 to R348; spec/14 R413; spec/12 R373): performed, waiting, or
stopped with a code of row 8f of R85.  Where a rule makes an access wait for buffered stores to drain, they drain at
that moment as far as they can (assumption log entry 25).
-/

namespace Sys2Proof.Machine

/-! ## L1D (R205 to R207) -/

/-- The line a core holds, in L1D or in its fill buffer. -/
def Core.line? (k : Core) (l : Nat) : Option CLine :=
  match k.l1d.find? fun x => x.line == l with
  | some x => some x
  | none => k.fills.find? fun x => x.line == l

/-- Keep at most `n` lines of a set of 256. -/
def keepLines (set : Nat) : Nat → List CLine → List CLine
  | _, [] => []
  | 0, x :: r => if x.line % 256 = set then keepLines set 0 r else x :: keepLines set 0 r
  | n + 1, x :: r => if x.line % 256 = set then x :: keepLines set n r else x :: keepLines set (n + 1) r

/-- A line enters a cache of 256 sets of 4 ways as its set's most recently used line. -/
def putLine (ls : List CLine) (x : CLine) : List CLine :=
  keepLines (x.line % 256) 4 (x :: ls.filter fun y => y.line != x.line)

/-- A held line becomes its set's most recently used. -/
def Core.touch (k : Core) (l : Nat) : Core :=
  match k.l1d.find? fun x => x.line == l with
  | some x => { k with l1d := putLine k.l1d x }
  | none => k

/-- Events of a load that misses L1D at local address `a` (R190): where it is served. -/
def State.servedBy (s : State) (c a : Nat) : List (Nat × Nat) :=
  let e := s.rd (HOME_MAP.adr (homeIndex a))
  match fset? HOME_MAP.VALID e, s.physTile (fget HOME_MAP.LTILE e), s.whoTile (coreWho c) with
  | true, some p, some q =>
    let d := if p = q then 0x0D else if p / 17 = q / 17 then 0x0E else 0x0F
    (d, 1) :: if (s.slotOf p (fget HOME_MAP.SEG e) a).isNone then [(0x10, 1)] else []
  | _, _, _ => []

/-- Bytes of a line from offset `o` as L1D delivers them, their poison, and the errors found in their words (R207,
R236). -/
def CLine.read (x : CLine) (o n : Nat) : List Byte × List Bool × List Upset :=
  if x.flips.isEmpty then ((x.data.drop o).take n, bytePoison o n (x.poison.drop (o / 4)), [])
  else
    let w := o / 4
    let m := (o + n + 3) / 4 - w
    let r := readFlips x.flips (4 * w) ((x.data.drop (4 * w)).take (4 * m)) ((x.poison.drop w).take m)
    ((r.1.drop (o - 4 * w)).take n, bytePoison o n r.2.1, r.2.2)

/-- Errors found in line `l` of a level-one cache of core `c` are logged; the way that held it is a free value. -/
def State.logLine (s : State) (c source l : Nat) (us : List Upset) : State :=
  if us.isEmpty then s
  else (s.logCore c source (l % 256 * 256 + (Config.freeWord s.freeTick).toNat % 4 * 64) us).tick

/-! ## Replies -/

/-- What an access comes to: performed, with the bytes read and the poison of each, whether it was a device, uncached
or remote access, and the events it met; waiting, with whether it has been issued and whether its request has been
sent; or stopped with a code. -/
inductive Reply where
  | ok (s : State) (bytes : List Byte) (pb : List Bool) (issued : Bool) (evs : List (Nat × Nat))
  | wait (s : State) (issued sent : Bool)
  | stop (s : State) (code : Nat)

/-- The reply to a local read of memory. -/
def MemRes.reply (a : Nat) (issued : Bool) (r : MemRes) : Reply :=
  match r.ans with
  | .ok => .ok r.st r.bytes (bytePoison a r.bytes.length r.poison) issued []
  | .held => .wait r.st issued false
  | x => .stop r.st x.code

/-- The reply with events added. -/
def Reply.note (evs : List (Nat × Nat)) : Reply → Reply
  | .ok s b p i e => .ok s b p i (evs ++ e)
  | r => r

/-! ## Waiting for stores -/

/-- Core `c` has a buffered store over `n` bytes at global address `a`. -/
def State.stored (s : State) (c a n : Nat) : Bool := (s.core c).sb.any fun e => e.over a n

/-- Drain committed entries of core `c`, oldest first, while one overlaps the bytes. -/
def State.drainFor (s : State) (c a n : Nat) : Nat → State
  | 0 => s
  | m + 1 =>
    if !s.stored c a n then s
    else
      let t := s.drainAt c 0
      if (t.core c).sb.length < (s.core c).sb.length then t.drainFor c a n m else t

/-! ## Queue ports (R263 to R274) -/

/-- A load from an offset of queue `q`'s port block on physical tile `p`. -/
def State.portLoad (s : State) (p q off : Nat) : State × PW :=
  let v (w : Word) : State × PW := (s, ⟨w, false⟩)
  if 32 ≤ q then v 0
  else if off = 0x20 then s.popAt p q
  else if off = 0x28 then v (s.readQstat p q)
  else if off = 0x30 then v (s.readQctl p q)
  else if off = 0x38 then v (s.readQwm p q)
  else v 0

/-- A store to an offset of the port block; none where a push must be held for a slot. -/
def State.portStore (s : State) (who : Who) (p q off : Nat) (w : PW) : Option State :=
  if 32 ≤ q then some s
  else if off = 0x00 || off = 0x08 then
    (if (s.queue p q).pushHeld who w then none else some (s.pushNow p q who (off == 0x08) w))
  else if off = 0x10 then some (s.qabortAt p q who)
  else if off = 0x30 then some (s.qctlAt p q w.val)
  else if off = 0x38 then some (s.qwmAt p q w.val)
  else some s

/-- An access of core `c` to the queue window at local address `a`, once its gates are open: the die fabrics on the
way, then the tile's (R22, R274). -/
def State.atPort (s : State) (c : Nat) (write : Bool) (a : Nat) (f : State → Nat → Nat → Nat → Reply) : Reply :=
  let o := a - 0xA000000000
  match s.physTile (o / 65536) with
  | none => .stop s 0x0B
  | some p =>
    match s.enter (coreWho c) write a (s.fabricGates (coreWho c) (p / 17) (some p)) with
    | (s, some .held) => .wait s true false
    | (s, some x) => .stop s x.code
    | (s, none) =>
      match s.qgate (o / 65536) with
      | .absent => .stop s 0x0B
      | .off p => .stop (s.deckle (coreWho c) p) 0x0A
      | .sleeping p => .wait (s.wakeTile p 2 0) true false
      | .run p => f s p (o / 256 % 256) (o % 256)

/-! ## Loads -/

/-- A load of cacheable DRAM at local address `a` that misses L1D: its line is filled from the home slice. -/
def State.readFilled (s : State) (c a n attr : Nat) : Reply :=
  let evs := (0x0C, 1) :: s.servedBy c a
  let r := s.memRead (coreWho c) true (a / 64 * 64) 64
  match r.ans with
  | .ok =>
    let x : CLine := ⟨a / 64, attr == 2, r.bytes, r.poison, []⟩
    let d := x.read (a % 64) n
    .ok (r.st.updCore c fun k => { k with l1d := putLine k.l1d x }) d.1 d.2.1 false evs
  | .held => .wait r.st false false
  | x => .stop r.st x.code

/-- A load of `n` bytes of cacheable DRAM at local address `a` through L1D.  A line with an uncorrectable error is
dropped, and the access is served again from the home slice (R207). -/
def State.readCached (s : State) (c a n attr : Nat) : Reply :=
  match (s.core c).line? (a / 64) with
  | none => s.readFilled c a n attr
  | some x =>
    let d := x.read (a % 64) n
    let s := s.logLine c 1 (a / 64) d.2.2
    if spoilt d.2.2 then (s.updCore c fun k => k.dropLine (a / 64)).readFilled c a n attr
    else .ok (s.updCore c fun k => k.touch (a / 64)) d.1 d.2.1 false []

/-- Bytes from `a` with those of a same-bundle store laid over them (R188). -/
def patch (a : Nat) (d : List Byte × List Bool) (e : SbEntry) : List Byte × List Bool :=
  let pz := bytePoison e.addr e.bytes.length e.poison
  let at_ (i : Nat) : Option Nat := if e.addr ≤ a + i && a + i < e.addr + e.bytes.length then some (a + i - e.addr) else none
  let ix := numsFrom 0 d.1.length
  (ix.map fun i => match at_ i with | some j => e.bytes.getD j 0 | none => d.1.getD i 0,
   ix.map fun i => match at_ i with | some j => pz.getD j false | none => d.2.getD i false)

/-- A reply with same-bundle stores laid over its bytes. -/
def Reply.patched (a : Nat) (es : List SbEntry) : Reply → Reply
  | .ok s b p i e =>
    let d := es.foldl (patch a) (b, p)
    .ok s d.1 d.2 i e
  | r => r

/-- The bytes a store entry forwards to a load it covers (R187). -/
def SbEntry.forward (e : SbEntry) (a n : Nat) : List Byte × List Bool :=
  let o := a - e.addr
  ((e.bytes.drop o).take n, ((bytePoison e.addr e.bytes.length e.poison).drop o).take n)

/-- A load answered by a store entry that holds all its bytes (R187, R188). -/
def State.forwarded (s : State) (c : Nat) (e : SbEntry) (a n : Nat) : Reply :=
  let r := e.clean
  .ok (s.logCore c 4 0 r.2) (r.1.forward a n).1 (r.1.forward a n).2 false [(0x12, 1)]

/-- The youngest store of a bundle that overlaps the bytes, where it holds all of them (R188). -/
def ownStore (own : List SbEntry) (a n : Nat) : Option SbEntry :=
  match (own.filter fun e => e.over a n).getLast? with
  | some e => if within a n e.addr e.bytes.length then some e else none
  | none => none

/-- A load must first see buffered stores drain (R187, R188), which event 0x13 counts. -/
def State.loadWaits (s : State) (c : Nat) (own : List SbEntry) (a n attr : Nat) : Bool :=
  let old := (s.core c).sb.filter fun e => e.over a n
  if (ownStore own a n).isSome then false
  else if s.isLocal a && ((s.region c a == .dram && attr != 1) || s.region c a == .scratch) then
    (match old with
     | [] => false
     | [e] => (own.any fun o => o.over a n) || !within a n e.addr e.bytes.length
     | _ => true)
  else !old.isEmpty || s.storeOut c a n

/-- A load from cacheable DRAM or scratchpad, where no entry answers it. -/
def State.readHome (s : State) (c a n attr : Nat) : Reply :=
  if s.region c a = .dram then s.readCached c (a % 2 ^ 40) n attr
  else (s.memRead (coreWho c) true (a % 2 ^ 40) n).reply a false

/-- A load from cacheable DRAM or scratchpad (R187, R188): forwarded, or read behind the stores it overlaps. -/
def State.readOrdinary (s : State) (c : Nat) (own : List SbEntry) (a n attr : Nat) : Reply :=
  let mine := own.filter fun e => e.over a n
  let old := (s.core c).sb.filter fun e => e.over a n
  let behindStores (own : List SbEntry) : Reply :=
    let s := s.drainFor c a n 16
    if s.stored c a n then .wait s false false else (s.readHome c a n attr).patched a own
  match mine.getLast?, old with
  | some e, _ =>
    if within a n e.addr e.bytes.length then s.forwarded c e a n
    else if old.isEmpty then (s.readHome c a n attr).patched a mine
    else behindStores mine
  | none, [] => s.readHome c a n attr
  | none, [e] =>
    if within a n e.addr e.bytes.length then s.forwarded c e a n
    else behindStores []
  | none, _ => behindStores []

/-- A load that no store buffer entry answers (R187): uncached DRAM, flash, and the service cores' memories. A line of
DRAM that L1D holds is dropped, so that no later load returns older bytes, nor part of another core's store (R228,
R233). -/
def State.readDirect (s : State) (c : Nat) (own : List SbEntry) (a n : Nat) : Reply :=
  let s := s.drainFor c a n 16
  if s.stored c a n then .wait s false false
  else
    let r := s.memRead (coreWho c) false (a % 2 ^ 40) n
    let seen := r.st.updCore c fun k => k.dropLine (a % 2 ^ 40 / 64)
    let r : MemRes := if r.ans = .ok && s.region c a = .dram then { r with st := seen } else r
    (r.reply a true).patched a own

/-- A load from control space. -/
def State.readControl (s : State) (c a : Nat) : Reply :=
  match s.ctrlRead (coreWho c) (a % 2 ^ 40) with
  | (s, .ok, w) => .ok s (toBytes 8 w.val.toNat) (List.replicate 8 w.poison) true []
  | (s, .held, _) => .wait s true false
  | (s, x, _) => .stop s x.code

/-- A load from a remote address: sent once, and answered by its response (R226). -/
def State.readRemote (s : State) (c : Nat) (own : List SbEntry) (sent : Bool) (a n : Nat) : Reply :=
  if sent then
    (match (s.core c).resp with
     | none => .wait s true true
     | some r =>
       let s := s.updCore c fun k => { k with resp := none }
       if r.status = 0 then (Reply.ok s (r.data.take n) (bytePoison a n r.mask) true [(0x14, 1)]).patched a own
       else .stop s (if r.status = 0x0A then 0x0A else if r.status = 0x0B then 0x0B else 0x0C))
  else if s.region c a = .queue then .stop s 0x0C
  else
    let s := s.drainFor c a n 16
    if s.stored c a n || s.storeOut c a n || s.outstFull c then .wait s false false
    else
      match s.enter (coreWho c) false a (s.ownFabric c) with
      | (s, some .held) => .wait s true false
      | (s, some x) => .stop s x.code
      | (s, none) =>
        match s.sendReq c .load a (if s.region c a = .ctrl then ctrlReadReq (a % 2 ^ 40) else getReq (a % 2 ^ 40) n) with
        | none => .stop s 0x0B
        | some s => .wait s true true

/-- A load of core `c`: `own` are the stores of its own bundle, `ream` marks RM.LD. -/
def State.read (s : State) (c : Nat) (own : List SbEntry) (ream sent : Bool) (a n attr : Nat) : Reply :=
  if ream && s.region c a = .queue then .stop s 0x0B
  else if !sent && (ownStore own a n).isSome then
    (match ownStore own a n with | some e => s.forwarded c e a n | none => .wait s false false)
  else if !s.isLocal a then s.readRemote c own sent a n
  else
    match s.region c a with
    | .dram => if attr = 1 then s.readDirect c own a n else s.readOrdinary c own a n attr
    | .scratch => s.readOrdinary c own a n attr
    | .ctrl => s.readControl c a
    | .queue => s.atPort c false (a % 2 ^ 40) fun s p q o =>
        let r := s.portLoad p q o
        .ok r.1 (toBytes 8 r.2.val.toNat) (List.replicate 8 r.2.poison) true []
    | .none => .stop s 0x0B
    | _ => s.readDirect c own a n

/-! ## Stores -/

/-- How a store leaves its bundle (R186): posted, through the gather buffer of a remote queue (R348), or before the
bundle commits. -/
inductive StoreKind where
  | posted | gather | direct
deriving DecidableEq, Repr

/-- The kind of a store at a global address. -/
def State.storeKind (s : State) (c a attr : Nat) : StoreKind :=
  if s.isLocal a then
    (match s.region c a with
     | .dram => if attr = 1 then .direct else .posted
     | .scratch => .posted
     | .flash => .posted
     | _ => .direct)
  else if s.region c a = .queue && a % 256 ≤ 0x10 && a / 256 % 256 < 32 then .gather
  else .posted

/-- A store that is performed before its bundle commits. -/
def State.writeDirect (s : State) (c a : Nat) (bs : List Byte) (pz : List Bool) : Reply :=
  let w : PW := ⟨BitVec.ofNat 64 (ofBytes bs), pz.any id⟩
  match s.region c a with
  | .ctrl =>
    (match s.ctrlWrite (coreWho c) (a % 2 ^ 40) w with
     | (s, .ok) => .ok s [] [] true []
     | (s, .held) => .wait s true false
     | (s, x) => .stop s x.code)
  | .queue => s.atPort c true (a % 2 ^ 40) fun s p q o =>
      match s.portStore (coreWho c) p q o w with
      | some s => .ok s [] [] true []
      | none => .wait s false false
  | .none => .stop s 0x0B
  | _ =>
    let s := s.drainFor c a bs.length 16
    if s.stored c a bs.length then .wait s false false
    else
      let r := s.memWrite (coreWho c) false (a % 2 ^ 40) bs pz
      match r.ans with
      | .ok => .ok (r.st.updCore c fun k => k.storeHit (a % 2 ^ 40) bs pz) [] [] true []
      | .held => .wait r.st true false
      | x => .stop r.st x.code

/-- A remote push must still wait for a QMSG or for room among the requests (R350). -/
def State.pushWaits (s : State) (c a : Nat) : Bool :=
  a % 256 ≤ 0x08 && s.gatherWaits c (a / 256 * 256) (a % 256 == 0x08)

/-- A committed store to a remote producer port acts on the gather buffer (R348). -/
def State.gatherStore (s : State) (c : Nat) (e : SbEntry) : State :=
  let ga := e.addr / 256 * 256
  let w : PW := ⟨BitVec.ofNat 64 (ofBytes e.bytes), e.poison.any id⟩
  if e.addr % 256 = 0x00 then s.gatherPush c ga false w
  else if e.addr % 256 = 0x08 then s.gatherPush c ga true w
  else s.gatherAbort c ga

/-! ## Atomics (R111 to R113) -/

/-- An atomic of core `c`. -/
def State.atomic (s : State) (c : Nat) (sent : Bool) (a : Nat) (o : Amo) (b cmp : PW) : Reply :=
  let rg := s.region c a
  if rg = .queue || rg = .flash || (rg = .none && s.isLocal a) then .stop s 0x0B
  else if !s.isLocal a && sent then
    s.readRemote c [] true a 8
  else
    let s := s.drainFor c a 8 16
    if s.stored c a 8 then .wait s false false
    else if s.isLocal a then
      let r := s.memAmo (coreWho c) o (a % 2 ^ 40) b cmp
      match r.2.1 with
      | .ok =>
        .ok (r.1.updCore c fun k => k.dropLine (a % 2 ^ 40 / 64))
          (toBytes 8 r.2.2.val.toNat) (List.replicate 8 r.2.2.poison) true []
      | .held => .wait r.1 false false
      | x => .stop r.1 x.code
    else if s.storeOut c a 8 || s.outstFull c then .wait s false false
    else
      match s.enter (coreWho c) true a (s.ownFabric c) with
      | (s, some .held) => .wait s true false
      | (s, some x) => .stop s x.code
      | (s, none) =>
        match s.sendReq c .load a (amoReq o (a % 2 ^ 40) b cmp) with
        | none => .stop s 0x0B
        | some s => .wait s true true

/-! ## PREF, fences and waits -/

/-- PREF (R110): hint 0 brings the line into L1D and its home slice, hint 1 into the home slice only.  It waits for
nothing: where memory holds the access, it does nothing.  Hint 0 on a line that L1D holds leaves the home slice as it is
(DESIGN CHOICE, assumption log entry 74). -/
def State.prefetch (s : State) (c a hint attr : Nat) : State :=
  if hint = 0 then
    (match s.readCached c (a % 2 ^ 40) 1 attr with
     | .ok t _ _ _ _ => t
     | .wait _ _ _ => s
     | .stop t _ => t)
  else
    let r := s.memRead (coreWho c) true (a % 2 ^ 40 / 64 * 64) 64
    if r.ans = .held then s else r.st

/-- FENCE.ACQ drops every line that is not private (R115, R206). -/
def Core.acquire (k : Core) : Core := { k.mapFills (List.filter CLine.priv) with l1d := k.l1d.filter CLine.priv }

/-- Tile power of core `c` lets it run: its tile in RUN, or the service domain on. -/
def State.coreOn (s : State) (c : Nat) : Bool :=
  if ofTile c then (match s.coreTile c with | some p => s.dom p == 1 | none => false) else s.isOn 301 && !s.svcStopped

/-- NAP may be requested on the core's tile (R413). -/
def State.napEnabled (s : State) (c : Nat) : Bool :=
  match s.whoTile (coreWho c) with
  | some p => s.has (DOM_CTL.adr p) DOM_CTL.NAP_EN
  | none => false

/-- The result word of EPOCH with a code, before or after a mark (R373). -/
def State.epochWord (s : State) (code : Nat) : Word :=
  BitVec.ofNat 64 (s.ceEpoch * 2 ^ 32 + s.ceState * 2 ^ 8 + code)

/-- The code of EPOCH MARK (R373). -/
def State.markCode (s : State) : Nat :=
  if !s.isOn 299 || !s.has CE_CTL.adr CE_CTL.ENABLE then 2
  else if !s.has CE_STAT.adr CE_STAT.BUDDY_UP then 3
  else if s.ceState ≠ 1 then 1
  else 0

/-! ## One act of a bundle -/

/-- What an act comes to: done, waiting, or a trap of the bundle. -/
inductive Done where
  | ok (s : State) (cu : Cur)
  | wait (s : State) (cu : Cur)
  | trap (s : State) (t : Trap)

/-- The operation of syllable `i` of a bundle. -/
def Cur.op (cu : Cur) (i : Nat) : Op := match cu.syls[i]? with | some y => y.op | none => .nop

/-- Syllable `i` of a bundle is RM.LD or RM.ST. -/
def Cur.ream (cu : Cur) (i : Nat) : Bool :=
  match cu.op i with
  | .rmLd _ _ => true
  | .rmSt _ _ => true
  | _ => false

/-- The address presented for global address `a` by syllable `op` (R85). -/
def Core.vaOf (k : Core) (op : Op) (a : Nat) : Word :=
  match k.ext op with
  | none => 0
  | some x =>
    match (k.gparts x).find? fun p => p.2.1 ≤ a && a < p.2.1 + p.2.2.1 with
    | some p => p.1 + BitVec.ofNat 64 (a - p.2.1)
    | none => x.ea

/-- What syllable `i` has read. -/
def Cur.bytes (cu : Cur) (i : Nat) : List Byte := (cu.got.filter fun g => g.i == i).flatMap Got.bytes

/-- The poison of each byte that syllable `i` has read. -/
def Cur.poison (cu : Cur) (i : Nat) : List Bool := (cu.got.filter fun g => g.i == i).flatMap Got.poison

/-- Act on a reply for syllable `i` at global address `a`; `evs` are events of the access where it is done. -/
def Reply.done (c : Nat) (cu : Cur) (i a : Nat) (evs : List (Nat × Nat)) : Reply → Done
  | .ok s bs pb issued es =>
    .ok s { cu with todo := cu.todo.drop 1, got := cu.got ++ [⟨i, bs, pb⟩],
                    events := cu.events ++ evs ++ es ++ (if cu.behind then [(0x13, 1)] else []),
                    sent := false, fixed := cu.fixed || issued, behind := false }
  | .wait s issued sent => .wait s { cu with sent := sent, fixed := cu.fixed || issued }
  | .stop s code => .trap s (.at_ i code ((s.core c).vaOf (cu.op i) a))

/-- The next act is done. -/
def Cur.next (cu : Cur) : Cur := { cu with todo := cu.todo.drop 1 }

/-- The bundle remembers a result for syllable `i`. -/
def Cur.give (cu : Cur) (i : Nat) (bs : List Byte) : Cur :=
  { cu with got := cu.got ++ [⟨i, bs, List.replicate bs.length false⟩] }

/-- The kind of destination of a posted store (R185). -/
def State.sbKind (s : State) (c a : Nat) : SbKind :=
  if !s.isLocal a then .remote
  else match s.region c a with
    | .dram => .cacheable
    | .scratch => .scratch
    | _ => .device

/-- What keeps a further part of a store that leaves before its bundle commits from being performed (R109). -/
def State.partBlocked (s : State) (c : Nat) (cu : Cur) (i : Nat) : Act → Option Done
  | .store j a bs pz _ =>
    if j ≠ i then none
    else
      match s.writeDirect c a bs pz with
      | .ok _ _ _ _ _ => none
      | .wait t _ _ => some (.wait t cu)
      | r => some (r.done c cu i a [])
  | _ => none

/-- A part of a store that leaves before its bundle commits: neither part is performed where another of its syllable is
refused or must wait (R109). -/
def State.doDirect (s : State) (c : Nat) (cu : Cur) (i a : Nat) (bs : List Byte) (pz : List Bool) : Done :=
  match s.writeDirect c a bs pz with
  | .ok t b p issued es =>
    (match (cu.todo.drop 1).findSome? (s.partBlocked c cu i) with
     | some d => d
     | none => (Reply.ok t b p issued es).done c cu i a [(0x11, 1)])
  | r => r.done c cu i a [(0x11, 1)]

/-- A store by syllable `i`. -/
def State.doStore (s : State) (c : Nat) (cu : Cur) (i a : Nat) (bs : List Byte) (pz : List Bool) (attr : Nat) : Done :=
  let e : SbEntry := ⟨a, bs, pz, s.sbKind c a, []⟩
  let remote : List (Nat × Nat) := if s.isLocal a then [] else [(0x14, 1)]
  let cu' := { cu.next with events := cu.events ++ (0x11, 1) :: remote }
  if cu.ream i && s.region c a = .queue then .trap s (.at_ i 0x0B ((s.core c).vaOf (cu.op i) a))
  else
    match s.storeKind c a attr with
    | .posted => .ok s { cu' with stores := cu.stores ++ [e] }
    | .gather => if s.pushWaits c a then .wait s cu else .ok s { cu' with pushes := cu.pushes ++ [e] }
    | .direct => s.doDirect c cu i a bs pz

/-- A fence by syllable `i` (R115, R227). -/
def State.doFence (s : State) (c : Nat) (cu : Cur) (i : Nat) (f : Fence) : Done :=
  if f = .acq then .ok (s.updCore c Core.acquire) cu.next
  else
    let s := s.drainAll c 16
    if !s.storesDone c then .wait s cu
    else if s.pstoreCode c ≠ 0 then .trap (s.pstoreClear c) (.at_ i (s.pstoreCode c) (s.core c).pstoreAddr)
    else .ok (if f = .full then s.updCore c Core.acquire else s) cu.next

/-- The core's wait has ended. -/
def State.unwake (s : State) (c : Nat) : State := { s with woken := s.woken.filter fun d => d != c }

/-- WAIT (R136). -/
def State.doWait (s : State) (c : Nat) (cu : Cur) : Done :=
  if s.pendingAt c || ((s.core c).waiting && s.woken.contains c) || (s.core c).sleepRes.isSome then
    .ok ((s.updCore c fun k => { k with waiting := false, sleepRes := none }).unwake c) cu.next
  else .wait ((s.updCore c fun k => { k with waiting := true }).unwake c) cu

/-- SLEEP with request NAP (R413). -/
def State.doNap (s : State) (c : Nat) (cu : Cur) (i : Nat) : Done :=
  let fin (code : Nat) : Done :=
    .ok ((s.updCore c fun k => { k with sleeping := false, sleepRes := none }).unwake c) (cu.next.give i [BitVec.ofNat 8 code])
  match (s.core c).sleepRes with
  | some code => fin code
  | none =>
    if !s.napEnabled c then fin 3
    else if s.pendingAt c || ((s.core c).sleeping && s.woken.contains c) then fin 1
    else .wait ((s.updCore c fun k => { k with sleeping := true }).unwake c) cu

/-- EPOCH with request MARK (R373). -/
def State.doMark (s : State) (c : Nat) (cu : Cur) (i : Nat) : Done :=
  let s := s.drainAll c 16
  if !s.storesDone c then .wait s cu
  else
    let code := s.markCode
    let s := if code = 0 then s.mark else s
    .ok s { cu.next.give i (toBytes 8 (s.epochWord code).toNat) with fixed := true }

/-- A load by syllable `i`. -/
def State.doLoad (s : State) (c : Nat) (cu : Cur) (i a n attr : Nat) : Done :=
  let cu := if !cu.sent && s.loadWaits c cu.stores a n attr then { cu with behind := true } else cu
  (s.read c cu.stores (cu.ream i) cu.sent a n attr).done c cu i a [(0x0B, 1)]

/-- Perform loads in order and collect their bytes; what they come to where one is not performed. -/
def State.peek (s : State) (c : Nat) (cu : Cur) : List Act → List Byte → List Bool → Except Done (List Byte × List Bool)
  | [], bs, pz => .ok (bs, pz)
  | .load i a n attr :: r, bs, pz =>
    (match s.read c cu.stores (cu.ream i) false a n attr with
     | .ok t b p _ _ => t.peek c cu r (bs ++ b) (pz ++ p)
     | .wait t _ _ => .error (.wait t cu)
     | x => .error (x.done c cu i a []))
  | _ :: r, bs, pz => s.peek c cu r bs pz

/-- Buffered entries that the parts of an access overlap lie in more than one line. -/
def State.manyLines (s : State) (c : Nat) (l : List Act) : Bool :=
  let es := (s.core c).sb.filter fun e => l.any fun x => match x.span with | some p => e.over p.1 p.2 | none => false
  es.any fun e => es.any fun f => e.addr / 64 != f.addr / 64

/-- A buffered entry overlaps a part of an access. -/
def State.partsStored (s : State) (c : Nat) (l : List Act) : Bool :=
  l.any fun x => match x.span with | some p => s.stored c p.1 p.2 | none => false

/-- Drain what the parts of an access overlap. -/
def State.drainParts (s : State) (c : Nat) (l : List Act) : State :=
  l.foldl (fun s x => match x.span with | some p => s.drainFor c p.1 p.2 16 | none => s) s

/-- The form that RM.LD reads, once the bytes of its header are known: the header alone where it is poisoned (R155). -/
def headerLen (bs : List Byte) (pz : List Bool) : Nat :=
  match words64 2 bs with
  | w0 :: w1 :: _ => if pz.any id then 16 else formLen w0 w1
  | _ => 16

/-- RM.LD of local memory: the header says how long the form is, and each line's part is one access (R155, R233).  Where
the form overlaps entries of several lines, it waits until they have drained (R157). -/
def State.doLocalForm (s : State) (c : Nat) (cu : Cur) (i : Nat) (x : Ext) : Done :=
  match s.peek c cu (s.loadActs c (s.core c) i { x with n := 16 }) [] [] with
  | .error d => d
  | .ok h =>
    let l := s.loadActs c (s.core c) i { x with n := headerLen h.1 h.2 }
    let many := s.manyLines c l || (cu.behind && s.partsStored c l)
    let s := if many then s.drainParts c l else s
    let cu := if many then { cu with behind := true } else cu
    if many && s.partsStored c l then .wait s cu
    else
      match l with
      | .load _ a n attr :: _ =>
        (match s.doLoad c { cu with todo := l ++ cu.todo.drop 1 } i a n attr with
         | .wait t _ => .wait t cu
         | d => d)
      | _ => .ok s cu.next

/-- RM.LD's form (R155): a remote one's header has been read, and without poison the limbs it names follow. -/
def State.doForm (s : State) (c : Nat) (cu : Cur) (i : Nat) : Done :=
  let k := s.core c
  match k.ext (cu.op i) with
  | none => .ok s cu.next
  | some x =>
    if (cu.bytes i).isEmpty then s.doLocalForm c cu i x
    else if (cu.poison i).any id then .ok s cu.next
    else
      match words64 2 (cu.bytes i) with
      | w0 :: w1 :: _ => .ok s { cu with todo := s.limbActs c k i x.ea w0 w1 ++ cu.todo.drop 1 }
      | _ => .ok s cu.next

/-- Perform the next act of a bundle of core `c`. -/
def State.doAct (s : State) (c : Nat) (cu : Cur) : Act → Done
  | .room n =>
    let s := if 16 < (s.core c).sb.length + n then s.drainAll c ((s.core c).sb.length + n - 16) else s
    if 16 < (s.core c).sb.length + n then .wait s cu else .ok s cu.next
  | .load i a n attr => s.doLoad c cu i a n attr
  | .form i => s.doForm c cu i
  | .pref _ a h attr => .ok (s.prefetch c a h attr) cu.next
  | .store i a bs pz attr => s.doStore c cu i a bs pz attr
  | .amo i a o b cmp => (s.atomic c cu.sent a o b cmp).done c cu i a []
  | .fence i f => s.doFence c cu i f
  | .drain _ =>
    let s := s.drainAll c 16
    if (s.core c).sb.isEmpty then .ok s cu.next else .wait s cu
  | .wait _ => s.doWait c cu
  | .nap i => s.doNap c cu i
  | .mark i => s.doMark c cu i

/-- A local atomic that `cu` has performed last is taken back: its word holds again what it held. -/
def State.restore (s : State) (c : Nat) (cu : Cur) : Act → State
  | .amo _ a _ _ _ =>
    (match cu.got.getLast? with
     | some g => (s.memWrite (coreWho c) true (a % 2 ^ 40) g.bytes (wordPoison a g.poison)).st
     | none => s)
  | _ => s

/-- Perform the acts of a bundle in order (R73), up to one that waits or traps.  A local atomic takes effect only with
its bundle (R73, R84): where a later act waits or traps it is taken back, and done again when the bundle goes on. -/
def State.runActs : Nat → State → Nat → Cur → Done
  | 0, s, _, cu => .wait s cu
  | f + 1, s, c, cu =>
    match cu.todo with
    | [] => .ok s cu
    | act :: _ =>
      match s.doAct c cu act with
      | .ok t cu' =>
        (match State.runActs f t c cu' with
         | .trap u x => .trap (if s.localAmo act then u.restore c cu' act else u) x
         | .wait u cu'' => if s.localAmo act then .wait (u.restore c cu' act) cu else .wait u cu''
         | r => r)
      | r => r

end Sys2Proof.Machine
end

