-- ==== Sys2Proof/Machine/Execute.lean ====
section
/-!
DEFINITION. Bundles (spec/03 R71 to R75, R84 to R91; spec/04; spec/06 R162 to R184): the results of syllables, commit,
trap and interrupt entry, and the running of bundles that are given to a core or fetched by it.
-/

namespace Sys2Proof.Machine

/-! ## Results -/

/-- What the syllables of a bundle write: general and vector registers and accumulators in unit order, and flags. -/
structure Wb where
  g : List (RegNo × PW)
  v : List (RegNo × VReg)
  acc : List (RegNo × Ream)
  flags : FFlags

/-- Nothing is written. -/
def Wb.none : Wb := ⟨[], [], [], 0⟩
/-- A general register is written. -/
def Wb.toG (r : RegNo) (w : PW) : Wb := ⟨[(r, w)], [], [], 0⟩
/-- A vector register is written, with flags. -/
def Wb.toV (r : RegNo) (x : VReg × FFlags) : Wb := ⟨[], [(r, x.1)], [], x.2⟩
/-- An accumulator is written. -/
def Wb.toA (r : RegNo) (a : Ream) : Wb := ⟨[], [], [(r, a)], 0⟩
/-- Both writes, the second syllable's later (R74). -/
def Wb.also (x y : Wb) : Wb := ⟨x.g ++ y.g, x.v ++ y.v, x.acc ++ y.acc, x.flags ||| y.flags⟩

/-- What a load writes from its bytes (R108). -/
def LdK.result (o : LdK) (bs : List Byte) (pz : List Bool) : PW :=
  let n := ofBytes bs
  let v : Word := match o with
    | .ld8 => sextN 8 n
    | .ld16 => sextN 16 n
    | .ld32 => sextN 32 n
    | _ => BitVec.ofNat 64 n
  ⟨v, pz.any id⟩

/-- What VLD writes: one element for each 8 bytes (R108). -/
def vldResult (bs : List Byte) (pz : List Bool) : VReg :=
  .ofElems ((numsFrom 0 8).map fun j =>
    ⟨BitVec.ofNat 64 (ofBytes ((bs.drop (8 * j)).take 8)), ((pz.drop (8 * j)).take 8).any id⟩)

/-- What RM.LD writes (R155). -/
def rmldResult (bs : List Byte) (pz : List Bool) : Ream :=
  if (pz.take 16).any id then Ream.poisoned else Ream.ofBytes bs (pz.any id)

/-- What SLEEP returns (R413): `got` is what a NAP came to. -/
def sleepCode (req : Nat) (got : List Byte) : Nat := if req = 0 then 0 else if req = 1 then ofBytes got else 4

/-- What EPOCH returns (R373): `got` is what a MARK came to. -/
def State.epochResult (s : State) (req : Nat) (got : List Byte) : Word :=
  if req = 0 then s.epochWord 0 else if req = 1 then BitVec.ofNat 64 (ofBytes got) else s.epochWord 4

/-- What an operation writes on core `c`, whose registers are those of `k` before the bundle (R73, R94): `ret` is the
address behind the bundle, `bs` and `pz` what its accesses returned. -/
def State.result (s : State) (c : Nat) (k : Core) (ret : Word) (bs : List Byte) (pz : List Bool) (op : Op) : Wb :=
  match op with
  | .alu o d a b => .toG d (o.run (k.rg d) (k.rg a) (k.sv b))
  | .alu3 o d a b => .toG d (o.run (k.rg d) (k.rg a) (k.rg b))
  | .cnt o d a => .toG d (o.run (k.rg a))
  | .ldi h d i => .toG d (ldiRun h (k.rg d) i)
  | .ld o d _ _ => .toG d (o.result bs pz)
  | .vld d _ _ => .toV d (vldResult bs pz, 0)
  | .amo _ d _ _ => .toG d ⟨BitVec.ofNat 64 (ofBytes bs), pz.any id⟩
  | .call _ => .toG 63 ⟨ret, false⟩
  | .callr d _ => .toG d ⟨ret, false⟩
  | .vfma d a b na np ty => .toV d (vfma k.fenv ty na np (k.vr d) (k.vr a) (k.vr b))
  | .vf o d a b ty => .toV d (vf o k.fenv ty (k.vr a) (k.vr b))
  | .vcvt d a src f => .toV d (vcvt k.fenv src.toNat f.toNat (k.vr a))
  | .vcmp d a b p ty => .toV d (vcmp p.toNat ty (k.vr a) (k.vr b))
  | .vi o d a b w => .toV d (vi o (viWidth w) (k.vr a) (k.vr b), 0)
  | .vpermb d a b => .toV d (vpermb (k.vr a) (k.vr b), 0)
  | .vbcast d a ty => .toV d (vbcast ty (k.rg a), 0)
  | .vmovg d a l ty => .toG d (vmovg ty l.toNat (k.vr a))
  | .vmovv d a => .toV d (k.vr a, 0)
  | .mf d n => .toG d ⟨s.sysRead c n.toNat, false⟩
  | .sleep d a => .toG d ⟨BitVec.ofNat 64 (sleepCode ((k.rg a).val.toNat % 16) bs), false⟩
  | .epoch d a => .toG d ⟨s.epochResult ((k.rg a).val.toNat % 16) bs, false⟩
  | .rmClr d => .toA d Ream.clear
  | .rmNeg d => .toA d (k.ac d).neg
  | .rmStat d a => .toG d ⟨(k.ac a).status, false⟩
  | .rmAddv d a => .toA d ((k.ac d).addv (k.vr a))
  | .rmFma4 d a b hi => .toA d ((k.ac d).fma4 hi (k.vr a) (k.vr b))
  | .rmMerge d a => .toA d ((k.ac d).merge (k.ac a))
  | .rmRnd d a f =>
    let r := (k.ac a).rnd f.toNat k.fenv
    ⟨[(d, r.1)], [], [], r.2⟩
  | .rmLd d _ => .toA d (rmldResult bs pz)
  | _ => .none

/-- What a whole bundle writes. -/
def State.results (s : State) (c : Nat) (k : Core) (cu : Cur) : Wb :=
  (numsFrom 0 cu.syls.length).foldl (fun w i =>
    w.also (s.result c k (behind cu.addr cu.syls) (cu.bytes i) (cu.poison i) (cu.op i))) Wb.none

/-- Write a general register; g0 discards (R64). -/
def Core.setG (k : Core) (r : RegNo) (w : PW) : Core := if r = 0 then k else { k with g := k.g.set r.toNat w r.isLt }

/-- Write a vector register. -/
def Core.setV (k : Core) (r : RegNo) (x : VReg) : Core :=
  { k with v := k.v.set (r.toNat % 32) x (Nat.mod_lt _ (by decide)) }

/-- Write an accumulator. -/
def Core.setA (k : Core) (r : RegNo) (x : Ream) : Core :=
  { k with acc := k.acc.set (r.toNat % 4) x (Nat.mod_lt _ (by decide)) }

/-- Write registers in order (R74). -/
def Core.writeRegs (k : Core) (w : Wb) : Core :=
  let k := w.g.foldl (fun k p => k.setG p.1 p.2) k
  let k := w.v.foldl (fun k p => k.setV p.1 p.2) k
  w.acc.foldl (fun k p => k.setA p.1 p.2) k

/-- FPSTAT takes raised flags (R117). -/
def Core.raise (k : Core) (f : FFlags) : Core := k.sysWr 0x031 (k.sysRd 0x031 ||| f.setWidth 64)

/-- Hardware sets of VDIRTY and RDIRTY (R74, R142). -/
def Core.dirty (k : Core) (w : Wb) : Core :=
  let k := if w.v.isEmpty then k else k.setSf 0x010 fVDIRTY 1
  if w.acc.isEmpty then k else k.setSf 0x010 fRDIRTY 1

/-! ## Check words of the register files (R67) -/

/-- First check word of general register `r` in `Core.flips`. -/
def gWord (r : RegNo) : Nat := 2 * r.toNat
/-- First check word of a vector register. -/
def vWord (r : RegNo) : Nat := 128 + 16 * (r.toNat % 32)
/-- First check word of an accumulator: two for each limb. -/
def aWord (r : RegNo) : Nat := 640 + 134 * (r.toNat % 4)

/-- The registers an operation reads: general and vector registers, and accumulators. -/
def Op.reads : Op → List RegNo × List RegNo × List RegNo
  | .alu o d a b => (a :: (match b with | .reg r => [r] | .imm _ => []) ++ (if o = .csel then [d] else []), [], [])
  | .alu3 o d a b => ((if o = .bfi then [d] else []) ++ [a, b], [], [])
  | .cnt _ _ a => ([a], [], [])
  | .ldi h d _ => (if h then [d] else [], [], [])
  | .ld _ _ a b => (a :: (match b with | .reg r => [r] | .imm _ => []), [], [])
  | .st _ d a b => (d :: a :: (match b with | .reg r => [r] | .imm _ => []), [], [])
  | .vld _ a b => (a :: (match b with | .reg r => [r] | .imm _ => []), [], [])
  | .vst d a b => (a :: (match b with | .reg r => [r] | .imm _ => []), [d], [])
  | .pref _ a b => (a :: (match b with | .reg r => [r] | .imm _ => []), [], [])
  | .amo o d a b => ((if o = .cas then [d] else []) ++ [a, b], [], [])
  | .jr a => ([a], [], [])
  | .callr _ a => ([a], [], [])
  | .ret a => ([a], [], [])
  | .bz _ d _ => ([d], [], [])
  | .vfma d a b _ _ _ => ([], [d, a, b], [])
  | .vf _ _ a b _ => ([], [a, b], [])
  | .vcvt _ a _ _ => ([], [a], [])
  | .vcmp _ a b _ _ => ([], [a, b], [])
  | .vi _ _ a b _ => ([], [a, b], [])
  | .vpermb _ a b => ([], [a, b], [])
  | .vbcast _ a _ => ([a], [], [])
  | .vmovg _ a _ _ => ([], [a], [])
  | .vmovv _ a => ([], [a], [])
  | .mt d _ => ([d], [], [])
  | .iflushRange a b => ([a, b], [], [])
  | .sleep _ a => ([a], [], [])
  | .epoch _ a => ([a], [], [])
  | .rmNeg d => ([], [], [d])
  | .rmStat _ a => ([], [], [a])
  | .rmAddv d a => ([], [a], [d])
  | .rmFma4 d a b _ => ([], [a, b], [d])
  | .rmMerge d a => ([], [], [d, a])
  | .rmRnd _ a _ => ([], [], [a])
  | .rmSt d a => ([a], [], [d])
  | .rmLd _ a => ([a], [], [])
  | _ => ([], [], [])

/-- General register `r` is read under its upsets: corrected and rewritten, or poisoned (R67), with the errors found. -/
def Core.checkG (k : Core) (r : RegNo) : Core × List Upset :=
  let w := k.rg r
  let f := k.flips.part (gWord r) 2
  let x := readFlips f 0 (toBytes 8 w.val.toNat) [w.poison, w.poison]
  if r = 0 || f.isEmpty then (k, [])
  else ({ k.setG r ⟨BitVec.ofNat 64 (ofBytes x.1), x.2.1.any id⟩ with flips := k.flips.without (gWord r) 2 }, x.2.2)

/-- A vector register is read under its upsets. -/
def Core.checkV (k : Core) (r : RegNo) : Core × List Upset :=
  let w := k.vr r
  let f := k.flips.part (vWord r) 16
  let x := readFlips f 0 (toBytes 64 w.val.toNat) ((numsFrom 0 16).map fun i => w.poison.getLsbD (i / 2))
  if f.isEmpty then (k, [])
  else
    let pz := packBits ((numsFrom 0 8).map fun j => x.2.1.getD (2 * j) false || x.2.1.getD (2 * j + 1) false)
    ({ k.setV r ⟨BitVec.ofNat 512 (ofBytes x.1), BitVec.ofNat 8 pz⟩ with flips := k.flips.without (vWord r) 16 }, x.2.2)

/-- An accumulator is read under its upsets. -/
def Core.checkA (k : Core) (r : RegNo) : Core × List Upset :=
  let w := k.ac r
  let f := k.flips.part (aWord r) 134
  let x := readFlips f 0 (toBytes 536 w.value.toNat) (List.replicate 134 w.poison)
  if f.isEmpty then (k, [])
  else ({ k.setA r { w with value := BitVec.ofNat 4288 (ofBytes x.1), poison := x.2.1.any id } with
            flips := k.flips.without (aWord r) 134 }, x.2.2)

/-- The registers that a bundle reads are corrected or poisoned, and the errors counted (R67, R260). -/
def State.checkRegs (s : State) (c : Nat) (ys : List Syl) : State :=
  if (s.core c).flips.isEmpty then s
  else
    let one (f : Core → RegNo → Core × List Upset) (base : RegNo → Nat) (s : State) (r : RegNo) : State :=
      let x := f (s.core c) r
      (s.setCore c x.1).logCore c 3 (base r) x.2
    ys.foldl (fun s y =>
      let rs := y.op.reads
      let s := rs.1.foldl (one Core.checkG fun r => 8 * r.toNat) s
      let s := rs.2.1.foldl (one Core.checkV fun r => 64 * (r.toNat % 32)) s
      rs.2.2.foldl (one Core.checkA fun r => 536 * (r.toNat % 4)) s) s

/-- Registers that a bundle writes are encoded afresh. -/
def Core.freshRegs (k : Core) (w : Wb) : Core :=
  if k.flips.isEmpty then k
  else
    let f := w.g.foldl (fun (f : Flips) p => f.without (gWord p.1) 2) k.flips
    let f := w.v.foldl (fun (f : Flips) p => f.without (vWord p.1) 16) f
    { k with flips := w.acc.foldl (fun (f : Flips) p => f.without (aWord p.1) 134) f }

/-! ## Next address -/

/-- Whether the transfer of a bundle is taken (R116). -/
def Core.takes (k : Core) : Op → Bool
  | .bz nz d _ => ((k.rg d).val != 0) == nz
  | _ => true

/-- The address that follows a bundle without ERET (R116). -/
def Core.nextPc (k : Core) (a : Word) (ys : List Syl) : Word :=
  match bOf ys with
  | none => behind a ys
  | some o =>
    match k.jump? o with
    | some t => t
    | none => if k.takes o then o.dest a (behind a ys) else behind a ys

/-! ## Events (R190) -/

/-- Events of a syllable. -/
def Op.events : Op → List (Nat × Nat)
  | .vfma _ _ _ _ _ ty => if ty = .fp64 then [(0x15, 16)] else []
  | .vf _ _ _ _ ty => if ty = .fp64 then [(0x15, 8)] else []
  | .rmFma4 _ _ _ _ => [(0x16, 4)]
  | .specbar => [(0x17, 1)]
  | .iflushAll => [(0x18, 1)]
  | .iflushRange _ _ => [(0x18, 1)]
  | _ => []

/-- Events of a committed bundle; those of its transfer are `tr`. -/
def Cur.allEvents (cu : Cur) (tr : List (Nat × Nat)) : List (Nat × Nat) :=
  let n := cu.syls.length
  let cross := if cu.addr.toNat / 64 ≠ (cu.addr.toNat + 4 * n - 1) / 64 then [(0x0A, 1)] else []
  [(0x01, 1), (0x02, n)] ++ cross ++ cu.syls.flatMap (fun y => y.op.events) ++ cu.events ++ tr

/-- The system register that a bundle's SYS.MT writes, and the data (R134). -/
def Core.mtOf (k : Core) (ys : List Syl) : Option (Nat × Word) :=
  ys.findSome? fun y => match y.op with | .mt d n => some (n.toNat, (k.rg d).val) | _ => none

/-- Count a bundle's events under the settings before it, then perform its SYS.MT (R192): a counter it writes counts
nothing, and an OVF that the count sets stays set. -/
def Core.countAndWrite (k : Core) (evs : List (Nat × Nat)) (mt : Option (Nat × Word)) : Core :=
  match mt with
  | none => k.countAll k.pl false none evs
  | some (n, v) =>
    let x := k.countAll k.pl false (if 0x078 ≤ n && n ≤ 0x07F then some (n - 0x078) else none) evs
    let y := x.sysWrite k.pl n v
    if 0x070 ≤ n && n ≤ 0x077 && (x.sysRd (n + 8)).toNat < (k.sysRd (n + 8)).toNat then y.setSf n ⟨31, 31⟩ 1 else y

/-! ## IFLUSH (R182) -/

/-- The lines that the range form names: those of each 64-byte line of the range that could be fetched. -/
def State.flushLines (s : State) (c : Nat) (k : Core) (a n : Nat) : List Nat :=
  let hi := min (a + n) (2 ^ 64)
  if n = 0 then []
  else (numsFrom (a / 64) ((hi + 63) / 64 - a / 64)).filterMap fun l =>
    match k.walk (BitVec.ofNat 64 (l * 64)) with
    | some r => if k.grants .fetch r.2 && s.fetchable c r.1 then some (r.1 % 2 ^ 40 / 64) else none
    | none => none

/-- The line buffer and the bundle queue are invalidated, with L1I lines by the form; a fill that is asked for is
dropped (R184). -/
def State.iflush (s : State) (c : Nat) (k0 : Core) (op : Op) : State :=
  let all (k : Core) : Core := { k with lineBuf := [], bundles := [], ask := none }
  match op with
  | .iflushAll => s.updCore c fun k => { all k with l1i := [] }
  | .iflushRange a b =>
    let n := (k0.rg b).val.toNat
    if 2 ^ 20 < n then s.updCore c fun k => { all k with l1i := [] }
    else
      let ls := s.flushLines c k0 (k0.rg a).val.toNat n
      s.updCore c fun k => { all k with l1i := k.l1i.filter fun x => !ls.contains x.line }
  | _ => s

/-! ## Commit -/

/-- Train the predictor on the transfer of a committed bundle, and note a mispredict (R171, R179). -/
def Core.resolve (k : Core) (cu : Cur) (taken : Bool) (next free : Word) : Core :=
  match bOf cu.syls with
  | none => k
  | some o =>
    match o.transfer with
    | none => k
    | some kind =>
      let p := k.pred.train cu.addr kind cu.pr taken next free
      let h := if kind = 0 then (taken :: cu.pr.hist).take 256 else cu.pr.hist
      let right := cu.pr.next = next && (kind != 0 || cu.pr.taken == taken)
      { k with pred := p, misp := if right then k.misp else some (h, cu.pr.top) }

/-- The held fills of a bundle enter L1D when it commits (R177). -/
def Core.takeFills (k : Core) : Core := { k with l1d := k.fills.foldl putLine k.l1d, fills := [] }

/-- A bundle holds ERET. -/
def hasEret (ys : List Syl) : Bool := ys.any fun y => y.op == .eret

/-- The bundles of the queue are predicted anew under a cleared predictor (R171): what follows one that now goes
elsewhere is dropped and fetched again. -/
def Core.predictAgain (k : Core) : List Fetched → Core
  | [] => k
  | b :: r =>
    let p := if b.fault.isSome then (k.pred, { b.pr with hist := k.pred.hist, top := k.pred.top }) else k.pred.predict b.addr b.syls
    let k : Core := { k with pred := p.1, bundles := k.bundles ++ [{ b with pr := p.2 }] }
    match r with
    | [] => k
    | n :: _ => if n.addr = p.2.next then k.predictAgain r else k

/-- A bundle's SYS.MT has set CORE_CTL.PRED_FLUSH. -/
def flushesPred (mt : Option (Nat × Word)) : Bool := match mt with | some (n, v) => n == 0x040 && v.getLsbD 4 | none => false

/-- The registers and system state of a core after its bundle commits (R73, R74, R117, R134, R90, R116). -/
def State.committed (s : State) (c : Nat) (cu : Cur) : Core :=
  let k := s.core c
  let w := s.results c k cu
  let next := k.nextPc cu.addr cu.syls
  let taken := match bOf cu.syls with | some o => k.takes o | none => false
  let tr := match bOf cu.syls with
    | some o => (match o.transfer with | some kind => transferEvents kind cu.pr taken next | none => [])
    | none => []
  let k' := (((k.writeRegs w).freshRegs w).resolve cu taken next (Config.freeWord s.freeTick)).takeFills
  let k' := ((k'.countAndWrite (cu.allEvents tr) (k.mtOf cu.syls)).raise w.flags).dirty w
  let k' := if flushesPred (k.mtOf cu.syls) then
      ({ k' with bundles := [], misp := k'.misp.map fun _ => ([], 0) } : Core).predictAgain k'.bundles
    else k'
  let k' : Core := { k' with cur := none, sb := k'.sb ++ cu.stores, waiting := false, sleeping := false, pc := next }
  if hasEret cu.syls then { k'.eret with bundles := [], lineBuf := [], ask := none } else k'

/-- The home slice of a held fill is sent an allocating fill (R177). -/
def State.sliceFill (s : State) (c : Nat) (x : CLine) : State :=
  let r := s.memRead (coreWho c) true (x.line * 64) 64
  if r.ans = .ok then r.st else s

/-- A bundle commits: its core's state, its fills, its flushes, and its words for the gather buffer. -/
def State.commit (s : State) (c : Nat) (cu : Cur) : State :=
  let k := s.core c
  let t := k.fills.foldl (fun t x => t.sliceFill c x) (s.setCore c (s.committed c cu))
  let t := if (bOf cu.syls).isSome then t.tick else t
  let t := cu.syls.foldl (fun t y => t.iflush c k y.op) t
  cu.pushes.foldl (fun t e => t.gatherStore c e) t

/-! ## Traps and interrupts -/

/-- A mispredict that awaits its recovery is recovered (R179 step 3, R180). -/
def Core.recover (k : Core) : Core :=
  match k.misp with
  | none => k
  | some (h, top) => { k with misp := none, pred := { k.pred with hist := h, top := top } }

/-! ## Bundles that never commit (R171 to R173, R190) -/

/-- A bundle that had issued is discarded on a wrong path: its events count there, poisoned operands that would have
bitten among them, and a transfer that has resolved (bit 0 of `free`) trains the predictor unless SPEC_FILL_HOLD is 1. -/
def Core.squash (k : Core) (b : Fetched) (free : Word) : Core :=
  if !b.issued then k
  else
    let n := b.syls.length
    let stores := (b.syls.map fun y => match k.ext y.op with
      | some x => if x.want = .store then (vparts x.ea x.n).length else 0
      | none => 0).foldl (· + ·) 0
    let bad := (b.syls.filter fun y => k.bites y.op).length
    let next := k.nextPc b.addr b.syls
    let tr : Option (Nat × Bool) := match bOf b.syls with
      | some o => if free.getLsbD 0 then o.transfer.map fun kind => (kind, k.takes o) else none
      | none => none
    let evs := [(0x01, 1), (0x02, n), (0x11, stores), (0x1A, bad)] ++ b.events ++ b.syls.flatMap (fun y => y.op.events)
      ++ (match tr with | some t => transferEvents t.1 b.pr t.2 next | none => [])
    let k := k.countAll k.pl true none evs
    match tr with
    | some t =>
      if (k.sysRd 0x040).getLsbD 0 then k else { k with pred := k.pred.train b.addr t.1 b.pr t.2 next (free >>> 1) }
    | none => k

/-- The bundles of core `c`'s queue turn out to lie on a wrong path. -/
def State.squash (s : State) (c : Nat) : State :=
  if (s.core c).bundles.any Fetched.issued then
    (s.core c).bundles.foldl (fun s b => (s.updCore c fun k => k.squash b (Config.freeWord s.freeTick)).tick) s
  else s

/-- What stands between bundles of a core is dropped, and fetch restarts (R89 step 6, R91). -/
def Core.restart (k : Core) : Core :=
  { k.recover with cur := none, bundles := [], fills := [], lineBuf := [], ask := none, waiting := false, sleeping := false, sleepRes := none, resp := none }

/-- The trapping syllable's word and slot, and the length of its bundle; 0 for a fetch cause. -/
def Trap.place (t : Trap) (ys : List Syl) : Nat × Nat × Word :=
  match t.slot with
  | none => (0, 0, 0)
  | some i => (ys.length, i, match ys[i]? with | some y => y.word.setWidth 64 | none => 0)

/-- A trap of the bundle at `a` is entered (R88, R89, R200). -/
def Core.trap (k : Core) (a : Word) (ys : List Syl) (t : Trap) : Core :=
  let k := (k.countAll k.pl false none [(0x1B, 1)]).restart
  let p := t.place ys
  let k := if t.code = 5 || t.code = 6 || t.code = 7 then k.setSf 0x051 fVPN (nbits 55 16 t.bad.toNat) else k
  k.enterTrap (k.trapLevel t.code t.mtrap) a false t.code p.1 p.2.1 t.bad p.2.2

/-- A bundle of core `c` traps. -/
def State.takeTrap (s : State) (c : Nat) (a : Word) (ys : List Syl) (t : Trap) : State :=
  (s.squash c).updCore c fun k => k.trap a ys t

/-- An interrupt with TRAP_ROUTE bit `route` can be taken at the core's level and IE (R88). -/
def Core.takesInt (k : Core) (route : Nat) : Bool :=
  let ie := k.sf 0x010 fIE = 1
  if (k.sysRd 0x026).getLsbD route then decide (k.pl < 2) || ie
  else k.pl == 0 || (k.pl == 1 && ie)

/-- The interrupt that core `c` can take now: code and TRAP_ROUTE bit, EVENT first (R88). -/
def State.interrupt? (s : State) (c : Nat) : Option (Nat × Nat) :=
  let k := s.core c
  if s.eventPending c && k.takesInt 16 then some (1, 16)
  else if k.perfOvf && k.takesInt 17 then some (2, 17)
  else none

/-- Counters of time event `e` advance by `n`, whatever their PATH (R189, R190). -/
def Core.countTime (k : Core) (e n : Nat) : Core :=
  let pl := k.pl
  (numsFrom 0 8).foldl (fun k i =>
    if k.counts i pl e false || k.counts i pl e true then k.advance i n else k) k

/-- An interrupt is entered: a bundle in progress is abandoned, and EPC is the address of the next one to execute. -/
def Core.interrupt (k : Core) (code route : Nat) : Core :=
  let k := (k.countTime 0x1C 1).restart
  k.enterTrap (if (k.sysRd 0x026).getLsbD route || k.pl = 2 then 2 else 1) k.pc true code 0 0 0 0

/-- The bundle in progress of core `c` may be abandoned (R91). -/
def Core.abandonable (k : Core) : Bool :=
  match k.cur with
  | none => true
  | some cu => !cu.fixed

/-! ## Running -/

/-- Bring a bundle in progress as far as it goes: committed, trapped, or waiting. -/
def State.advance (s : State) (c : Nat) (cu : Cur) : State :=
  match State.runActs 64 s c cu with
  | .ok s cu => s.commit c cu
  | .wait s cu => s.updCore c fun k => { k with cur := some cu }
  | .trap s t => s.takeTrap c cu.addr cu.syls t

/-- An interrupt is taken (R88, R91) where it is pending, can be taken, and finds no bundle that must first commit or
trap. A push held for a slot leaves nothing at its queue. -/
def State.enterInterrupt (s : State) (c : Nat) : State :=
  match s.interrupt? c with
  | none => s
  | some (code, route) =>
    if (s.core c).abandonable then
      (s.squash c).updCore c fun k => k.interrupt code route
    else s

/-- An interrupt reaches core `c` (R91, R136, R416): a bundle held in WAIT or SLEEP commits before it. -/
def State.takeInterrupt (s : State) (c : Nat) : State :=
  let k := s.core c
  if !(k.running && s.coreOn c) || (s.interrupt? c).isNone then s
  else
    match k.cur with
    | some cu => (if k.waiting || k.sleeping then s.advance c cu else s).enterInterrupt c
    | none => s.enterInterrupt c

/-- A bundle at the pc of core `c` starts (R85, R86): it traps, or its accesses begin; `pred` is the predictor once the
bundle has been predicted. -/
def State.start (s : State) (c : Nat) (pred : Pred) (ys : List Syl) (fault : Option (Nat × Word)) (pr : Predn)
    (evs : List (Nat × Nat)) (fills : List CLine) : State :=
  let s := s.checkRegs c ys
  let k := s.core c
  let t := s.setCore c { k with pred := pred, fills := fills }
  match s.cause c k k.pc ys fault with
  | some x => t.takeTrap c k.pc ys x
  | none =>
    t.advance c { addr := k.pc, syls := ys, todo := s.acts c k ys, got := [], stores := [], pushes := [], events := evs,
                  pr := pr, sent := false, fixed := false, behind := false }

/-- A mispredict is recovered (R179): the bundle queue and the line buffer are discarded, and history and top restored. -/
def State.mispredict (s : State) (c : Nat) : State :=
  if (s.core c).misp.isSome then
    (s.squash c).updCore c fun k => { k.recover with bundles := [], lineBuf := [], ask := none }
  else s

/-- A bundle given to core `c` runs at its pc, behind the recovery of an older mispredict, with the prediction made for
it. -/
def State.startGiven (s : State) (c : Nat) (ys : List Syl) : State :=
  let s := s.mispredict c
  let k := s.core c
  let p := k.pred.predict k.pc ys
  s.start c p.1 ys (s.fetchFault c k k.pc ys.length) p.2 [] []

/-- Core `c` goes on: with its bundle in progress, then with bundles given to it while it waited, then with fetched
ones at its pc. An interrupt that can be taken is taken before the next bundle starts (R88, R91). -/
def State.resume : Nat → State → Nat → State
  | 0, s, _ => s
  | f + 1, s, c =>
    let k := s.core c
    if !k.running then s.resetDone c
    else if !s.coreOn c then s
    else
      match k.cur with
      | some cu =>
        let t := s.advance c cu
        if (t.core c).cur.isSome then t else t.resume f c
      | none =>
        if (s.interrupt? c).isSome && !(k.late.isEmpty && k.bundles.isEmpty) then (s.enterInterrupt c).resume f c
        else
          match k.late with
          | ys :: r => ((s.setCore c { k with late := r }).startGiven c ys).resume f c
          | [] =>
            match k.bundles with
            | b :: r =>
              if b.addr = k.pc && k.misp.isNone then
                ((s.setCore c { k with bundles := r }).start c k.pred b.syls b.fault b.pr b.events b.fills).resume f c
              else s
            | [] => s

/-- Core `c` goes on as far as it can: at most one bundle in progress, those given, and those fetched. -/
def State.go (s : State) (c : Nat) : State := s.resume ((s.core c).late.length + (s.core c).bundles.length + 4) c

end Sys2Proof.Machine

namespace Sys2Proof

/-- The unit of a syllable in a pair of units. -/
def Slot.unit (sl : Slot) (u : Nat) : Nat := if sl.odd then u + 1 else u

end Sys2Proof

namespace Sys2Proof.Machine

/-- A whole bundle is given to core `c`: it runs behind the bundles that already wait. -/
def State.giveBundle (s : State) (c : Nat) (ys : List Syl) : State :=
  (s.updCore c fun k => { k with forming := [], late := k.late ++ [ys] }).go c

/-- A syllable is given to core `c` (R68, R71): its bundle ends at a stop bit or at the eighth syllable. A core that is
not running takes none. -/
def State.giveSyl (s : State) (c : Nat) (y : Syl) : State :=
  let k := s.core c
  if !k.running then s
  else
    let ys := k.forming ++ [y]
    if y.stop || ys.length = 8 then s.giveBundle c ys else s.setCore c { k with forming := ys }

/-- A syllable of unit `u` is given to the core of `sl`. -/
def State.give (s : State) (sl : Slot) (u : Nat) (op : Op) : State := s.giveSyl sl.core ⟨u, sl.stop, op⟩

end Sys2Proof.Machine
end

