-- ==== Sys2Proof/Machine/Fetch.lean ====
section
/-!
DEFINITION. The front end of a core as events (spec/06 R163 to R166, R177, R179; spec/07 R205): line fills, the forming
of bundles from the line buffer, mispredict recovery, and what an empty command queue lets go on (assumption log
entry 26).
-/

namespace Sys2Proof.Machine

/-! ## L1I (R163, R164, R166) -/

/-- Address `a` holds a syllable of the bundle that core `k` fetches at its pc. -/
def State.atFetch (s : State) (c : Nat) (k : Core) (a : Nat) : Bool :=
  (numsFrom 0 8).any fun i =>
    let va := k.pc + BitVec.ofNat 64 (4 * i)
    (s.fetchCause c k va).isNone && (match k.walk va with | some r => r.1 / 64 == a / 64 | none => false)

/-- A fill of the flash window may be sent (R163): no older bundle is uncommitted, so that the fetch lies on no wrong
path. -/
def State.flashFetch (s : State) (c : Nat) (k : Core) (a : Nat) : Bool :=
  k.cur.isNone && k.late.isEmpty && k.misp.isNone && k.bundles.isEmpty && s.atFetch c k a

/-- A filled line enters L1I as its set's most recently used line, and the line buffer where it is the one asked for
(R165). -/
def Core.takeLine (k : Core) (x : CLine) : Core :=
  let k : Core := { k with l1i := putLine k.l1i x, missed := k.missed + 1 }
  if k.ask = some x.line then { k with ask := none, lineBuf := (k.lineBuf ++ [x]).take 2 } else k

/-- A fill of the L1I line of physical address `a`, which L1I does not hold: from a home slice, a segment, the flash
window, or a service core's own memories. A refused line arrives poisoned (R164, R423). -/
def State.l1iFill (s : State) (c a : Nat) : State :=
  let k := s.core c
  let base := a / 64 * 64
  let l := base % 2 ^ 40 / 64
  if !k.running || !s.coreOn c || !s.fetchable c a || (k.l1i.any fun x => x.line == l)
      || (s.region c a == .flash && !s.flashFetch c k a) then s
  else
    let r := s.memRead (coreWho c) true (base % 2 ^ 40) 64
    match r.ans with
    | .ok => r.st.updCore c fun k => k.takeLine ⟨l, false, r.bytes, (numsFrom 0 16).map fun i => r.poison.getD i false, []⟩
    | .held => r.st
    | _ => r.st.updCore c fun k => k.takeLine ⟨l, false, List.replicate 64 0, List.replicate 16 true, []⟩

/-- A line of L1I as it is read (R166): corrected; none where it holds an uncorrectable error, with the errors found. -/
def CLine.fetched (x : CLine) : Option CLine × List Upset :=
  if x.flips.isEmpty then (some x, [])
  else
    let r := readFlips x.flips 0 x.data x.poison
    (if spoilt r.2.2 then none else some { x with data := r.1, poison := r.2.1, flips := [] }, r.2.2)

/-- Fetch at the address `va` reads the lines of up to eight syllables: the errors they hold are counted, and a line with
an uncorrectable one is invalidated and fetched again (R166). -/
def State.checkFetch (s : State) (c : Nat) (va : Word) : State :=
  let k := s.core c
  let bad := k.l1i.filter fun x => !x.flips.isEmpty && !(k.lineBuf.any fun y => y.line == x.line) &&
    (numsFrom 0 8).any fun i => match k.walk (va + BitVec.ofNat 64 (4 * i)) with
      | some r => r.1 % 2 ^ 40 / 64 == x.line
      | none => false
  bad.foldl (fun s x =>
    let s := s.logLine c 2 x.line x.fetched.2
    if x.fetched.1.isNone then s.updCore c fun k => { k with l1i := k.l1i.filter fun y => y.line != x.line } else s) s

/-! ## Forming bundles (R71, R165) -/

/-- The line of L1I or the line buffer that fetch reads; the line buffer's copy first (R181). -/
def Core.fetchLine (k : Core) (l : Nat) : Option CLine :=
  match k.lineBuf.find? fun x => x.line == l with
  | some x => some x
  | none => (k.l1i.find? fun x => x.line == l).bind fun x => x.fetched.1

/-- What reading a bundle comes to: its syllables, the cause its fetch met, and the lines it used; or a line that must
first be filled. -/
inductive Formed where
  | bundle (ys : List Syl) (fault : Option (Nat × Word)) (lines : List CLine)
  | missing

/-- Read up to `n` more syllables at `va` (R85 rows 1 to 3): up to the first stop bit, or the first syllable that has
no entry, may not be executed or is poisoned. -/
def State.form (s : State) (c : Nat) (k : Core) : Nat → Word → List Syl → List CLine → Formed
  | 0, _, ys, ls => .bundle ys none ls
  | n + 1, va, ys, ls =>
    match s.fetchCause c k va, k.walk va with
    | some f, _ => .bundle ys (some f) ls
    | none, none => .missing
    | none, some r =>
      let a := r.1 % 2 ^ 40
      match k.fetchLine (a / 64) with
      | none => .missing
      | some x =>
        let ls := if ls.contains x then ls else ls ++ [x]
        let y := decodeSyl (BitVec.ofNat 32 (ofBytes ((x.data.drop (a % 64)).take 4)))
        if x.poison.getD (a % 64 / 4) false then .bundle ys (some (0x09, va)) ls
        else if y.stop then .bundle (ys ++ [y]) none ls
        else s.form c k n (va + 4) (ys ++ [y]) ls

/-- The address of the next bundle to form: behind the queue, the bundle in progress, or at the pc. -/
def Core.fetchPc (k : Core) : Word :=
  match k.bundles.getLast?, k.cur with
  | some b, _ => b.pr.next
  | none, some cu => cu.pr.next
  | none, none => k.pc

/-- The following line, which the front end asks for (R165): the line of `next` where the bundle at `a` does not lie in
it, else the sequential one. -/
def following (a next : Word) (n : Nat) : Word :=
  let last := a + BitVec.ofNat 64 (4 * (n - 1))
  if next.toNat / 64 = last.toNat / 64 then BitVec.ofNat 64 ((last.toNat / 64 + 1) * 64) else next

/-- Lines of L1I that fetch has read become their sets' most recently used (assumption log entry 58). -/
def Core.touchI (k : Core) (ls : List CLine) : Core :=
  ls.foldl (fun k y => match k.l1i.find? fun x => x.line == y.line with
    | some x => { k with l1i := putLine k.l1i x }
    | none => k) k

/-- The line buffer behind a bundle at `a` of `n` syllables that used lines `ls` (R165): its last line and the following
one, which L1I gives if it holds it and which is asked for otherwise. -/
def State.lineAhead (s : State) (c : Nat) (k : Core) (a next : Word) (n : Nat) (ls : List CLine) : Core :=
  let keep := match ls.getLast? with | some x => [x] | none => k.lineBuf.take 1
  let va := following a next n
  match s.fetchCause c k va, k.walk va with
  | none, some r =>
    let l := r.1 % 2 ^ 40 / 64
    (match k.fetchLine l with
     | some x => { k with ask := none, lineBuf := (keep ++ [x].filter fun y => !keep.contains y).take 2 }
     | none => { k with ask := some l, lineBuf := keep })
  | _, _ => { k with ask := none, lineBuf := keep }

/-- Form the next bundle (R165, R167): it enters the queue with its prediction. Nothing happens while the queue is
full, a line is missing, or a mispredict awaits its recovery. -/
def State.align (s : State) (c : Nat) : State :=
  let k := s.core c
  if !k.running || !s.coreOn c || k.misp.isSome then s
  else
    let stale := k.cur.isNone && (match k.bundles with | b :: _ => b.addr != k.pc | [] => false)
    let s := if stale then s.setCore c { k with bundles := [] } else s
    if 4 ≤ (s.core c).bundles.length then s
    else
      let s := s.checkFetch c (s.core c).fetchPc
      let k := s.core c
      let a := k.fetchPc
      match s.form c k 8 a [] [] with
      | .missing => s
      | .bundle ys fault ls =>
        let p := if fault.isSome then (k.pred, ⟨behind a ys, false, false, k.pred.hist, k.pred.top⟩) else k.pred.predict a ys
        let b : Fetched := ⟨a, ys, fault, if k.missed = 0 then [] else [(0x09, k.missed)], p.2, false, []⟩
        let k := s.lineAhead c (k.touchI ls) a p.2.next (max 1 ys.length) ls
        (s.setCore c { k with pred := p.1, bundles := k.bundles ++ [b], missed := 0 }).go c

/-! ## L1D fills of loads that run ahead (R172 to R178, R205) -/

/-- An operation is a load that may run ahead (R174). -/
def Op.ahead : Op → Bool
  | .ld _ _ _ _ => true
  | .vld _ _ _ => true
  | .rmLd _ _ => true
  | .pref _ _ _ => true
  | _ => false

/-- An operation stops what is younger from running ahead: SPECBAR (R176), a fence that holds back younger loads (R115),
a system-register write that governs them (R178), and what discards or redirects fetch. -/
def Op.holdsAhead : Op → Bool
  | .specbar => true
  | .fence f => f != .rel
  | .mt _ _ => true
  | .iflushAll => true
  | .iflushRange _ _ => true
  | .eret => true
  | .trap _ _ => true
  | .mtrap _ => true
  | _ => false

/-- Bundles older than `b` of the queue that have not committed. -/
def Core.olderThan (k : Core) (b : Nat) : List (List Syl) :=
  (match k.cur with | some cu => [cu.syls] | none => []) ++ k.late ++ (k.bundles.take b).map Fetched.syls

/-- Bundle `b` of the queue may issue ahead of older ones (R162, R176, R178). -/
def Core.issues (k : Core) (b : Nat) : Bool :=
  let older := k.olderThan b
  let unresolved := older.filter fun ys => match bOf ys with | some o => o.transfer.isSome | none => false
  !(older.any fun ys => ys.any fun y => y.op.holdsAhead) && unresolved.length ≤ 3
    && (!(k.sysRd 0x040).getLsbD 2 || unresolved.isEmpty)

/-- The line and attribute of a load at `va` by bundle `b` of the queue, where one of its loads may run ahead there: it
passes rows 8a to 8e and lies in cacheable local DRAM (R174). -/
def State.aheadLine (s : State) (c : Nat) (k : Core) (b : Fetched) (va : Word) : Option (Nat × Nat) :=
  let can := b.fault.isNone && (firstIllegal b.syls).isNone && (firstSyl b.syls (beyond k.pl)).isNone
    && b.syls.any fun y => y.op.ahead && !k.bites y.op
      && (s.accessCause c k 0 (match k.ext y.op with
           | some x => { x with ea := va, n := min x.n (64 - va.toNat % 64) }
           | none => ⟨.load, va, 1, false, false⟩)).isNone
  match can, k.walk va with
  | true, some r =>
    if s.isLocal r.1 && s.region c r.1 == .dram && attrOf r.2 != 1 then some (r.1 % 2 ^ 40 / 64, attrOf r.2) else none
  | _, _ => none

/-- Bundle `b` of the queue has issued, and those before it (R172); it has met events, and `x` waits in the fill buffer. -/
def Core.ranAhead (k : Core) (b : Nat) (evs : List (Nat × Nat)) (x : List CLine) : Core :=
  { k with bundles := (k.bundles.take b).map (fun f => { f with issued := true })
      ++ ((k.bundles.drop b).take 1).map (fun f => { f with issued := true, events := f.events ++ evs, fills := f.fills ++ x })
      ++ k.bundles.drop (b + 1) }

/-- Lines in the fill buffer (R177). -/
def Core.heldFills (k : Core) : Nat := k.fills.length + (k.bundles.map fun b => b.fills.length).foldl (· + ·) 0

/-- The fill of a load that bundle `b` of core `c`'s queue makes ahead of older bundles, at virtual address `va`,
returns: its line is installed in L1D and its home slice; with SPEC_FILL_HOLD it waits in the fill buffer for the
bundle's commit (R173, R177, R205). -/
def State.l1dFill (s : State) (c b : Nat) (va : Word) : State :=
  let k := s.core c
  let hold := (k.sysRd 0x040).getLsbD 0
  match k.bundles[b]? with
  | none => s
  | some f =>
    if !k.running || !s.coreOn c || !k.issues b || (hold && 8 ≤ k.heldFills) then s
    else
      match s.aheadLine c k f va with
      | none => s
      | some (l, attr) =>
        if (k.line? l).isSome || (f.fills.any fun x => x.line == l) then s
        else
          let r := s.memRead (coreWho c) (!hold) (l * 64) 64
          if r.ans ≠ .ok then r.st
          else
            let x : CLine := ⟨l, attr == 2, r.bytes, r.poison, []⟩
            let evs := (0x0C, 1) :: s.servedBy c (l * 64) ++ if hold then [(0x19, 1)] else []
            r.st.updCore c fun k =>
              if hold then k.ranAhead b evs [x] else { k.ranAhead b evs [] with l1d := putLine k.l1d x }

/-! ## Going on -/

/-- A store buffer entry drains, and its core goes on (R186). -/
def State.storeDrain (s : State) (c k : Nat) : State := (s.drainAt c k).go c

/-- Every core goes on as far as it can. -/
def State.goAll (s : State) : State := (s.cores.map (·.1)).foldl (fun s c => s.go c) s

/-- The time events that hold of core `k` (R190): in WAIT or not, a store that waits for a free entry, a younger bundle
behind one in progress, and nothing in the bundle queue. -/
def Core.timeEvents (k : Core) : List Nat :=
  let full := match k.cur with
    | some cu => (match cu.todo with | .room _ :: _ => true | _ => false)
    | none => false
  (if k.waiting then [0x1E] else [0x1D]) ++ (if full then [0x1F] else []) ++
    (if k.cur.isSome && !(k.bundles.isEmpty && k.late.isEmpty) then [0x20] else []) ++
    (if k.bundles.isEmpty && k.late.isEmpty then [0x21] else [])

/-- The time events of core `c` take the `d` tbu that have passed (R189, R190); they stand still in NAP. -/
def State.countTbu (s : State) (d c : Nat) : State :=
  if (s.core c).running && s.coreOn c then
    s.updCore c fun k => k.timeEvents.foldl (fun k e => k.countTime e d) k
  else s

/-- With no command waiting, 10 ns pass, the calibration passes and level ramps in progress go on, flits sent are in
codewords, and held engine writes, held control accesses, held PCIe requests and stalled bundles are tried again
(assumption log entries 4 and 26). -/
def State.idle (s : State) : State :=
  let t := s.clockTick
  let d := (t.clock.gt - s.clock.gt).toNat
  let s := if d = 0 then t else (t.cores.map (·.1)).foldl (fun s c => s.countTbu d c) t
  let s := (s.calPos.map (·.1)).foldl (fun s w => s.calRun w) s.ctrlRetry.rampsRun
  let s := (s.links.map (·.1)).foldl (fun s n => s.flushCodewords n) (s.engineRetry.atCouch State.reapplyRetry)
  (({ s with pcieHeld := [] } : State).pcieRetry s.pcieHeld).goAll

end Sys2Proof.Machine
end

