-- ==== Sys2Proof/Machine/Reach.lean ====
section
/-!
DEFINITION. How a command that is an access or an event reaches its unit: the queues of a tile, the event hub, the
router behind a link, a reset pin.
-/

namespace Sys2Proof.Machine

/-- How a queue of logical tile `t` answers requester `who`: the die fabrics on the way, the first that is off or holds
the access, then the tile (R22, R274, R423, R424). -/
inductive PortGate where
  | run (p : Nat)
  | sleeping (p : Nat)
  | held (p : Nat)
  | off (k : Nat)
  | absent
deriving DecidableEq, Repr

/-- The way of `who` to the queues of logical tile `t`; a command without a requester starts at the tile. -/
def State.portGate (s : State) (who : Option Who) (t : Nat) : PortGate :=
  let way : Nat → Gates := fun p => match who with
    | some w => s.fabricGates w (p / 17) (some p)
    | none => []
  match s.physTile t with
  | none => .absent
  | some p =>
    match (way p).find? fun g => g.2 == .off with
    | some g => .off g.1
    | none =>
      if (way p).any fun g => g.2 == .transition then .held p
      else
        match s.qgate t with
        | .run p => .run p
        | .sleeping p => .sleeping p
        | .off p => .off p
        | .absent => .absent

/-- An access to a queue of logical tile `t` (R274, R423, R424): done in RUN; a napping or entering tile is woken and
the access is to be sent again; nothing at an absent slot; the gate of what is OFF answers requester `who`. -/
def State.portDo (s : State) (who : Option Who) (t : Nat) (f : State → Nat → State) : State :=
  match s.portGate who t with
  | .run p => f s p
  | .sleeping p => s.wakeTile p 2 0
  | .off k => (match who with | some w => s.deckle w k | none => s)
  | .held _ => s
  | .absent => s

/-- A push through the port of queue `q` of logical tile `t` by a requester whose access is not a core's bundle
(R265, R267, R274). -/
def State.portPush (s : State) (t q : Nat) (who : Who) (last : Bool) (w : PW) : State :=
  let hold (s : State) (p : Nat) : State :=
    s.setQueue p q { s.queue p q with held := (s.queue p q).held ++ [⟨who, last, w⟩] }
  match s.portGate (some who) t with
  | .run p => s.push p q who last w
  | .sleeping p => hold (s.wakeTile p 2 0) p
  | .held p => hold s p
  | .off k => s.deckle who k
  | .absent => s

/-- A held push is accepted once the queue can take it and nothing on its way holds it (R267, R424). -/
def State.acceptAt (s : State) (p q : Nat) : State :=
  match s.acceptHeld p q with
  | (t, some w) => if s.wayOpen w p then t else s
  | (_, none) => s

/-- What a queue of logical tile `t` does by itself: only in RUN. -/
def State.ownDo (s : State) (t : Nat) (f : State → Nat → State) : State :=
  match s.qgate t with
  | .run p => f s p
  | _ => s

/-- An access to the event hub, done while its domain is on (R276, R289). -/
def State.atHub (s : State) (f : State → State) : State := if s.hubOn then f s else s

/-- The slice takes a flit from link `n`, and a packet that it ends (R314, R335). -/
def State.dequeued (s : State) (n : Nat) : State :=
  match s.flitDequeue n with
  | (s, none) => s
  | (s, some (vc, bs)) => s.packetIn (n / 36) vc bs

/-- ENUM at a member; the boot ROM that waits for it then sends BOOT_REQ (R392, R450 step 2). -/
def State.enumBoot (s : State) (p : Nat) : State :=
  let s := s.chainEnum p
  if s.phase = 4 then s.bootReq else s

/-- A whole frame arrives, 16 bytes and CRC behind the preamble: without that it is none; a bad one is discarded with
CHAIN_ERR (R391); others are acted on by their TYPE (R392, R393). -/
def State.chainFrame (s : State) (fromUp : Bool) (bs : List Byte) : State :=
  let f := (bs.drop 2).take 16
  let type := bytesAt f 0 1
  if !s.chainOn || bs.take 2 ≠ preamble then s
  else if bs.length ≠ 20 || crc16 f ≠ bs.drop 18 || type = 0 || (3 < type && type < 0x10) || 0x7F < type then
    s.chEvt CHAIN_EVT.ERR
  else if type = 1 then s.enumBoot (bytesAt f 4 1)
  else if type = 2 then s.chainEnumDone ⟨bytesAt f 2 1, bytesAt f 3 1, bytesAt f 4 1⟩
  else if type = 3 then s.chainAck fromUp (bytesAt f 1 1) (bytesAt f 2 1) (bytesAt f 3 1)
  else s.chainFirmware fromUp f

/-- PWRGD_MAIN falls (R398, R440): a device reset by it. -/
def State.mainFall (s : State) : State :=
  if s.power.aonGood && s.power.powerGood then s.deviceReset 3 else s

/-- A device reset by RST_N (2), PWRGD_MAIN (3) or a thermal trip (4); a pin that is low already resets nothing again. -/
def State.resetBy (s : State) (cause : Nat) : State :=
  if !s.power.aonGood || cause < 2 || 4 < cause then s
  else if cause = 2 && s.power.rstLow then s
  else if cause = 3 && !s.power.powerGood then s
  else s.deviceReset cause

end Sys2Proof.Machine
end

