-- ==== Sys2Proof/Machine/Access.lean ====
section
/-!
DEFINITION. Loads, stores, prefetches, atomics and fences of a core (spec/04, R108 to R115).
One meaning for each row, over the operations of the chapter it cites. A command that names no unit of the device
changes nothing (assumption log entry 27).
-/

namespace Sys2Proof.Machine

/-- LD8 (R108): LD8 loads one byte, sign-extended, from ea. -/
def execLd8 (sl : Slot) (d a : RegNo) (b : Src) (s : State) : Host.Outcome State Fault Refusal :=
  .next (s.give sl (sl.unit 2) (.ld .ld8 d a b))

/-- LD8U (R108): LD8U loads one byte, zero-extended, from ea. -/
def execLd8u (sl : Slot) (d a : RegNo) (b : Src) (s : State) : Host.Outcome State Fault Refusal :=
  .next (s.give sl (sl.unit 2) (.ld .ld8u d a b))

/-- LD16 (R108): LD16 loads two bytes, sign-extended, from ea. -/
def execLd16 (sl : Slot) (d a : RegNo) (b : Src) (s : State) : Host.Outcome State Fault Refusal :=
  .next (s.give sl (sl.unit 2) (.ld .ld16 d a b))

/-- LD16U (R108): LD16U loads two bytes, zero-extended, from ea. -/
def execLd16u (sl : Slot) (d a : RegNo) (b : Src) (s : State) : Host.Outcome State Fault Refusal :=
  .next (s.give sl (sl.unit 2) (.ld .ld16u d a b))

/-- LD32 (R108): LD32 loads four bytes, sign-extended, from ea. -/
def execLd32 (sl : Slot) (d a : RegNo) (b : Src) (s : State) : Host.Outcome State Fault Refusal :=
  .next (s.give sl (sl.unit 2) (.ld .ld32 d a b))

/-- LD32U (R108): LD32U loads four bytes, zero-extended, from ea. -/
def execLd32u (sl : Slot) (d a : RegNo) (b : Src) (s : State) : Host.Outcome State Fault Refusal :=
  .next (s.give sl (sl.unit 2) (.ld .ld32u d a b))

/-- LD64 (R108): LD64 loads eight bytes from ea, including control-space and queue-window reads. -/
def execLd64 (sl : Slot) (d a : RegNo) (b : Src) (s : State) : Host.Outcome State Fault Refusal :=
  .next (s.give sl (sl.unit 2) (.ld .ld64 d a b))

/-- ST8 (R108): ST8 stores the low byte of d at ea through the store buffer. -/
def execSt8 (sl : Slot) (d a : RegNo) (b : Src) (s : State) : Host.Outcome State Fault Refusal :=
  .next (s.give sl (sl.unit 2) (.st .st8 d a b))

/-- ST16 (R108): ST16 stores the low two bytes of d at ea. -/
def execSt16 (sl : Slot) (d a : RegNo) (b : Src) (s : State) : Host.Outcome State Fault Refusal :=
  .next (s.give sl (sl.unit 2) (.st .st16 d a b))

/-- ST32 (R108): ST32 stores the low four bytes of d at ea. -/
def execSt32 (sl : Slot) (d a : RegNo) (b : Src) (s : State) : Host.Outcome State Fault Refusal :=
  .next (s.give sl (sl.unit 2) (.st .st32 d a b))

/-- ST64 (R108): ST64 stores the eight bytes of d at ea. -/
def execSt64 (sl : Slot) (d a : RegNo) (b : Src) (s : State) : Host.Outcome State Fault Refusal :=
  .next (s.give sl (sl.unit 2) (.st .st64 d a b))

/-- VLD (R108): VLD loads eight 64-bit elements from ea into vD. -/
def execVld (sl : Slot) (d a : RegNo) (b : Src) (s : State) : Host.Outcome State Fault Refusal :=
  .next (s.give sl (sl.unit 2) (.vld d a b))

/-- VST (R108): VST stores the eight elements of vD at ea. -/
def execVst (sl : Slot) (d a : RegNo) (b : Src) (s : State) : Host.Outcome State Fault Refusal :=
  .next (s.give sl (sl.unit 2) (.vst d a b))

/-- PREF (R110): PREF hints a line into L1D and its home slice, or the home slice only, and never traps. -/
def execPref (sl : Slot) (hint a : RegNo) (b : Src) (s : State) : Host.Outcome State Fault Refusal :=
  .next (s.give sl (sl.unit 2) (.pref hint a b))

/-- AMOADD (R111): AMOADD adds b to the 8 bytes at a indivisibly and returns the old value. -/
def execAmoadd (sl : Slot) (d a b : RegNo) (s : State) : Host.Outcome State Fault Refusal :=
  .next (s.give sl (sl.unit 2) (.amo .add d a b))

/-- AMOSWAP (R111): AMOSWAP replaces the 8 bytes at a with b indivisibly and returns the old value. -/
def execAmoswap (sl : Slot) (d a b : RegNo) (s : State) : Host.Outcome State Fault Refusal :=
  .next (s.give sl (sl.unit 2) (.amo .swap d a b))

/-- AMOCAS (R111): AMOCAS stores b at a when the old value equals d, and returns the old value. -/
def execAmocas (sl : Slot) (d a b : RegNo) (s : State) : Host.Outcome State Fault Refusal :=
  .next (s.give sl (sl.unit 2) (.amo .cas d a b))

/-- FENCE_REL (R115): FENCE.REL waits until every older store, atomic and remote store of the core is performed and
answered. -/
def execFenceRel (sl : Slot) (s : State) : Host.Outcome State Fault Refusal :=
  .next (s.give sl (sl.unit 2) (.fence .rel))

/-- FENCE_ACQ (R115): FENCE.ACQ invalidates every non-private L1D line and orders younger loads after it. -/
def execFenceAcq (sl : Slot) (s : State) : Host.Outcome State Fault Refusal :=
  .next (s.give sl (sl.unit 2) (.fence .acq))

/-- FENCE_FULL (R115): FENCE.FULL does both fences and orders every younger access after every older one. -/
def execFenceFull (sl : Slot) (s : State) : Host.Outcome State Fault Refusal :=
  .next (s.give sl (sl.unit 2) (.fence .full))

end Sys2Proof.Machine
end

