-- ==== Sys2Proof/Machine/BoardRows.lean ====
section
/-!
DEFINITION. The board interfaces: WAKE_IN, SMBus, PMBus, PCIe, JTAG (spec/15).
One meaning for each row, over the operations of the chapter it cites. A command that names no unit of the device
changes nothing (assumption log entry 27).
-/

namespace Sys2Proof.Machine

/-- WAKE_IN (R483): A rising WAKE_IN held high for 1 µs adds an arrival at AON source 7,040. -/
def execWakeIn (s : State) : Host.Outcome State Fault Refusal :=
  .next s.wakeIn

/-- STATUS (R492): SMBus command STATUS returns the device state word. -/
def execSmbStatus (q : SmbReq) (s : State) : Host.Outcome State Fault Refusal :=
  .next (s.smbus q true id (toBytes 2 s.smbStatus))

/-- TEMP (R492): SMBus command TEMP returns the hottest sensor reading. -/
def execSmbTemp (q : SmbReq) (s : State) : Host.Outcome State Fault Refusal :=
  .next (s.smbus q true id (toBytes 2 s.smbTemp))

/-- WAKE (R492): SMBus command WAKE with 0xA5 adds an arrival at source 7,042. -/
def execSmbWake (q : SmbReq) (value : Byte) (s : State) : Host.Outcome State Fault Refusal :=
  .next (s.smbus q true (fun s => if value = 0xA5#8 then s.event 7042 else s) [])

/-- ID (R492): SMBus command ID returns FUSE_ID_0 and FUSE_ID_1. -/
def execSmbId (q : SmbReq) (s : State) : Host.Outcome State Fault Refusal :=
  .next (s.smbus q true id
    (toBytes 8 (s.rd FUSE_ID_0.adr).toNat ++ toBytes 8 (s.rd FUSE_ID_1.adr).toNat))

/-- MAILBOX_WRITE (R492): SMBus MAILBOX block write stores BRD_MBOX.VALUE and sets VALID. -/
def execSmbMailboxWrite (q : SmbReq) (bytes : List Byte) (s : State) : Host.Outcome State Fault Refusal :=
  .next (s.smbus q (bytes.length = 4) (fun s => s.smbMailbox bytes) [])

/-- MAILBOX_READ (R492): SMBus MAILBOX block read returns BRD_MBOX.VALUE. -/
def execSmbMailboxRead (q : SmbReq) (s : State) : Host.Outcome State Fault Refusal :=
  .next (s.smbus q true id (toBytes 4 (s.fld BRD_MBOX.adr BRD_MBOX.VALUE)))

/-- BB_INDEX_WRITE (R492): SMBus BB_INDEX write sets the record index. -/
def execSmbIndexWrite (q : SmbReq) (index : BitVec 16) (s : State) : Host.Outcome State Fault Refusal :=
  .next (s.smbus q true (fun s => { s with smbIndex := index.toNat % 8192 }) [])

/-- BB_INDEX_READ (R492): SMBus BB_INDEX read returns the record index. -/
def execSmbIndexRead (q : SmbReq) (s : State) : Host.Outcome State Fault Refusal :=
  .next (s.smbus q true id (toBytes 2 s.smbIndex))

/-- BB_READ (R492): SMBus BB_READ returns a black-box record and advances BB_INDEX. -/
def execSmbRecord (q : SmbReq) (s : State) : Host.Outcome State Fault Refusal :=
  .next (s.smbus q true State.smbNext (s.bbRec s.smbIndex))

/-- BB_STAT (R492): SMBus BB_STAT returns the BB_STAT value. -/
def execSmbBbStat (q : SmbReq) (s : State) : Host.Outcome State Fault Refusal :=
  .next (s.smbus q true id (toBytes 8 (s.rd BB_STAT.adr).toNat))

/-- ADDR (R492): SMBus ADDR sets the target address from the next STOP. -/
def execSmbAddr (q : SmbReq) (value : Byte) (s : State) : Host.Outcome State Fault Refusal :=
  .next (s.smbus q true (fun s => s.setF BRD_SMB.adr BRD_SMB.ADDR (value.toNat % 128)) [])

/-- SMBUS_CLOCK_TIMEOUT (R492): SMB clock held low for 30 ms resets the target's interface. -/
def execSmbusClockTimeout (s : State) : Host.Outcome State Fault Refusal :=
  .next s

/-- PMB_SEND_BYTE (R493): PMB_CMD PROTO 0 runs a PMBus send byte transaction. -/
def execPmbSendByte (value : Word) (s : State) : Host.Outcome State Fault Refusal :=
  .next (s.pmbRun 0 value)

/-- PMB_WRITE_BYTE (R493): PMB_CMD PROTO 1 runs a write byte transaction. -/
def execPmbWriteByte (value : Word) (s : State) : Host.Outcome State Fault Refusal :=
  .next (s.pmbRun 1 value)

/-- PMB_WRITE_WORD (R493): PMB_CMD PROTO 2 runs a write word transaction. -/
def execPmbWriteWord (value : Word) (s : State) : Host.Outcome State Fault Refusal :=
  .next (s.pmbRun 2 value)

/-- PMB_READ_BYTE (R493): PMB_CMD PROTO 3 runs a read byte transaction. -/
def execPmbReadByte (value : Word) (s : State) : Host.Outcome State Fault Refusal :=
  .next (s.pmbRun 3 value)

/-- PMB_READ_WORD (R493): PMB_CMD PROTO 4 runs a read word transaction. -/
def execPmbReadWord (value : Word) (s : State) : Host.Outcome State Fault Refusal :=
  .next (s.pmbRun 4 value)

/-- PMB_BLOCK_READ (R493): PMB_CMD PROTO 5 runs a block read transaction. -/
def execPmbBlockRead (value : Word) (s : State) : Host.Outcome State Fault Refusal :=
  .next (s.pmbRun 5 value)

/-- PMB_BLOCK_WRITE (R493): PMB_CMD PROTO 6 runs a block write transaction. -/
def execPmbBlockWrite (value : Word) (s : State) : Host.Outcome State Fault Refusal :=
  .next (s.pmbRun 6 value)

/-- PMB_REFUSED (R491): PMB_CMD with PROTO 7 to 15 is refused with STATUS 5. -/
def execPmbRefused (value : Word) (s : State) : Host.Outcome State Fault Refusal :=
  .next (s.pmbRun (max 7 (fget PMB_CMD.PROTO value)) value)

/-- PMB_DONE (R491): A PMBus transaction ends and its STATUS is set. -/
def execPmbDone (status : Nat) (data : Word) (s : State) : Host.Outcome State Fault Refusal :=
  .next (s.pmbDone status data)

/-- MSI_WRITE (R488): An inbound write to PCIE_MSI.ADDR adds an arrival at a vector source, or sets MSI_BAD. -/
def execMsiWrite (data : BitVec 32) (s : State) : Host.Outcome State Fault Refusal :=
  .next (s.msi data.toNat)

/-- PCIE_INBOUND (R488): An inbound PCIe request is matched against the windows and performed or completed as UR. -/
def execPcieInbound (r : PcieReq) (s : State) : Host.Outcome State Fault Refusal :=
  .next (s.pcieInbound r)

/-- PCIE_OUT_WINDOW (R489): An LD64 or ST64 in the outbound window becomes an 8-byte PCIe memory request. -/
def execPcieOutWindow (who : Who) (offset : Nat) (write : Bool) (value : PW) (s : State) : Host.Outcome State
    Fault Refusal :=
  .next (s.pcieWindow who offset write value)

/-- PCIE_MEM_READ (R489): PCIE_OUT_CMD KIND 0 issues a memory read. -/
def execPcieMemRead (size : BitVec 2) (s : State) : Host.Outcome State Fault Refusal :=
  .next (s.pcieCmd 0 size.toNat)

/-- PCIE_MEM_WRITE (R489): PCIE_OUT_CMD KIND 1 issues a memory write. -/
def execPcieMemWrite (size : BitVec 2) (s : State) : Host.Outcome State Fault Refusal :=
  .next (s.pcieCmd 1 size.toNat)

/-- PCIE_CFG_READ (R489): PCIE_OUT_CMD KIND 2 issues a configuration read, refused in endpoint mode. -/
def execPcieCfgRead (size : BitVec 2) (s : State) : Host.Outcome State Fault Refusal :=
  .next (s.pcieCmd 2 size.toNat)

/-- PCIE_CFG_WRITE (R489): PCIE_OUT_CMD KIND 3 issues a configuration write, refused in endpoint mode. -/
def execPcieCfgWrite (size : BitVec 2) (s : State) : Host.Outcome State Fault Refusal :=
  .next (s.pcieCmd 3 size.toNat)

/-- PCIE_OUT_COMPLETE (R489): An outbound request completes, fails or times out after 50 ms. -/
def execPcieOutComplete (status : Nat) (data : PW) (s : State) : Host.Outcome State Fault Refusal :=
  .next ((s.pcieComplete status data).goAll)

/-- HOT_RESET (R490): A write of PCIE_CTL.HOT_RESET sends a hot reset in root port mode. -/
def execHotReset (s : State) : Host.Outcome State Fault Refusal :=
  .next s.hotReset

/-- PCIE_MSIX_SEND (R490): A write of PCIE_MSIX_SEND sends an MSI-X vector in endpoint mode. -/
def execPcieMsixSend (vector : BitVec 6) (s : State) : Host.Outcome State Fault Refusal :=
  .next (s.pcieMsix vector.toNat)

/-- PERST_ASSERT (R496): PCIE_PERST_N is asserted and requests in flight are discarded. -/
def execPerstAssert (s : State) : Host.Outcome State Fault Refusal :=
  .next s.perst.goAll

/-- PCIE_LINK_CHANGE (R490): The PCIe link state changes, setting a PCIE_EVT bit and its event. -/
def execPcieLinkChange (ltssm width rate : Nat) (flit : Bool) (s : State) : Host.Outcome State Fault Refusal :=
  .next (s.pcieLink ltssm width rate flit)

/-- EXTEST (R494): JTAG instruction EXTEST drives and captures the boundary register. -/
def execExtest (pins shift : List Bool) (s : State) : Host.Outcome State Fault Refusal :=
  .next (s.jtagScan 0 1 pins shift)

/-- IDCODE (R494): JTAG instruction IDCODE selects the identification register. -/
def execIdcode (s : State) : Host.Outcome State Fault Refusal :=
  .next s.jtagIdcode

/-- SAMPLE_PRELOAD (R494): JTAG instruction SAMPLE/PRELOAD samples the boundary register. -/
def execSamplePreload (pins shift : List Bool) (s : State) : Host.Outcome State Fault Refusal :=
  .next (s.jtagScan 2 0 pins shift)

/-- EXTEST_PULSE (R494): JTAG instruction EXTEST_PULSE tests AC-coupled links. -/
def execExtestPulse (pins shift : List Bool) (s : State) : Host.Outcome State Fault Refusal :=
  .next (s.jtagScan 3 2 pins shift)

/-- EXTEST_TRAIN (R494): JTAG instruction EXTEST_TRAIN tests AC-coupled links with a pulse train. -/
def execExtestTrain (pins shift : List Bool) (s : State) : Host.Outcome State Fault Refusal :=
  .next (s.jtagScan 4 3 pins shift)

/-- DEBUG_ACCESS (R494): JTAG Kyxawa debug access instructions, closed to bypass by DEBUG_CLOSE. -/
def execDebugAccess (code : BitVec 8) (word : Word) (s : State) : Host.Outcome State Fault Refusal :=
  if 0x80#8 ≤ code && code < 0xC0#8 then .next (s.jtagDebug code word) else .next s

/-- BYPASS (R494): JTAG instruction BYPASS, or any other code, selects the bypass register. -/
def execBypass (code : BitVec 8) (s : State) : Host.Outcome State Fault Refusal :=
  .next (s.jtagBypass code)

end Sys2Proof.Machine
end

