-- ==== Sys2Proof/Machine/Branch.lean ====
section
/-!
DEFINITION. Branches of a core (spec/04, R116 to R121).
One meaning for each row, over the operations of the chapter it cites. A command that names no unit of the device
changes nothing (assumption log entry 27).
-/

namespace Sys2Proof.Machine

/-- JR (R116): JR transfers control to the address in gA. -/
def execJr (sl : Slot) (a : RegNo) (s : State) : Host.Outcome State Fault Refusal :=
  .next (s.give sl 6 (.jr a))

/-- CALLR (R116): CALLR writes the return address to gD and jumps to the old gA. -/
def execCallr (sl : Slot) (d a : RegNo) (s : State) : Host.Outcome State Fault Refusal :=
  .next (s.give sl 6 (.callr d a))

/-- RET (R116): RET jumps to gA, predicted by the return stack. -/
def execRet (sl : Slot) (a : RegNo) (s : State) : Host.Outcome State Fault Refusal :=
  .next (s.give sl 6 (.ret a))

/-- BR (R116): BR branches by a signed 22-bit displacement. -/
def execBr (sl : Slot) (disp : BitVec 22) (s : State) : Host.Outcome State Fault Refusal :=
  .next (s.give sl 6 (.br disp))

/-- CALL (R116): CALL writes the return address to g63 and branches by a 22-bit displacement. -/
def execCall (sl : Slot) (disp : BitVec 22) (s : State) : Host.Outcome State Fault Refusal :=
  .next (s.give sl 6 (.call disp))

/-- BZ (R116): BZ branches when the tested register is zero. -/
def execBz (sl : Slot) (d : RegNo) (disp : BitVec 16) (s : State) : Host.Outcome State Fault Refusal :=
  .next (s.give sl 6 (.bz false d disp))

/-- BNZ (R116): BNZ branches when the tested register is non-zero. -/
def execBnz (sl : Slot) (d : RegNo) (disp : BitVec 16) (s : State) : Host.Outcome State Fault Refusal :=
  .next (s.give sl 6 (.bz true d disp))

end Sys2Proof.Machine
end

