-- ==== Sys2Proof/Machine/CollectiveRows.lean ====
section
/-!
DEFINITION. Collectives (spec/11, R350 to R356).
One meaning for each row, over the operations of the chapter it cites. A command that names no unit of the device
changes nothing (assumption log entry 27).
-/

namespace Sys2Proof.Machine

/-- COLL_ENABLE (R351): A write of COLL_CFG.ENABLE = 1 checks the configuration and enters COLLECT or CFG_ERR. -/
def execCollEnable (c : Nat) (value : Word) (s : State) : Host.Outcome State Fault Refusal :=
  if ctxOk c && s.isOn (296 + c / 16) then .next (s.writeCollCfg c (fput COLL_CFG.ENABLE 1 value)) else .next s

/-- COLL_DISABLE (R351): A write of COLL_CFG.ENABLE = 0 ends the operation in progress as abandoned. -/
def execCollDisable (c : Nat) (s : State) : Host.Outcome State Fault Refusal :=
  if ctxOk c && s.isOn (296 + c / 16) then .next (s.writeCollCfg c (fput COLL_CFG.ENABLE 0 (s.rd (collCfg c)))) else .next s

/-- COLL_SUBMIT (R352): A write to COLL_SUBMIT counts, holds or refuses a local contribution. -/
def execCollSubmit (c : Nat) (value : Word) (s : State) : Host.Outcome State Fault Refusal :=
  if ctxOk c && s.isOn (296 + c / 16) then .next (s.collSubmit c value) else .next s

/-- COLL_UP (R354): A COLL UP from a child arrives and is counted toward combination. -/
def execCollUp (link : Nat) (p : Packet) (s : State) : Host.Outcome State Fault Refusal :=
  if linkOk link then .next (s.collUp link p) else .next s

/-- COLL_DOWN (R354): A COLL DOWN arrives with the result, is forwarded to children and written as the record. -/
def execCollDown (link : Nat) (p : Packet) (s : State) : Host.Outcome State Fault Refusal :=
  if linkOk link then .next (s.collDown link p) else .next s

/-- COLL_COMBINE (R354): All contributions for a SEQ have arrived, so the context sends UP or forms and distributes
the result. -/
def execCollCombine (c : Nat) (s : State) : Host.Outcome State Fault Refusal :=
  if ctxOk c then .next (s.collCombine c) else .next s

/-- COLL_TIMEOUT (R356): COLL_TIMEOUT.LIMIT µs pass without completion and the context fails. -/
def execCollTimeout (c : Nat) (s : State) : Host.Outcome State Fault Refusal :=
  if ctxOk c then .next (s.collTimeout c) else .next s

end Sys2Proof.Machine
end

