-- ==== Sys2Proof/Machine/CouchRows.lean ====
section
/-!
DEFINITION. The couch engine and the chain (spec/12).
One meaning for each row, over the operations of the chapter it cites. A command that names no unit of the device
changes nothing (assumption log entry 27).
-/

namespace Sys2Proof.Machine

/-- CE_MARK (R372): A write of 1 to CE_CMD.MARK requests a mirror mark, performed only when enabled, idle and with the
buddy up. -/
def execCeMark (s : State) : Host.Outcome State Fault Refusal :=
  .next (s.atCouch fun s => s.mark)

/-- CE_ABORT (R378): A write of 1 to CE_CMD.ABORT fails the epoch in progress. -/
def execCeAbort (s : State) : Host.Outcome State Fault Refusal :=
  .next (s.atCouch fun s => s.epochFail false)

/-- EXTENT_FULL (R371): A write of 1 to CE_EXT_SRC_i.FULL marks every granule of the extent dirty. -/
def execExtentFull (i : Nat) (s : State) : Host.Outcome State Fault Refusal :=
  if i < 256 then .next (s.atCouch fun s => s.extFull i) else .next s

/-- GRANULE_READ (R375): The sender reads a pending or pre-imaged granule and sends its 16 DATA packets. -/
def execGranuleRead (s : State) : Host.Outcome State Fault Refusal :=
  .next (s.atCouch fun s => s.granuleRead)

/-- PREIMAGE_COPY (R376): A write to a PENDING granule is held while the granule is copied into a pre-image slot, then
performed. -/
def execPreimageCopy (g : Nat) (s : State) : Host.Outcome State Fault Refusal :=
  if g < 2 ^ 26 then .next (s.atCouch fun s => s.preimage g) else .next s

/-- COUCH_RESPONSE (R374): A response to BEGIN, DATA or END arrives and advances or fails the epoch. -/
def execCouchResponse (link : Nat) (p : Packet) (s : State) : Host.Outcome State Fault Refusal :=
  if linkOk link then .next (s.atCouch fun s => s.couchResponse link p) else .next s

/-- COUCH_RESEND (R381): ACK_TIMEOUT passes without an answer and the COUCH request is sent again or the epoch fails.
-/
def execCouchResend (tag : Nat) (s : State) : Host.Outcome State Fault Refusal :=
  .next (s.atCouch fun s => s.couchResend tag)

/-- BEGIN (R383): A COUCH BEGIN is checked and opens a receive log for its epoch. -/
def execCouchBegin (link : Nat) (p : Packet) (s : State) : Host.Outcome State Fault Refusal :=
  if linkOk link then .next (s.atCouch fun s => s.couchBegin link p) else .next s

/-- DATA (R383): A COUCH DATA writes a chunk into the receive log. -/
def execCouchData (link : Nat) (p : Packet) (s : State) : Host.Outcome State Fault Refusal :=
  if linkOk link then .next (s.atCouch fun s => s.couchData link p) else .next s

/-- END (R383): A COUCH END is checked and starts the apply of the epoch. -/
def execCouchEnd (link : Nat) (p : Packet) (s : State) : Host.Outcome State Fault Refusal :=
  if linkOk link then .next (s.atCouch fun s => s.couchEnd link p) else .next s

/-- ABORT (R385): A COUCH ABORT discards a receiving log. -/
def execCouchAbort (link : Nat) (p : Packet) (s : State) : Host.Outcome State Fault Refusal :=
  if linkOk link then .next (s.atCouch fun s => s.couchAbort link p) else .next s

/-- HB (R386): A heartbeat arrives, zeroing MISSED and recording the buddy's committed epoch. -/
def execCouchHb (link : Nat) (p : Packet) (s : State) : Host.Outcome State Fault Refusal :=
  if linkOk link then .next (s.atCouch fun s => s.couchHb link p) else .next s

/-- APPLY_DONE (R384): Every apply write has been performed, COMMITTED advances and the END is answered OK. -/
def execApplyDone (s : State) : Host.Outcome State Fault Refusal :=
  .next (s.atCouch fun s => s.applyDone)

/-- REAPPLY (R384): A write of 1 to RX_CTL.REAPPLY runs the apply of a complete log again. -/
def execReapply (s : State) : Host.Outcome State Fault Refusal :=
  .next (s.atCouch fun s => s.reapply)

/-- DISCARD (R385): A write of 1 to RX_CTL.DISCARD discards a receiving log. -/
def execDiscard (s : State) : Host.Outcome State Fault Refusal :=
  .next (s.atCouch fun s => s.rxDiscard)

/-- HB_PERIOD_EXPIRY (R386): Each HB_PERIOD a heartbeat is sent and a period without one adds to MISSED. -/
def execHbPeriodExpiry (s : State) : Host.Outcome State Fault Refusal :=
  .next (s.atCouch fun s => s.hbPeriod)

/-- CHAIN_IN_CONNECT (R390): CHAIN_IN changes connection, setting the device's chain role or demoting a master. -/
def execChainInConnect (conn : Bool) (s : State) : Host.Outcome State Fault Refusal :=
  .next (s.chainIn conn)

/-- CHAIN_FRAME_RECEIVE (R393): A chain firmware frame arrives and is passed on, or delivered and answered with ACK.
-/
def execChainFrameReceive (fromUp : Bool) (frame : List Byte) (s : State) : Host.Outcome State Fault Refusal :=
  .next (s.chainFrame fromUp frame)

/-- ENUM (R392): A chain ENUM arrives and the member takes a position and forwards or answers ENUM_DONE. -/
def execChainEnum (p : Nat) (s : State) : Host.Outcome State Fault Refusal :=
  if p < 256 then .next (s.enumBoot p) else .next s

/-- ENUM_DONE (R392): A chain ENUM_DONE reaches the master, which records the member count. -/
def execChainEnumDone (done : EnumDone) (s : State) : Host.Outcome State Fault Refusal :=
  .next (s.chainEnumDone done)

/-- CHAIN_ACK (R393): A chain ACK ends a SEND. -/
def execChainAck (fromUp : Bool) (dest src seq : Nat) (s : State) : Host.Outcome State Fault Refusal :=
  .next (s.chainAck fromUp dest src seq)

/-- CHAIN_ENUM_CMD (R392): A write of 1 to CHAIN_CMD.ENUM at the master sends ENUM. -/
def execChainEnumCmd (s : State) : Host.Outcome State Fault Refusal :=
  .next s.chainEnumCmd

/-- CHAIN_SEND (R393): A write of 1 to CHAIN_CMD.SEND sends the frame in CHAIN_TX. -/
def execChainSend (s : State) : Host.Outcome State Fault Refusal :=
  .next s.chainSend

/-- CHAIN_RELEASE (R393): A write of 1 to CHAIN_CMD.RELEASE clears RX_FULL. -/
def execChainRelease (s : State) : Host.Outcome State Fault Refusal :=
  .next s.chainRelease

/-- CHAIN_RESEND (R393): No ACK 100 µs after a frame, the frame is sent again, failing after 8. -/
def execChainResend (s : State) : Host.Outcome State Fault Refusal :=
  .next s.chainResend

/-- CHAIN_OUT_CONNECT (R390): The CHAIN_OUT input changes between connected and unconnected, updating
CHAIN_STAT.DOWN_CONN. -/
def execChainOutConnect (conn : Bool) (s : State) : Host.Outcome State Fault Refusal :=
  .next (s.chainOutConn conn)

end Sys2Proof.Machine
end

