-- ==== Sys2Proof/Machine/FrontEnd.lean ====
section
/-!
DEFINITION. The front end of a core as events: whole bundles, interrupts, fills, recovery and drains (spec/03, 06, 07).
One meaning for each row, over the operations of the chapter it cites. A command that names no unit of the device
changes nothing (assumption log entry 27).
-/

namespace Sys2Proof.Machine

/-- ILLEGAL_BUNDLE (R72): A bundle with an illegal opcode, reserved field or bad unit order raises ILLEGAL_BUNDLE
before any syllable commits. -/
def execIllegalBundle (core : Nat) (words : List (BitVec 32)) (s : State) : Host.Outcome State Fault Refusal :=
  .next (words.foldl (fun s w => s.giveSyl core (decodeSyl w)) s)

/-- INTERRUPT_ENTRY (R88): A pending, enabled interrupt is taken between bundles, abandoning a stalled bundle where
R91 permits. -/
def execInterruptEntry (core : Nat) (s : State) : Host.Outcome State Fault Refusal :=
  .next (s.takeInterrupt core)

/-- BUNDLE_ALIGN (R165): The front end forms a bundle from the line buffer and checks its fetch causes. -/
def execBundleAlign (core : Nat) (s : State) : Host.Outcome State Fault Refusal :=
  .next (s.align core)

/-- L1I_FILL (R163): An L1I line fill returns from a home slice, segment or the xSPI controller and is installed. -/
def execL1iFill (core addr : Nat) (s : State) : Host.Outcome State Fault Refusal :=
  .next (s.l1iFill core addr)

/-- BRANCH_MISPREDICT (R179): A branch resolves differently from its prediction and the younger path is discarded and
refetched. -/
def execBranchMispredict (core : Nat) (s : State) : Host.Outcome State Fault Refusal :=
  .next (s.mispredict core)

/-- L1D_FILL (R205): A load's fill returns and is installed in L1D, or held and dropped under SPEC_FILL_HOLD. -/
def execL1dFill (core bundle : Nat) (va : Word) (s : State) : Host.Outcome State Fault Refusal :=
  .next (s.l1dFill core bundle va)

/-- STORE_DRAIN (R186): A committed store buffer entry drains to L1D and its home slice, segment or remote
destination. -/
def execStoreDrain (core k : Nat) (s : State) : Host.Outcome State Fault Refusal :=
  .next (s.storeDrain core k)

end Sys2Proof.Machine
end

