-- ==== Sys2Proof/Machine/Handshake.lean ====
section
/-!
DEFINITION. The handshake windows: calibration and crossings (spec/02, R41 to R62).
One meaning for each row, over the operations of the chapter it cites. A command that names no unit of the device
changes nothing (assumption log entry 27).
-/

namespace Sys2Proof.Machine

/-- CAL_INTERVAL_EXPIRY (R45): CAL_CTL.INTERVAL microseconds pass with ENABLE set and FREEZE clear, and the
calibration engine runs one pass over the domain's lines. -/
def execCalIntervalExpiry (w : Window) (s : State) : Host.Outcome State Fault Refusal :=
  if w.ok then .next (s.calInterval (winBase w) (winDom w)) else .next s

/-- CAL_STEP (R45): A write of 1 to CAL_CTL.STEP starts one calibration pass. -/
def execCalStep (w : Window) (s : State) : Host.Outcome State Fault Refusal :=
  if w.ok then .next (s.calStep (winBase w) (winDom w)) else .next s

/-- CAL_TRIM_WRITE (R46): Software writes the selected line's trim, stored no lower than FLOOR and taking effect
between handshakes. -/
def execCalTrimWrite (w : Window) (value : Word) (s : State) : Host.Outcome State Fault Refusal :=
  if w.ok then .next (s.calTrim (winBase w) value) else .next s

/-- NEAR_MISS (R44): A shadow sampler disagrees with its main latch, which counts a near-miss on the line and sets
NEAR_MISS_SEEN. -/
def execNearMiss (w : Window) (line : Nat) (s : State) : Host.Outcome State Fault Refusal :=
  if w.ok then .next (s.nearMiss (winBase w) line) else .next s

/-- HFR_OFFER (R54): A source offers a new value to a hold-and-flag register, which holds it, queues it as pending or
replaces the pending value with OVERRUN. -/
def execHfrOffer (w : Window) (x : Nat) (value : Word) (s : State) : Host.Outcome State Fault Refusal :=
  if w.xOk x then .next (s.hfrOffer w x value) else .next s

/-- HFR_ACK (R54): The destination's acknowledgement of a held value arrives, and any pending value becomes held and
is offered. -/
def execHfrAck (w : Window) (x : Nat) (s : State) : Host.Outcome State Fault Refusal :=
  if w.xOk x then .next (s.hfrTaken w x) else .next s

/-- PULSE_EVENT (R55): An event arrives at a pulse crossing and adds to its 4-bit counter, or saturates it and sets
OVERRUN. -/
def execPulseEvent (w : Window) (x : Nat) (s : State) : Host.Outcome State Fault Refusal :=
  if w.xOk x then .next (s.pulseEvent w x) else .next s

/-- PULSE_HANDSHAKE_DONE (R55): A pulse crossing's four-phase handshake completes, and a non-zero counter raises the
next request with its count. -/
def execPulseHandshakeDone (w : Window) (x : Nat) (s : State) : Host.Outcome State Fault Refusal :=
  if w.xOk x then .next (s.pulseDone w x) else .next s

/-- PULSE_COUNT_DELIVERY (R55): The destination takes a pulse count, adds it to its event source and raises the
acknowledge. -/
def execPulseCountDelivery (w : Window) (x : Nat) (s : State) : Host.Outcome State Fault Refusal :=
  if w.xOk x then .next (s.pulseLand w x) else .next s

/-- QUEUE_CROSSING_WRITE (R53): A producer writes a word into an HCQ or DCQ, or is held while the queue is full. -/
def execQueueCrossingWrite (w : Window) (x : Nat) (value : Word) (s : State) : Host.Outcome State Fault Refusal
    :=
  if w.xOk x then .next (s.xWrite w x value) else .next s

/-- QUEUE_CROSSING_READ (R53): A consumer takes the oldest word of an HCQ or DCQ, freeing a slot for a held producer.
-/
def execQueueCrossingRead (w : Window) (x : Nat) (s : State) : Host.Outcome State Fault Refusal :=
  if w.xOk x then .next (s.xRead w x) else .next s

/-- DST_STOPPED (R57): No destination clock edge is seen for 1 µs, so the crossing sets DST_STOPPED and holds its
data. -/
def execDstStopped (w : Window) (x : Nat) (s : State) : Host.Outcome State Fault Refusal :=
  if w.xOk x then .next (s.dstStopped w x) else .next s

/-- DST_CLOCK_RETURN (R57): A stopped destination clock returns, DST_STOPPED clears and delivery resumes in order. -/
def execDstClockReturn (w : Window) (x : Nat) (s : State) : Host.Outcome State Fault Refusal :=
  if w.xOk x then .next (s.dstReturn w x) else .next s

/-- CROSSING_SIDE_RESET (R58): A reset on either side of a crossing puts it into RESYNC and discards its contents. -/
def execCrossingSideReset (w : Window) (x : Nat) (powerOn : Bool) (s : State) : Host.Outcome State Fault Refusal
    :=
  if w.xOk x then .next (s.sideReset w x powerOn) else .next s

/-- XCTL_RESYNC (R58): A write of 1 to XCTL.RESYNC starts the resynchronisation sequence with no reset. -/
def execXctlResync (w : Window) (x : Nat) (s : State) : Host.Outcome State Fault Refusal :=
  if w.xOk x then .next (s.ctlResync w x) else .next s

/-- RESYNC_COMPLETE (R58): Both sides have zeroed their pointers by handshake, the crossing becomes READY and RESYNCS
increases. -/
def execResyncComplete (w : Window) (x : Nat) (s : State) : Host.Outcome State Fault Refusal :=
  if w.xOk x then .next (s.resynced w x) else .next s

/-- RESYNC_HOLD_TIMEOUT (R60): A clockless request held at a crossing in RESYNC for 50 µs is answered as by a deckle
gate, and TIMEOUT is set. -/
def execResyncHoldTimeout (w : Window) (x : Nat) (s : State) : Host.Outcome State Fault Refusal :=
  if w.xOk x then .next (s.holdTimeout w x) else .next s

end Sys2Proof.Machine
end

