-- ==== Sys2Proof/Machine/HubRows.lean ====
section
/-!
DEFINITION. The event hub and the AON settings (spec/09, R276 to R290).
One meaning for each row, over the operations of the chapter it cites. A command that names no unit of the device
changes nothing (assumption log entry 27).
-/

namespace Sys2Proof.Machine

/-- EVENT_ARRIVAL (R277): An arrival at a counting source adds to COUNT and ARRIVED, or sets EV_SAT at saturation. -/
def execEventArrival (src : Nat) (s : State) : Host.Outcome State Fault Refusal :=
  if src < 7712 then .next (s.event src) else .next s

/-- LEVEL_CHANGE (R278): A level source's input rises or falls, changing its pending state. -/
def execLevelChange (src : Nat) (high : Bool) (s : State) : Host.Outcome State Fault Refusal :=
  if src < 7712 then .next (s.atHub fun s => s.levelChange src high) else .next s

/-- EV_PEND_SET (R279): A write through the EV_PEND SET alias adds one arrival to each selected counting source. -/
def execEvPendSet (w : Nat) (mask : Word) (s : State) : Host.Outcome State Fault Refusal :=
  if w < 128 then .next (s.atHub fun s => s.pendSet w mask) else .next s

/-- EV_PEND_CLR (R279): A write through the EV_PEND CLR alias subtracts each selected source's whole COUNT into ACKED.
-/
def execEvPendClr (w : Nat) (mask : Word) (s : State) : Host.Outcome State Fault Refusal :=
  if w < 128 then .next (s.atHub fun s => s.pendClr w mask) else .next s

/-- EV_CLAIM (R280): A read of EV_CLAIM_c claims the best claimable source for core c and returns its count snapshot.
-/
def execEvClaim (c : Nat) (s : State) : Host.Outcome State Fault Refusal :=
  if c < 2048 then .next (s.atHub fun s => (s.claim c).1.emit (.answer (.core c) ⟨(s.claim c).2, false⟩)) else .next s

/-- EV_EOI (R281): A write of EV_EOI_c acknowledges an amount of a source in service and takes it out of service. -/
def execEvEoi (c : Nat) (value : Word) (s : State) : Host.Outcome State Fault Refusal :=
  if c < 2048 then .next (s.atHub fun s => s.eoi c value) else .next s

/-- EV_RING (R284): A write of EV_RING adds one arrival to a doorbell, or discards it for an absent target. -/
def execEvRing (value : Word) (s : State) : Host.Outcome State Fault Refusal :=
  .next (s.atHub fun s => s.ring value)

/-- AON_SETTING_WRITE (R290): A write of a watcher slot, AON_ALARM or BRD_SMB enters crossing 10, holding the writer
when full. -/
def execAonSettingWrite (who : Who) (addr : Nat) (value : Word) (s : State) : Host.Outcome State Fault Refusal
    :=
  if aonSetting addr then .next (s.atHub fun s => (s.aonWrite who addr value false).1) else .next s

/-- AON_SETTING_TAKEN (R290): The AON domain takes a value from crossing 10 and confirms it. -/
def execAonSettingTaken (s : State) : Host.Outcome State Fault Refusal :=
  .next s.aonTake

end Sys2Proof.Machine
end

