-- ==== Sys2Proof/Machine/Integer.lean ====
section
/-!
DEFINITION. The integer and branch-unit arithmetic rows of a core: a syllable given to its core (spec/04, R97 to R106).
One meaning for each row, over the operations of the chapter it cites. A command that names no unit of the device
changes nothing (assumption log entry 27).
-/

namespace Sys2Proof.Machine

/-- ADD (R97): ADD writes a + b modulo 2^64 to gD. -/
def execAdd (sl : Slot) (d a : RegNo) (b : Src) (s : State) : Host.Outcome State Fault Refusal :=
  .next (s.give sl (sl.unit 0) (.alu .add d a b))

/-- SUB (R97): SUB writes a − b modulo 2^64 to gD. -/
def execSub (sl : Slot) (d a : RegNo) (b : Src) (s : State) : Host.Outcome State Fault Refusal :=
  .next (s.give sl (sl.unit 0) (.alu .sub d a b))

/-- AND (R97): AND writes the bitwise AND of a and b. -/
def execAnd (sl : Slot) (d a : RegNo) (b : Src) (s : State) : Host.Outcome State Fault Refusal :=
  .next (s.give sl (sl.unit 0) (.alu .and d a b))

/-- OR (R97): OR writes the bitwise OR of a and b. -/
def execOr (sl : Slot) (d a : RegNo) (b : Src) (s : State) : Host.Outcome State Fault Refusal :=
  .next (s.give sl (sl.unit 0) (.alu .or d a b))

/-- XOR (R97): XOR writes the bitwise XOR of a and b. -/
def execXor (sl : Slot) (d a : RegNo) (b : Src) (s : State) : Host.Outcome State Fault Refusal :=
  .next (s.give sl (sl.unit 0) (.alu .xor d a b))

/-- ANDN (R97): ANDN writes a AND NOT b. -/
def execAndn (sl : Slot) (d a : RegNo) (b : Src) (s : State) : Host.Outcome State Fault Refusal :=
  .next (s.give sl (sl.unit 0) (.alu .andn d a b))

/-- MIN (R97): MIN writes the signed smaller of a and b. -/
def execMin (sl : Slot) (d a : RegNo) (b : Src) (s : State) : Host.Outcome State Fault Refusal :=
  .next (s.give sl (sl.unit 0) (.alu .min d a b))

/-- MAX (R97): MAX writes the signed larger of a and b. -/
def execMax (sl : Slot) (d a : RegNo) (b : Src) (s : State) : Host.Outcome State Fault Refusal :=
  .next (s.give sl (sl.unit 0) (.alu .max d a b))

/-- MINU (R97): MINU writes the unsigned smaller of a and b. -/
def execMinu (sl : Slot) (d a : RegNo) (b : Src) (s : State) : Host.Outcome State Fault Refusal :=
  .next (s.give sl (sl.unit 0) (.alu .minu d a b))

/-- MAXU (R97): MAXU writes the unsigned larger of a and b. -/
def execMaxu (sl : Slot) (d a : RegNo) (b : Src) (s : State) : Host.Outcome State Fault Refusal :=
  .next (s.give sl (sl.unit 0) (.alu .maxu d a b))

/-- SHL (R98): SHL shifts a left by b[7:0], giving 0 for amounts of 64 and above. -/
def execShl (sl : Slot) (d a : RegNo) (b : Src) (s : State) : Host.Outcome State Fault Refusal :=
  .next (s.give sl (sl.unit 0) (.alu .shl d a b))

/-- SHR (R98): SHR shifts a right logically by b[7:0]. -/
def execShr (sl : Slot) (d a : RegNo) (b : Src) (s : State) : Host.Outcome State Fault Refusal :=
  .next (s.give sl (sl.unit 0) (.alu .shr d a b))

/-- SAR (R98): SAR shifts a right arithmetically by b[7:0]. -/
def execSar (sl : Slot) (d a : RegNo) (b : Src) (s : State) : Host.Outcome State Fault Refusal :=
  .next (s.give sl (sl.unit 0) (.alu .sar d a b))

/-- ROL (R98): ROL rotates a left by b[7:0] mod 64. -/
def execRol (sl : Slot) (d a : RegNo) (b : Src) (s : State) : Host.Outcome State Fault Refusal :=
  .next (s.give sl (sl.unit 0) (.alu .rol d a b))

/-- CMPEQ (R99): CMPEQ writes 1 when a equals b, else 0. -/
def execCmpeq (sl : Slot) (d a : RegNo) (b : Src) (s : State) : Host.Outcome State Fault Refusal :=
  .next (s.give sl (sl.unit 0) (.alu .cmpeq d a b))

/-- CMPNE (R99): CMPNE writes 1 when a differs from b, else 0. -/
def execCmpne (sl : Slot) (d a : RegNo) (b : Src) (s : State) : Host.Outcome State Fault Refusal :=
  .next (s.give sl (sl.unit 0) (.alu .cmpne d a b))

/-- CMPLT (R99): CMPLT writes 1 when a is signed-less than b. -/
def execCmplt (sl : Slot) (d a : RegNo) (b : Src) (s : State) : Host.Outcome State Fault Refusal :=
  .next (s.give sl (sl.unit 0) (.alu .cmplt d a b))

/-- CMPLTU (R99): CMPLTU writes 1 when a is unsigned-less than b. -/
def execCmpltu (sl : Slot) (d a : RegNo) (b : Src) (s : State) : Host.Outcome State Fault Refusal :=
  .next (s.give sl (sl.unit 0) (.alu .cmpltu d a b))

/-- CMPLE (R99): CMPLE writes 1 when a is signed-less than or equal to b. -/
def execCmple (sl : Slot) (d a : RegNo) (b : Src) (s : State) : Host.Outcome State Fault Refusal :=
  .next (s.give sl (sl.unit 0) (.alu .cmple d a b))

/-- CMPLEU (R99): CMPLEU writes 1 when a is unsigned-less than or equal to b. -/
def execCmpleu (sl : Slot) (d a : RegNo) (b : Src) (s : State) : Host.Outcome State Fault Refusal :=
  .next (s.give sl (sl.unit 0) (.alu .cmpleu d a b))

/-- CSEL (R100): CSEL writes b when a is non-zero and keeps d otherwise, with a biting as a condition. -/
def execCsel (sl : Slot) (d a : RegNo) (b : Src) (s : State) : Host.Outcome State Fault Refusal :=
  .next (s.give sl (sl.unit 0) (.alu .csel d a b))

/-- BFX (R101): BFX extracts a sign-extended bit field of a. -/
def execBfx (sl : Slot) (d a b : RegNo) (s : State) : Host.Outcome State Fault Refusal :=
  .next (s.give sl (sl.unit 0) (.alu3 .bfx d a b))

/-- BFXU (R101): BFXU extracts a zero-extended bit field of a. -/
def execBfxu (sl : Slot) (d a b : RegNo) (s : State) : Host.Outcome State Fault Refusal :=
  .next (s.give sl (sl.unit 0) (.alu3 .bfxu d a b))

/-- BFI (R101): BFI inserts the low bits of a into a field of d. -/
def execBfi (sl : Slot) (d a b : RegNo) (s : State) : Host.Outcome State Fault Refusal :=
  .next (s.give sl (sl.unit 0) (.alu3 .bfi d a b))

/-- CLZ (R102): CLZ counts the leading zero bits of a. -/
def execClz (sl : Slot) (d a : RegNo) (s : State) : Host.Outcome State Fault Refusal :=
  .next (s.give sl (sl.unit 0) (.cnt .clz d a))

/-- CTZ (R102): CTZ counts the trailing zero bits of a. -/
def execCtz (sl : Slot) (d a : RegNo) (s : State) : Host.Outcome State Fault Refusal :=
  .next (s.give sl (sl.unit 0) (.cnt .ctz d a))

/-- POPC (R102): POPC counts the one bits of a. -/
def execPopc (sl : Slot) (d a : RegNo) (s : State) : Host.Outcome State Fault Refusal :=
  .next (s.give sl (sl.unit 0) (.cnt .popc d a))

/-- BPERM (R103): BPERM builds each result byte from a byte of a or d chosen by a selector nibble of b. -/
def execBperm (sl : Slot) (d a b : RegNo) (s : State) : Host.Outcome State Fault Refusal :=
  .next (s.give sl (sl.unit 0) (.alu3 .bperm d a b))

/-- LDIL (R104): LDIL writes the sign-extended 16-bit immediate to gD. -/
def execLdil (sl : Slot) (d : RegNo) (imm : BitVec 16) (s : State) : Host.Outcome State Fault Refusal :=
  .next (s.give sl (sl.unit 0) (.ldi false d imm))

/-- LDIH (R104): LDIH shifts d left by 16 and inserts the 16-bit immediate below it. -/
def execLdih (sl : Slot) (d : RegNo) (imm : BitVec 16) (s : State) : Host.Outcome State Fault Refusal :=
  .next (s.give sl (sl.unit 0) (.ldi true d imm))

/-- MUL (R105): MUL writes the low 64 bits of a × b. -/
def execMul (sl : Slot) (d a b : RegNo) (s : State) : Host.Outcome State Fault Refusal :=
  .next (s.give sl (sl.unit 0) (.alu3 .mul d a b))

/-- MULH (R105): MULH writes the upper 64 bits of the signed 128-bit product. -/
def execMulh (sl : Slot) (d a b : RegNo) (s : State) : Host.Outcome State Fault Refusal :=
  .next (s.give sl (sl.unit 0) (.alu3 .mulh d a b))

/-- MULHU (R105): MULHU writes the upper 64 bits of the unsigned 128-bit product. -/
def execMulhu (sl : Slot) (d a b : RegNo) (s : State) : Host.Outcome State Fault Refusal :=
  .next (s.give sl (sl.unit 0) (.alu3 .mulhu d a b))

/-- DIV (R106): DIV writes the signed quotient rounded toward zero, with fixed results at the edges. -/
def execDiv (sl : Slot) (d a b : RegNo) (s : State) : Host.Outcome State Fault Refusal :=
  .next (s.give sl (sl.unit 0) (.alu3 .div d a b))

/-- DIVU (R106): DIVU writes the unsigned quotient. -/
def execDivu (sl : Slot) (d a b : RegNo) (s : State) : Host.Outcome State Fault Refusal :=
  .next (s.give sl (sl.unit 0) (.alu3 .divu d a b))

/-- REM (R106): REM writes the signed remainder, with the sign of the dividend. -/
def execRem (sl : Slot) (d a b : RegNo) (s : State) : Host.Outcome State Fault Refusal :=
  .next (s.give sl (sl.unit 0) (.alu3 .rem d a b))

/-- REMU (R106): REMU writes the unsigned remainder. -/
def execRemu (sl : Slot) (d a b : RegNo) (s : State) : Host.Outcome State Fault Refusal :=
  .next (s.give sl (sl.unit 0) (.alu3 .remu d a b))

end Sys2Proof.Machine
end

