-- ==== Sys2Proof/Machine/LinkRows.lean ====
section
/-!
DEFINITION. Links (spec/10).
One meaning for each row, over the operations of the chapter it cites. A command that names no unit of the device
changes nothing (assumption log entry 27).
-/

namespace Sys2Proof.Machine

/-- DETECT_PROBE (R304): Every 1 ms in DETECT the transmitter tests for the far receiver's termination. -/
def execDetectProbe (n : Nat) (present : Bool) (s : State) : Host.Outcome State Fault Refusal :=
  if linkOk n then .next (s.linkDo n fun s => s.detectProbe n present) else .next s

/-- RX_LOCK (R304): A training receiver recovers clock lock and the link proceeds to ALIGN. -/
def execRxLock (n : Nat) (s : State) : Host.Outcome State Fault Refusal :=
  if linkOk n then .next (s.linkDo n fun s => s.rxLock n) else .next s

/-- FALLBACK (R305): RX_LOCK has not risen 45 ms after training starts at 200 Gb/s, so the side changes to 100 Gb/s.
-/
def execFallback (n : Nat) (s : State) : Host.Outcome State Fault Refusal :=
  if linkOk n then .next (s.linkDo n fun s => s.fallback n) else .next s

/-- TRAINING_FAILURE (R307): A fast or full training fails and the link escalates to full training, DETECT or DOWN. -/
def execTrainingFailure (n : Nat) (partner : Bool) (s : State) : Host.Outcome State Fault Refusal :=
  if linkOk n then .next (s.linkDo n fun s => s.trainFail n partner) else .next s

/-- CODEWORD_RECEIVE (R296): A receiver decodes a codeword, counts corrections or uncorrectables, and judges codeword
lock. -/
def execCodewordReceive (n : Nat) (cw : Codeword) (s : State) : Host.Outcome State Fault Refusal :=
  if linkOk n then .next (s.linkDo n fun s => s.codeword n cw) else .next s

/-- FLIT_RECEIVE (R308): A flit arrives and is accepted, discarded or NAKed by its CRC and sequence. -/
def execFlitReceive (n : Nat) (flit : List Byte) (s : State) : Host.Outcome State Fault Refusal :=
  if linkOk n then .next (s.linkDo n fun s => s.flitReceive n flit) else .next s

/-- FLIT_SEND (R312): A transmitter sends a credit-consuming flit once a credit and a replay buffer entry are
available. -/
def execFlitSend (n : Nat) (s : State) : Host.Outcome State Fault Refusal :=
  if linkOk n then .next (s.linkDo n fun s => s.flitSend n) else .next s

/-- FLIT_DEQUEUE (R314): The router slice takes a flit from the receive buffer and a credit becomes pending. -/
def execFlitDequeue (n : Nat) (s : State) : Host.Outcome State Fault Refusal :=
  if linkOk n then .next (s.linkDo n fun s => s.dequeued n) else .next s

/-- CRD (R303): A CRD flit returns credits for all virtual channels. -/
def execCrd (n cvc ccount : Nat) (credits : List Nat) (s : State) : Host.Outcome State Fault Refusal :=
  if linkOk n then .next (s.linkDo n fun s => s.crdFlit n cvc ccount credits) else .next s

/-- ACK (R308): An LCTL ACK arrives, freeing replay entries, or as a NAK triggers a replay. -/
def execAck (n exp : Nat) (nak : Bool) (s : State) : Host.Outcome State Fault Refusal :=
  if linkOk n then .next (s.linkDo n fun s => s.ackMsg n exp nak) else .next s

/-- REPLAY (R310): An LCTL REPLAY arrives and the receiver renumbers from START. -/
def execReplay (n exp start : Nat) (s : State) : Host.Outcome State Fault Refusal :=
  if linkOk n then .next (s.linkDo n fun s => s.replayMsg n exp start) else .next s

/-- INIT (R306): An LCTL INIT arrives and is checked for identity, rate and allocation, setting credits. -/
def execInit (n exp : Nat) (msg : InitMsg) (s : State) : Host.Outcome State Fault Refusal :=
  if linkOk n then .next (s.linkDo n fun s => s.initMsg n exp msg) else .next s

/-- INIT_DONE (R304): An LCTL INIT_DONE completes CREDIT_INIT and the link becomes ACTIVE. -/
def execInitDone (n exp : Nat) (s : State) : Host.Outcome State Fault Refusal :=
  if linkOk n then .next (s.linkDo n fun s => s.initDone n exp) else .next s

/-- QUIET_REQ (R318): An LCTL QUIET_REQ is answered with QUIET_ACK or QUIET_NAK. -/
def execQuietReq (n exp : Nat) (s : State) : Host.Outcome State Fault Refusal :=
  if linkOk n then .next (s.linkDo n fun s => s.quietReq n exp) else .next s

/-- QUIET_ACK (R318): An LCTL QUIET_ACK takes the link into QUIET. -/
def execQuietAck (n exp : Nat) (s : State) : Host.Outcome State Fault Refusal :=
  if linkOk n then .next (s.linkDo n fun s => s.quietAck n exp) else .next s

/-- QUIET_NAK (R318): An LCTL QUIET_NAK refuses QUIET and delays the next request. -/
def execQuietNak (n exp : Nat) (s : State) : Host.Outcome State Fault Refusal :=
  if linkOk n then .next (s.linkDo n fun s => s.quietNak n exp) else .next s

/-- OFF_REQ (R321): An LCTL OFF_REQ is answered with OFF_ACK and the side switches off. -/
def execOffReq (n exp : Nat) (s : State) : Host.Outcome State Fault Refusal :=
  if linkOk n then .next (s.linkDo n fun s => s.offReq n exp) else .next s

/-- OFF_ACK (R321): An LCTL OFF_ACK lets both sides switch their link domains OFF. -/
def execOffAck (n exp : Nat) (s : State) : Host.Outcome State Fault Refusal :=
  if linkOk n then .next (s.linkDo n fun s => s.offAck n exp) else .next s

/-- RETRAIN (R307): An LCTL RETRAIN from the far side starts a retraining. -/
def execRetrain (n exp : Nat) (s : State) : Host.Outcome State Fault Refusal :=
  if linkOk n then .next (s.linkDo n fun s => (s.ackTo n exp).retrain n false) else .next s

/-- RETIRE (R324): An LCTL RETIRE from the far side takes the port out of service and the link DOWN. -/
def execRetire (n exp : Nat) (s : State) : Host.Outcome State Fault Refusal :=
  if linkOk n then .next (s.linkDo n fun s => s.retireMsg n exp) else .next s

/-- LCTL_RESERVED (R302): An LCTL with a reserved code is ignored and sets PROTO. -/
def execLctlReserved (n exp : Nat) (s : State) : Host.Outcome State Fault Refusal :=
  if linkOk n then .next (s.linkDo n fun s => s.lctlReserved n exp) else .next s

/-- LCTL_RESEND (R302): An unanswered LCTL message is sent again after 1 µs, up to 8 times. -/
def execLctlResend (n : Nat) (s : State) : Host.Outcome State Fault Refusal :=
  if linkOk n then .next (s.linkDo n fun s => s.lctlResend n) else .next s

/-- ACK_TIME_EXPIRY (R308): ACK_TIME passes with accepted flits unreported, so an ACK is sent. -/
def execAckTimeExpiry (n : Nat) (s : State) : Host.Outcome State Fault Refusal :=
  if linkOk n then .next (s.linkDo n fun s => s.ackTime n) else .next s

/-- REPLAY_TIMEOUT (R310): REPLAY_TIMEOUT passes with the oldest flit unacknowledged, so a replay is sent or the limit
triggers retraining. -/
def execReplayTimeout (n : Nat) (s : State) : Host.Outcome State Fault Refusal :=
  if linkOk n then .next (s.linkDo n fun s => s.replayTimeout n) else .next s

/-- CRD_TIME_EXPIRY (R314): CRD_TIME passes with pending credits, so a CRD flit is sent. -/
def execCrdTimeExpiry (n : Nat) (s : State) : Host.Outcome State Fault Refusal :=
  if linkOk n then .next (s.linkDo n fun s => s.crdTime n) else .next s

/-- QUIET_IDLE_EXPIRY (R318): QUIET_IDLE µs without sequenced flits make a side with AUTO_QUIET send QUIET_REQ. -/
def execQuietIdleExpiry (n : Nat) (s : State) : Host.Outcome State Fault Refusal :=
  if linkOk n then .next (s.linkDo n fun s => s.quietIdle n) else .next s

/-- WAKE_SEEN (R319): The energy detector recognises the wake pattern, counts an arrival and wakes the link. -/
def execWakeSeen (n : Nat) (s : State) : Host.Outcome State Fault Refusal :=
  if linkOk n then .next (s.linkDo n fun s => s.wakeSeen n) else .next s

/-- WAKE_COMPLETE (R319): A waking side finishes its 2 µs wake pattern and resumes codewords. -/
def execWakeComplete (n : Nat) (s : State) : Host.Outcome State Fault Refusal :=
  if linkOk n then .next (s.linkDo n fun s => s.wakeComplete n) else .next s

/-- LINK_RETRAIN_CMD (R307): A write of 1 to LNK_CTL.RETRAIN starts a retraining. -/
def execLinkRetrainCmd (n : Nat) (s : State) : Host.Outcome State Fault Refusal :=
  if linkOk n then .next (s.linkDo n fun s => s.retrainCmd n) else .next s

/-- FULL_TRAIN (R307): A write of 1 to LNK_CTL.FULL_TRAIN starts a full training from DETECT. -/
def execFullTrain (n : Nat) (s : State) : Host.Outcome State Fault Refusal :=
  if linkOk n then .next (s.linkDo n fun s => s.fullTrainCmd n) else .next s

/-- LINK_RETIRE_CMD (R324): A write of 1 to LNK_CTL.RETIRE retires the link; a write of 0 starts a full training. -/
def execLinkRetireCmd (n : Nat) (on : Bool) (s : State) : Host.Outcome State Fault Refusal :=
  if linkOk n then .next (s.linkDo n fun s => s.retireCmd n on) else .next s

/-- LINK_ENABLE (R321): A write of ENABLE powers, restores and trains an OFF link, or a write of 0 takes it OFF. -/
def execLinkEnable (n : Nat) (on : Bool) (s : State) : Host.Outcome State Fault Refusal :=
  if linkOk n then .next (s.linkDo n fun s => s.linkEnable n on) else .next s

/-- PWR_REQ (R318): A write of LNK_CTL.PWR_REQ asks for ACTIVE, QUIET or OFF. -/
def execPwrReq (n : Nat) (req : BitVec 2) (s : State) : Host.Outcome State Fault Refusal :=
  if linkOk n then .next (s.linkDo n fun s => s.pwrReq n req.toNat) else .next s

/-- LINK_TEST (R326): A write of LNK_CTL.TEST starts a test mode, or 0 ends it with a full training. -/
def execLinkTest (n : Nat) (mode : BitVec 3) (s : State) : Host.Outcome State Fault Refusal :=
  if linkOk n then .next (s.linkDo n fun s => s.linkTest n mode.toNat) else .next s

/-- HEALTH_WINDOW_EXPIRY (R323): A WINDOW_MS window ends and RETIRE_CAND is judged on its counts. -/
def execHealthWindowExpiry (n : Nat) (s : State) : Host.Outcome State Fault Refusal :=
  if linkOk n then .next (s.linkDo n fun s => s.healthWindow n) else .next s

/-- CODEWORD_LOCK (R304): In ALIGN the receiver finds the codeword boundary from SYNC, synchronises its scrambler and
the link moves to CREDIT_INIT. -/
def execCodewordLock (n : Nat) (s : State) : Host.Outcome State Fault Refusal :=
  if linkOk n then .next (s.linkDo n fun s => s.codewordLock n) else .next s

/-- RETIRE_WAIT_EXPIRY (R324): A retiring link's 100 µs wait for its replay buffer to empty runs out and it sends
RETIRE anyway. -/
def execRetireWaitExpiry (n : Nat) (s : State) : Host.Outcome State Fault Refusal :=
  if linkOk n then .next (s.linkDo n fun s => s.retireWait n) else .next s

/-- PLL_LOCK_LOSS (R62): An I/O die's transmit PLL loses lock, signalled by pulse crossing 2 to the slice's link
status logic. -/
def execPllLockLoss (i : Nat) (s : State) : Host.Outcome State Fault Refusal :=
  if sliceOk i then .next (s.pulseEvent (.slice i) 2) else .next s

end Sys2Proof.Machine
end

