-- ==== Sys2Proof/Machine/MemoryRows.lean ====
section
/-!
DEFINITION. Home slices, segments, DRAM controllers, conversions and fills (spec/07, 08, 13).
One meaning for each row, over the operations of the chapter it cites. A command that names no unit of the device
changes nothing (assumption log entry 27).
-/

namespace Sys2Proof.Machine

/-- HOME_SLICE_EVICT (R213): A home slice evicts a changed line and writes it to DRAM, discarding it if the controller
is OFF or FAILED. -/
def execHomeSliceEvict (ptile seg slot : Nat) (s : State) : Host.Outcome State Fault Refusal :=
  if tileOk ptile && seg < 16 then .next (s.evictSlot ptile seg slot) else .next s

/-- REHOME (R216): A write to REHOME with START = 1 begins re-homing an entry, or is refused. -/
def execRehome (value : Word) (s : State) : Host.Outcome State Fault Refusal :=
  .next (s.startRehome value)

/-- REHOME_SWITCH (R216): Once the old slice's walk and granted accesses complete, all replicas switch to the new
entry together. -/
def execRehomeSwitch (s : State) : Host.Outcome State Fault Refusal :=
  .next s.switchHome

/-- SEG_MODE_WRITE (R209): A MODE write to SEG_CTL is refused or accepted, an accepted change erasing the segment. -/
def execSegModeWrite (ptile seg : Nat) (mode : BitVec 2) (s : State) : Host.Outcome State Fault Refusal :=
  if tileOk ptile && seg < 16 then .next (s.atTile ptile fun s => s.setSegMode ptile seg mode.toNat) else .next s

/-- SEG_ERASE (R210): A write of 1 to SEG_CTL.ERASE clears every valid bit of the segment. -/
def execSegErase (ptile seg : Nat) (s : State) : Host.Outcome State Fault Refusal :=
  if tileOk ptile && seg < 16 then .next (s.atTile ptile fun s => s.segErase ptile seg) else .next s

/-- MC_TRAINING_DONE (R224): A memory controller's full training ends in READY or FAILED. -/
def execMcTrainingDone (d : Nat) (ok : Bool) (s : State) : Host.Outcome State Fault Refusal :=
  if dieOk d then .next (s.trainingDone d ok) else .next s

/-- MEM_LEVEL_CHANGE (R407): A memory level change holds accesses, changes voltage and clock, retrains and releases
them. -/
def execMemLevelChange (d : Nat) (s : State) : Host.Outcome State Fault Refusal :=
  if dieOk d then .next (s.memLevel d) else .next s

/-- SELF_REFRESH_ENTRY (R407): IDLE_LIMIT µs without an access put a memory controller in SELF_REFRESH. -/
def execSelfRefreshEntry (d : Nat) (s : State) : Host.Outcome State Fault Refusal :=
  if dieOk d then .next (s.selfRefresh d) else .next s

/-- SELF_REFRESH_EXIT (R407): A controller leaves self-refresh and performs the access that woke it. -/
def execSelfRefreshExit (d : Nat) (s : State) : Host.Outcome State Fault Refusal :=
  if dieOk d then .next (s.selfRefreshEnd d) else .next s

/-- SEG_CODE_CHANGE (R246): A write of SEG_REPAIR.LIGHT changes segment codes, refused for named CACHE segments and
erasing others. -/
def execSegCodeChange (ptile : Nat) (light : BitVec 16) (s : State) : Host.Outcome State Fault Refusal :=
  if tileOk ptile then .next (s.atTile ptile fun s => s.setSegCodes ptile light.toNat) else .next s

/-- DRAM_CODE_CONVERT (R247): A write that changes DRAM_CODE_g.LIGHT starts a conversion of the granule, or is refused
while one runs. -/
def execDramCodeConvert (g : Nat) (light : Bool) (s : State) : Host.Outcome State Fault Refusal :=
  if g < 512 then .next (s.atUnit (.mc 0) fun s => s.convert g light) else .next s

/-- CONVERSION_LINE (R247): A controller rewrites one line of the granule in the new code as one indivisible step. -/
def execConversionLine (d : Nat) (s : State) : Host.Outcome State Fault Refusal :=
  if dieOk d then .next (s.convertLine d) else .next s

/-- CONVERSION_PART_DONE (R247): A controller completes its part of a conversion and raises its completion event. -/
def execConversionPartDone (d : Nat) (s : State) : Host.Outcome State Fault Refusal :=
  if dieOk d then .next (s.convertDone d) else .next s

/-- MEM_FILL (R251): A write of 1 to FILL_CTL.GO starts the controller's fill of a range of stack addresses. -/
def execMemFill (d : Nat) (s : State) : Host.Outcome State Fault Refusal :=
  if dieOk d then .next (s.atUnit (.mc d) fun s => s.startFill d) else .next s

/-- MEM_FILL_DONE (R251): A fill completes, sets DONE and raises its event. -/
def execMemFillDone (d : Nat) (s : State) : Host.Outcome State Fault Refusal :=
  if dieOk d then .next (s.endFill d) else .next s

end Sys2Proof.Machine
end

