-- ==== Sys2Proof/Machine/PowerRows.lean ====
section
/-!
DEFINITION. Power, device states, heat, time and resets (spec/13, 14).
One meaning for each row, over the operations of the chapter it cites. A command that names no unit of the device
changes nothing (assumption log entry 27).
-/

namespace Sys2Proof.Machine

/-- PWRGD_MAIN_FALL (R398): PWRGD_MAIN falls and every switched domain goes OFF at once. -/
def execPwrgdMainFall (s : State) : Host.Outcome State Fault Refusal :=
  .next s.mainFall

/-- RETENTION_SHED (R401): A tile regulator in low-power mode reaches its limit and releases retained segments. -/
def execRetentionShed (p n : Nat) (s : State) : Host.Outcome State Fault Refusal :=
  if tileOk p then .next (s.shed p n) else .next s

/-- LEVEL_RAMP_START (R404): A domain's effective level changes and its calender ramps toward it, upward ramps waiting
for a slot. -/
def execLevelRampStart (k : Nat) (s : State) : Host.Outcome State Fault Refusal :=
  if domOk k then .next (s.rampStart k) else .next s

/-- LEVEL_RAMP_END (R404): A calender ramp reaches the effective level, freeing an upward ramp slot. -/
def execLevelRampEnd (k : Nat) (s : State) : Host.Outcome State Fault Refusal :=
  if domOk k then .next (s.rampEnd k) else .next s

/-- NAP_ENTRY_START (R412): A tile's NAP entry conditions hold, or a SLEEP NAP applies, and entry starts. -/
def execNapEntryStart (p : Nat) (s : State) : Host.Outcome State Fault Refusal :=
  if tileOk p then .next (s.napEntry p) else .next s

/-- NAP_NOW (R412): A write of 1 to DOM_CTL.NAP_NOW starts NAP entry from RUN. -/
def execNapNow (p : Nat) (s : State) : Host.Outcome State Fault Refusal :=
  if tileOk p && s.isOn 301 then .next (s.napNow p) else .next s

/-- NAP_ENTRY_COMPLETE (R414): After draining and saving state, the tile passes its abort points to PNR and reaches
NAP. -/
def execNapEntryComplete (p : Nat) (s : State) : Host.Outcome State Fault Refusal :=
  if tileOk p then .next (s.napDone p) else .next s

/-- NAP_WAKE (R415): A wake reaches a napping or entering tile, abandoning entry or starting exit. -/
def execNapWake (p cause : Nat) (afterPnr : Bool) (s : State) : Host.Outcome State Fault Refusal :=
  if tileOk p then .next (s.napWake p cause afterPnr) else .next s

/-- NAP_EXIT_COMPLETE (R415): The tile's state is restored and its cores resume in RUN. -/
def execNapExitComplete (p : Nat) (s : State) : Host.Outcome State Fault Refusal :=
  if tileOk p then .next ((s.napExit p).goAll) else .next s

/-- DOMAIN_OFF_REQUEST (R417): A write of DOM_CTL.OFF = 1 switches a domain off, or is refused. -/
def execDomainOffRequest (k : Nat) (s : State) : Host.Outcome State Fault Refusal :=
  if domOk k && !(152 ≤ k && k < 296) && s.isOn 301 then
    .next (if s.has (DOM_CTL.adr k) DOM_CTL.OFF then s else s.offRequest k)
  else .next s

/-- DOMAIN_POWER_UP (R417): A write of DOM_CTL.OFF = 0 powers a domain from OFF. -/
def execDomainPowerUp (k : Nat) (s : State) : Host.Outcome State Fault Refusal :=
  if domOk k && !(152 ≤ k && k < 296) && s.isOn 301 then .next (s.onRequest k) else .next s

/-- DOMAIN_POWER_UP_DONE (R417): A powering domain reaches its voltage, runs its calibration pass and opens its deckle
gate. -/
def execDomainPowerUpDone (k : Nat) (s : State) : Host.Outcome State Fault Refusal :=
  if domOk k then .next (s.powerUpDone k) else .next s

/-- DEV_REQ_ON (R418): PWR_DEV_CMD with REQ = ON wakes the device. -/
def execDevReqOn (s : State) : Host.Outcome State Fault Refusal :=
  .next (s.devReq 0)

/-- DEV_REQ_HOLD (R419): PWR_DEV_CMD with REQ = HOLD starts HOLD entry, or is refused. -/
def execDevReqHold (s : State) : Host.Outcome State Fault Refusal :=
  .next (s.devReq 1)

/-- DEV_REQ_DORMANT (R419): PWR_DEV_CMD with REQ = DORMANT starts DORMANT entry, or is refused. -/
def execDevReqDormant (s : State) : Host.Outcome State Fault Refusal :=
  .next (s.devReq 2)

/-- DEV_REQ_OFF (R419): PWR_DEV_CMD with REQ = OFF switches every domain off at once. -/
def execDevReqOff (s : State) : Host.Outcome State Fault Refusal :=
  .next (s.devReq 3)

/-- DEV_ENTRY_POINT (R420): Device entry passes its next B point once the previous step's domains have quiesced. -/
def execDevEntryPoint (s : State) : Host.Outcome State Fault Refusal :=
  .next s.devPoint

/-- DEV_ENTRY_COMPLETE (R420): The device reaches HOLD or DORMANT. -/
def execDevEntryComplete (s : State) : Host.Outcome State Fault Refusal :=
  .next s.devDone

/-- DEVICE_WAKE (R421): A device wake fires, abandoning entry or starting HOLD or DORMANT exit. -/
def execDeviceWake (slot : Nat) (afterPnr : Bool) (s : State) : Host.Outcome State Fault Refusal :=
  if slot < 64 then .next (s.devWake slot afterPnr) else .next s

/-- DORMANT_EXIT_COMPLETE (R421): The time base, service complex and other domains are back and the device is ON. -/
def execDormantExitComplete (s : State) : Host.Outcome State Fault Refusal :=
  .next s.dormantExit

/-- GATE_HOLD_TIMEOUT (R424): An access held at a domain in transition for 50 µs is answered as by a deckle gate. -/
def execGateHoldTimeout (k : Nat) (s : State) : Host.Outcome State Fault Refusal :=
  if domOk k then .next ((s.gateTimeout k).ctrlRetry.goAll) else .next s

/-- PCAP_XFER (R426): A write with GO = 1 to PCAP_XFER debits the source, or is refused. -/
def execPcapXfer (value : Word) (s : State) : Host.Outcome State Fault Refusal :=
  .next (if s.isOn 301 then s.pcapXfer (fput PCAP_XFER.GO 1 value) else s)

/-- PCAP_XFER_COMPLETE (R426): After the source's downward ramp ends, the destination is credited. -/
def execPcapXferComplete (s : State) : Host.Outcome State Fault Refusal :=
  .next s.pcapDone

/-- PKG_POWER_WINDOW (R427): Each 100 µs the summed energy is compared with LIMIT_W and the package limit moves. -/
def execPkgPowerWindow (watts : Nat) (s : State) : Host.Outcome State Fault Refusal :=
  .next (s.pkgWindow watts)

/-- THERMAL_STEP (R428): Each throttle period a die's thermal limit drops or rises by its sensors. -/
def execThermalStep (die : Nat) (temps : List (BitVec 16)) (ms : Bool) (s : State) : Host.Outcome State Fault
    Refusal :=
  if die < 12 && s.isOn 301 then .next (s.thermalStep die temps ms) else .next s

/-- THERMAL_TRIP (R429): A sensor reaches 115 °C, THERMTRIP_N is asserted, a record written and the device goes OFF.
-/
def execThermalTrip (sensor : Nat) (s : State) : Host.Outcome State Fault Refusal :=
  if sensor < 256 then .next (s.thermTrip sensor) else .next s

/-- REG_FAULT (R437): A regulator exceeds its normal-mode rating and switches its domain OFF. -/
def execRegFault (k : Nat) (s : State) : Host.Outcome State Fault Refusal :=
  if domOk k then .next (s.regFault k) else .next s

/-- TIME_ADJ (R432): A write of TIME_ADJ steps time forward or starts a slew. -/
def execTimeAdj (value : Word) (s : State) : Host.Outcome State Fault Refusal :=
  .next (if s.isOn 302 then s.correct value else s)

/-- AON_PERIOD_MEASURE (R433): Every 65,536 AON ticks the time base updates AON_PERIOD. -/
def execAonPeriodMeasure (period : BitVec 40) (s : State) : Host.Outcome State Fault Refusal :=
  .next (s.periodMeasure period)

/-- XTAL_ABSENT (R433): No crystal edge for 1 ms switches the AON counter to the internal oscillator. -/
def execXtalAbsent (s : State) : Host.Outcome State Fault Refusal :=
  .next s.xtalAbsent

/-- XTAL_RETURN (R433): 1,024 good crystal edges switch the AON counter back to the crystal. -/
def execXtalReturn (s : State) : Host.Outcome State Fault Refusal :=
  .next s.xtalReturn

/-- TIME_ALARM (R435): Global time reaches TIME_ALARM and gives one arrival. -/
def execTimeAlarm (s : State) : Host.Outcome State Fault Refusal :=
  .next s.timeAlarm

/-- AON_ALARM (R435): The AON count reaches AON_ALARM and gives one arrival at AON source 7,041. -/
def execAonAlarm (s : State) : Host.Outcome State Fault Refusal :=
  .next s.aonAlarm

/-- COLD_RESET (R440): PWRGD_AON rising or an AON brown-out resets every domain and reloads the fuses. -/
def execColdReset (brownOut fusesOk : Bool) (damage : List (Nat × List Byte)) (wptr : List Nat) (s : State) :
    Host.Outcome State Fault Refusal :=
  if damage.all fun r => r.2.length = 32 then .next (s.coldReset brownOut fusesOk damage wptr) else .next s

/-- DEVICE_RESET (R440): RST_N low, PWRGD_MAIN low or a thermal trip resets every switched domain. -/
def execDeviceReset (cause : Nat) (s : State) : Host.Outcome State Fault Refusal :=
  .next (s.resetBy cause)

/-- DEVICE_RESET_RELEASE (R448): RST_N and PWRGD_MAIN are high, straps are sampled and the boot ROM starts. -/
def execDeviceResetRelease (pins : Straps) (flash0 flash1 : FlashAnswer) (s : State) : Host.Outcome State Fault
    Refusal :=
  .next (s.resetRelease pins flash0 flash1)

/-- SLEW_END (R432): SLEW_LEFT reaches 0, the time base returns to TB_INCR and SLEWING clears. -/
def execSlewEnd (s : State) : Host.Outcome State Fault Refusal :=
  .next s.slewEnd

/-- PWRGD_AON_FALL (R482): PWRGD_AON falls or VAON is lost, and the device becomes unpowered with the AON domain
stopped. -/
def execPwrgdAonFall (s : State) : Host.Outcome State Fault Refusal :=
  .next s.aonFall

end Sys2Proof.Machine
end

