-- ==== Sys2Proof/Machine/QueueRows.lean ====
section
/-!
DEFINITION. Message queues (spec/09, R261 to R274).
One meaning for each row, over the operations of the chapter it cites. A command that names no unit of the device
changes nothing (assumption log entry 27).
-/

namespace Sys2Proof.Machine

/-- QPUSH (R265): A store to QPUSH pushes an uncommitted word of the open packet, or is held or absorbed. -/
def execQpush (who : Who) (lt q : Nat) (w : PW) (s : State) : Host.Outcome State Fault Refusal :=
  if ltileOk lt && q < 32 then .next (s.portPush lt q who false w) else .next s

/-- QPUSH_LAST (R265): A store to QPUSH_LAST pushes a word and commits the packet. -/
def execQpushLast (who : Who) (lt q : Nat) (w : PW) (s : State) : Host.Outcome State Fault Refusal :=
  if ltileOk lt && q < 32 then .next (s.portPush lt q who true w) else .next s

/-- QABORT (R265): A store to QABORT rewinds the owner's open packet. -/
def execQabort (who : Who) (lt q : Nat) (s : State) : Host.Outcome State Fault Refusal :=
  if ltileOk lt && q < 32 then .next (s.portDo (some who) lt fun s p => s.qabortAt p q who) else .next s

/-- HELD_PUSH_ACCEPT (R267): A push held for a slot is accepted once a slot frees. -/
def execHeldPushAccept (lt q : Nat) (s : State) : Host.Outcome State Fault Refusal :=
  if ltileOk lt && q < 32 then .next ((s.ownDo lt fun s p => s.acceptAt p q).goAll) else .next s

/-- STALE (R268): OPEN_LIMIT µs of owner silence rewind an open packet, or end ABSORBING. -/
def execStale (lt q : Nat) (s : State) : Host.Outcome State Fault Refusal :=
  if ltileOk lt && q < 32 then .next (s.ownDo lt fun s p => s.staleAt p q) else .next s

/-- QPOP (R269): A load of QPOP returns the oldest committed word, or the last value with UNDERRUN. -/
def execQpop (who : Who) (lt q : Nat) (s : State) : Host.Outcome State Fault Refusal :=
  if ltileOk lt && q < 32 then
    .next (s.portDo (some who) lt fun s p => (s.popAt p q).1.emit (.answer who (s.popAt p q).2))
  else .next s

/-- QUEUE_FLUSH (R270): A write of 1 to QCTL.FLUSH discards every word of the queue. -/
def execQueueFlush (lt q : Nat) (s : State) : Host.Outcome State Fault Refusal :=
  if ltileOk lt && q < 32 then .next (s.portDo none lt fun s p => s.flushAt p q) else .next s

/-- EVMODE_WRITE (R273): A write of QCTL.EVMODE changes the queue source's reporting, clearing its count across kinds.
-/
def execEvmodeWrite (lt q : Nat) (mode : BitVec 2) (s : State) : Host.Outcome State Fault Refusal :=
  if ltileOk lt && q < 32 then .next (s.portDo none lt fun s p => s.evmodeAt p q mode.toNat) else .next s

/-- QWM_WRITE (R272): A write of QWM re-evaluates the live watermark bits without counting a crossing. -/
def execQwmWrite (lt q : Nat) (value : Word) (s : State) : Host.Outcome State Fault Refusal :=
  if ltileOk lt && q < 32 then .next (s.portDo none lt fun s p => s.qwmAt p q value) else .next s

end Sys2Proof.Machine
end

