-- ==== Sys2Proof/Machine/Register.lean ====
section
/-!
DEFINITION. Register writes and the tile map (spec/01, R11, R27, R30, R220).
One meaning for each row, over the operations of the chapter it cites. A command that names no unit of the device
changes nothing (assumption log entry 27).
-/

namespace Sys2Proof.Machine

/-- REGISTER_WRITE (R11): A write to a register that has no row of its own stores, sets, clears or subtracts its
fields by their access codes and aliases. -/
def execRegisterWrite (who : Who) (addr : Nat) (value : Word) (s : State) : Host.Outcome State Fault Refusal :=
  .next (s.regWrite who addr value)

/-- TILE_MAP_UPDATE (R220): A write of TILE_MAP_k changes which physical position serves a slot, or marks it absent,
as one update. -/
def execTileMapUpdate (die slot : Nat) (value : Word) (s : State) : Host.Outcome State Fault Refusal :=
  if dieOk die && slot < 16 then .next (s.writeTileMap die slot value) else .next s

end Sys2Proof.Machine
end

