-- ==== Sys2Proof/Machine/RepairRows.lean ====
section
/-!
DEFINITION. The beater, recurrence entries, spares and diagnostics (spec/08, R252 to R259).
One meaning for each row, over the operations of the chapter it cites. A command that names no unit of the device
changes nothing (assumption log entry 27).
-/

namespace Sys2Proof.Machine

/-- BEATER_REWRITE (R252): The beater rewrites a word whose recurrence count reached REWRITE_AT. -/
def execBeaterRewrite (u : RUnit) (loc : Nat) (s : State) : Host.Outcome State Fault Refusal :=
  if u.ok then .next (s.onUnit u fun s => s.rewrite u loc) else .next s

/-- SPARE_ROW_MAP (R254): A tile copies a segment row to its lowest free spare and writes SPARE_MAP. -/
def execSpareRowMap (ptile loc : Nat) (s : State) : Host.Outcome State Fault Refusal :=
  if tileOk ptile then .next (s.spareRow ptile loc) else .next s

/-- DRAM_BLOCK_REMAP (R255): A controller copies a 1 KiB block to a free remap entry. -/
def execDramBlockRemap (d loc : Nat) (s : State) : Host.Outcome State Fault Refusal :=
  if dieOk d then .next (s.spareBlock d loc) else .next s

/-- SPARE_MAP_WRITE (R256): A write of VALID = 1 to a free SPARE_MAP entry maps the named row by the spare steps. -/
def execSpareMapWrite (ptile seg r : Nat) (row : BitVec 10) (s : State) : Host.Outcome State Fault Refusal :=
  if tileOk ptile && seg < 16 && r < 8 then
    .next (s.atTile ptile fun s => s.writeSpareMap ptile seg r
    (fput SPARE_MAP.VALID 1 (fput SPARE_MAP.ROW row.toNat 0)))
  else .next s

/-- DRAM_REMAP_WRITE (R256): A write of VALID = 1 to a free DRAM_REMAP entry maps the named block. -/
def execDramRemapWrite (d i : Nat) (block : BitVec 26) (s : State) : Host.Outcome State Fault Refusal :=
  if dieOk d && i < 1024 then
    .next (s.atUnit (.mc d) fun s => s.writeRemap d i
    (fput DRAM_REMAP.VALID 1 (fput DRAM_REMAP.BLOCK block.toNat 0)))
  else .next s

/-- REC_ENTRY_FREE (R253): A write of VALID = 0 to REC_ENTRY_i frees the recurrence entry. -/
def execRecEntryFree (u : RUnit) (i : Nat) (s : State) : Host.Outcome State Fault Refusal :=
  if u.ok && i < 32 then .next (s.atUnit u fun s => s.wr (REC_ENTRY.adr (unitBlk u) i) 0) else .next s

/-- REC_DECAY_EXPIRY (R253): Every DECAY seconds each counting or rewritten entry has its COUNT halved and zero
entries are freed. -/
def execRecDecayExpiry (u : RUnit) (s : State) : Host.Outcome State Fault Refusal :=
  if u.ok && s.powered u then .next (s.decay u) else .next s

/-- BEAT_PASS (R258): A write of 1 to BEAT_CTL.PASS starts one beater pass. -/
def execBeatPass (u : RUnit) (s : State) : Host.Outcome State Fault Refusal :=
  if u.ok then .next (s.atUnit u fun s => s.setF (BEAT_CTL.adr (unitBlk u)) BEAT_CTL.PASS 1) else .next s

/-- BEATER_VISIT (R258): The beater visits one word, rewriting it corrected or counting and logging its error. -/
def execBeaterVisit (u : RUnit) (loc : Nat) (s : State) : Host.Outcome State Fault Refusal :=
  if u.ok then .next (s.onUnit u fun s => s.beat u loc) else .next s

/-- BEATER_PASS_END (R258): A beater pass ends, PASSES increases, LATE is judged and the beater event arrives. -/
def execBeaterPassEnd (u : RUnit) (late : Bool) (s : State) : Host.Outcome State Fault Refusal :=
  if u.ok then .next (s.onUnit u fun s => s.beatEnd u late) else .next s

/-- READ_RAW (R259): DIAG_CMD OP 0 reads a check word raw with its syndrome and class. -/
def execReadRaw (u : RUnit) (loc : Nat) (s : State) : Host.Outcome State Fault Refusal :=
  if u.ok then .next (s.atUnit u fun s => s.diagRead u loc) else .next s

/-- WRITE_RAW (R259): DIAG_CMD OP 1 writes a check word raw. -/
def execWriteRaw (u : RUnit) (loc : Nat) (raw : BitVec 39) (s : State) : Host.Outcome State Fault Refusal :=
  if u.ok then .next (s.atUnit u fun s => s.diagWrite u loc raw.toNat) else .next s

end Sys2Proof.Machine
end

