-- ==== Sys2Proof/Machine/RouterRows.lean ====
section
/-!
DEFINITION. The router, remote operations and network time (spec/11).
One meaning for each row, over the operations of the chapter it cites. A command that names no unit of the device
changes nothing (assumption log entry 27).
-/

namespace Sys2Proof.Machine

/-- PACKET_ROUTE (R338): A slice routes a packet's HEAD to an adaptive or escape candidate, or answers NO_RESPONDER.
-/
def execPacketRoute (i vc : Nat) (p : Packet) (s : State) : Host.Outcome State Fault Refusal :=
  if sliceOk i && vc < 8 then .next (s.route i vc p) else .next s

/-- PUT (R343): A PUT request is performed at the target and answered. -/
def execPut (i : Nat) (p : Packet) (s : State) : Host.Outcome State Fault Refusal :=
  if sliceOk i then .next (s.putAt i p) else .next s

/-- GET (R343): A GET request is performed at the target and answered with GET_RESP. -/
def execGet (i : Nat) (p : Packet) (s : State) : Host.Outcome State Fault Refusal :=
  if sliceOk i then .next (s.getAt i p) else .next s

/-- AMO (R343): An AMO request is performed at its point of order and returns the old value. -/
def execAmo (i : Nat) (p : Packet) (s : State) : Host.Outcome State Fault Refusal :=
  if sliceOk i then .next (s.amoAt i p) else .next s

/-- CTRL (R347): A CTRL request is admitted by the filter and performed, or refused. -/
def execCtrl (i : Nat) (p : Packet) (s : State) : Host.Outcome State Fault Refusal :=
  if sliceOk i then .next (s.ctrlAt i p) else .next s

/-- QMSG (R349): A QMSG request is delivered, held, answered RETRY, or sets OVERSIZE at the target queue. -/
def execQmsg (i : Nat) (p : Packet) (s : State) : Host.Outcome State Fault Refusal :=
  if sliceOk i then .next (s.qmsgAt i p) else .next s

/-- QMSG_HOLD_DELIVER (R349): A held QMSG packet is committed once its queue can take it. -/
def execQmsgHoldDeliver (t q : Nat) (s : State) : Host.Outcome State Fault Refusal :=
  if ltileOk t && q < 32 then .next (s.holdDeliver t q) else .next s

/-- RESPONSE_RECEIVE (R345): A response reaches its requester, completing, failing or retrying the request, or is
discarded as late. -/
def execResponseReceive (i : Nat) (p : Packet) (s : State) : Host.Outcome State Fault Refusal :=
  if sliceOk i then .next ((s.response i p).goAll) else .next s

/-- REQ_TIMEOUT (R345): An outstanding request's timer expires and it is treated as STATUS 0x0C. -/
def execReqTimeout (tag : Nat) (s : State) : Host.Outcome State Fault Refusal :=
  .next ((s.reqTimeout tag).goAll)

/-- RETRY_DELAY_EXPIRY (R349): RETRY_DELAY after a RETRY response, the source sends the QMSG again. -/
def execRetryDelayExpiry (tag : Nat) (s : State) : Host.Outcome State Fault Refusal :=
  .next (s.retrySend tag)

/-- GATHER_QPUSH (R348): A QPUSH to a remote queue appends a word to the core's gather buffer. -/
def execGatherQpush (c device t q : Nat) (w : PW) (s : State) : Host.Outcome State Fault Refusal :=
  if coreOk c && device < 65536 && ltileOk t && q < 32 then
    .next (s.gatherPush c (queueBlock device t q) false w)
  else .next s

/-- GATHER_QPUSH_LAST (R348): A QPUSH_LAST to a remote queue appends a word and sends the gather as one QMSG when
permitted. -/
def execGatherQpushLast (c device t q : Nat) (w : PW) (s : State) : Host.Outcome State Fault Refusal :=
  if coreOk c && device < 65536 && ltileOk t && q < 32 then
    .next (s.gatherPush c (queueBlock device t q) true w)
  else .next s

/-- GATHER_QABORT (R348): A QABORT to a remote queue discards the gathered words. -/
def execGatherQabort (c device t q : Nat) (s : State) : Host.Outcome State Fault Refusal :=
  if coreOk c && device < 65536 && ltileOk t && q < 32 then
    .next (s.gatherAbort c (queueBlock device t q))
  else .next s

/-- OLD_PKTS_DRAINED (R340): A slice's count of old-bank packets reaches 0 and its epoch event arrives. -/
def execOldPktsDrained (i : Nat) (s : State) : Host.Outcome State Fault Refusal :=
  if sliceOk i then .next (s.oldDrained i) else .next s

/-- TIME_EXCHANGE_START (R357): Every PERIOD µs a non-master device sends a TIME REQ to its parent. -/
def execTimeExchangeStart (t1 : Word) (s : State) : Host.Outcome State Fault Refusal :=
  .next (s.timeStart t1)

/-- TIME_REQ (R357): A TIME REQ arrives and is answered with stamped T2 and T3. -/
def execTimeReq (link : Nat) (p : Packet) (t2 t3 : Word) (s : State) : Host.Outcome State Fault Refusal :=
  if linkOk link then .next (s.timeReq link p t2 t3) else .next s

/-- TIME_RESP (R357): A TIME RESP arrives, the offset and delay are computed and applied, and lock is judged. -/
def execTimeResp (link : Nat) (p : Packet) (t4 : Word) (s : State) : Host.Outcome State Fault Refusal :=
  if linkOk link then .next (s.timeResp link p t4) else .next s

end Sys2Proof.Machine
end

