-- ==== Sys2Proof/Machine/ServiceRows.lean ====
section
/-!
DEFINITION. Fuses, boot, signatures, flash, the service cores and the management lane (spec/14).
One meaning for each row, over the operations of the chapter it cites. A command that names no unit of the device
changes nothing (assumption log entry 27).
-/

namespace Sys2Proof.Machine

/-- ROLLBACK_ADV (R442): FUSE_CMD ROLLBACK_ADV burns the rollback counter to a level. -/
def execRollbackAdv (s : State) : Host.Outcome State Fault Refusal :=
  .next (s.fuseCmd (fput FUSE_CMD.CONFIRM 0x4B58 (fput FUSE_CMD.CMD 1 0)))

/-- REVOKE (R442): FUSE_CMD REVOKE burns a key slot's revoke bit. -/
def execRevoke (s : State) : Host.Outcome State Fault Refusal :=
  .next (s.fuseCmd (fput FUSE_CMD.CONFIRM 0x4B58 (fput FUSE_CMD.CMD 2 0)))

/-- KEY_PROG (R442): FUSE_CMD KEY_PROG burns a key hash and the slot's programmed bit. -/
def execKeyProg (s : State) : Host.Outcome State Fault Refusal :=
  .next (s.fuseCmd (fput FUSE_CMD.CONFIRM 0x4B58 (fput FUSE_CMD.CMD 3 0)))

/-- CLOSE_DEBUG (R459): FUSE_CMD CLOSE_DEBUG burns DEBUG_CLOSE. -/
def execCloseDebug (s : State) : Host.Outcome State Fault Refusal :=
  .next (s.fuseCmd (fput FUSE_CMD.CONFIRM 0x4B58 (fput FUSE_CMD.CMD 4 0)))

/-- CLOSE_UPDATE (R459): FUSE_CMD CLOSE_UPDATE burns CLOSED_DIGEST and UPDATE_CLOSE. -/
def execCloseUpdate (s : State) : Host.Outcome State Fault Refusal :=
  .next (s.fuseCmd (fput FUSE_CMD.CONFIRM 0x4B58 (fput FUSE_CMD.CMD 5 0)))

/-- FUSE_CMD_INVALID (R442): A FUSE_CMD with an undefined command or bad CONFIRM is refused. -/
def execFuseCmdInvalid (value : Word) (s : State) : Host.Outcome State Fault Refusal :=
  .next (s.fuseCmd value)

/-- FUSE_CMD_DONE (R442): A fuse command ends, BUSY falls, its event arrives and a record is written. -/
def execFuseCmdDone (s : State) : Host.Outcome State Fault Refusal :=
  .next s.fuseDone

/-- BOOT_SELECT (R447): The boot ROM checks the four flash candidates and boots the first with code 0. -/
def execBootSelect (s : State) : Host.Outcome State Fault Refusal :=
  .next s.bootSelect

/-- RECOVERY_IMAGE (R449): A recovery image arrives on the UART and is checked and loaded. -/
def execRecoveryImage (image : List Byte) (s : State) : Host.Outcome State Fault Refusal :=
  .next (s.recoveryImage image)

/-- RECOVERY_RECHECK (R449): Every 10 s in recovery the boot ROM checks the flash candidates again. -/
def execRecoveryRecheck (s : State) : Host.Outcome State Fault Refusal :=
  .next s.recoveryRecheck

/-- BOOT_REQ_RESEND (R450): A chain member sends BOOT_REQ again every 1 s until answered. -/
def execBootReqResend (s : State) : Host.Outcome State Fault Refusal :=
  .next s.bootReq

/-- BOOT_GO (R450): A BOOT_GO frame makes the member set its number and route and enable its boot link. -/
def execBootGo (device master link : Nat) (_offset : Nat) (image : List Byte) (s : State) : Host.Outcome State
    Fault Refusal :=
  .next (s.bootGo device master link image)

/-- VERIFY (R457): SIG_CMD VERIFY checks an image including its body digest. -/
def execVerify (remote : List Byte) (s : State) : Host.Outcome State Fault Refusal :=
  .next (s.sigStart 1 0 remote)

/-- SIG_LOAD (R457): SIG_CMD LOAD copies and hashes a section, extending LOAD_CHAIN on success. -/
def execSigLoad (kind : Nat) (remote : List Byte) (s : State) : Host.Outcome State Fault Refusal :=
  .next (s.sigStart 2 kind remote)

/-- ATTEST (R458): SIG_CMD ATTEST writes a signed attestation report. -/
def execAttest (s : State) : Host.Outcome State Fault Refusal :=
  .next (s.sigStart 3 0 [])

/-- SIG_DONE (R457): A signature engine operation ends, CODE is set and its event arrives. -/
def execSigDone (s : State) : Host.Outcome State Fault Refusal :=
  .next s.sigDone

/-- XSPI_READ (R444): XSPI_CMD OP 1 reads flash into service SRAM. -/
def execXspiRead (second : Bool) (s : State) : Host.Outcome State Fault Refusal :=
  .next (s.xspiStart 1 (b2n second))

/-- XSPI_PROGRAM (R444): XSPI_CMD OP 2 programs flash from service SRAM, or is refused for closed image slots. -/
def execXspiProgram (second : Bool) (s : State) : Host.Outcome State Fault Refusal :=
  .next (s.xspiStart 2 (b2n second))

/-- XSPI_ERASE (R444): XSPI_CMD OP 3 erases the 64 KiB sectors of a range. -/
def execXspiErase (second : Bool) (s : State) : Host.Outcome State Fault Refusal :=
  .next (s.xspiStart 3 (b2n second))

/-- XSPI_DONE (R444): An xSPI command ends, RESULT is set and held window reads proceed. -/
def execXspiDone (ok : Bool) (s : State) : Host.Outcome State Fault Refusal :=
  .next ((s.xspiDone ok).goAll)

/-- HANDOVER (R455): A write of SVC_CTL.HANDOVER passes control to the standby service core. -/
def execHandover (s : State) : Host.Outcome State Fault Refusal :=
  .next s.handover

/-- WATCHDOG_EXPIRY (R456): SVC_WDOG.PERIOD ms pass without a KICK, and the active core is reset and handed over. -/
def execWatchdogExpiry (s : State) : Host.Outcome State Fault Refusal :=
  .next s.watchdog

/-- KICK (R456): A write of SVC_WDOG.KICK restarts the watchdog period. -/
def execKick (s : State) : Host.Outcome State Fault Refusal :=
  .next s

/-- STANDBY_RUN (R455): A write of SVC_CTL.STANDBY_RUN = 1 starts the former active core as standby. -/
def execStandbyRun (s : State) : Host.Outcome State Fault Refusal :=
  .next s.standbyRun

/-- SVC_XREL (R454): A write of SVC_XREL makes service SRAM pages writable and not executable. -/
def execSvcXrel (page count : Nat) (s : State) : Host.Outcome State Fault Refusal :=
  .next (if s.isOn 301 then s.svcXrel page count else s)

/-- TILE_MOVE (R462): A write with GO = 1 to TILE_MOVE moves a slot to a new position, or is refused. -/
def execTileMove (value : Word) (s : State) : Host.Outcome State Fault Refusal :=
  .next (s.tileMove (fput TILE_MOVE.GO 1 value))

/-- TILE_CORE_START (R469): A TILE_BOOT_RUN bit going 0 to 1 starts a core at TILE_BOOT_START. -/
def execTileCoreStart (p c : Nat) (s : State) : Host.Outcome State Fault Refusal :=
  if tileOk p && c < 16 then .next (s.tileRun p c true) else .next s

/-- TILE_CORE_RESET (R469): A TILE_BOOT_RUN bit going 1 to 0 stops, drains and resets a core. -/
def execTileCoreReset (p c : Nat) (s : State) : Host.Outcome State Fault Refusal :=
  if tileOk p && c < 16 then .next (s.tileRun p c false) else .next s

/-- BB_WR_GO (R465): A write of BB_WR_GO writes a firmware black-box record, or counts a drop under FREEZE. -/
def execBbWrGo (s : State) : Host.Outcome State Fault Refusal :=
  .next (if s.isOn 301 then s.bbWrGo else s)

/-- MGMT_FRAME_RECEIVE (R464): A management frame arrives and is written to an owned receive descriptor or dropped. -/
def execMgmtFrameReceive (frame : List Byte) (fcsOk : Bool) (s : State) : Host.Outcome State Fault Refusal :=
  .next (s.mgmtReceive frame fcsOk)

/-- TX_KICK (R464): A write of MGMT_IDX.TX_KICK sends the owned transmit descriptors in ring order. -/
def execTxKick (s : State) : Host.Outcome State Fault Refusal :=
  .next s.txKick

/-- MGMT_FRAME_SENT (R464): A management frame has been sent and its descriptor returned. -/
def execMgmtFrameSent (s : State) : Host.Outcome State Fault Refusal :=
  .next s.mgmtSent

/-- MGMT_LINK_CHANGE (R464): The 10GBASE-KR management lane trains up or goes down, giving an arrival at source 7,656.
-/
def execMgmtLinkChange (_up : Bool) (s : State) : Host.Outcome State Fault Refusal :=
  .next s.mgmtLink

end Sys2Proof.Machine
end

