-- ==== Sys2Proof/Machine/SystemRows.lean ====
section
/-!
DEFINITION. System syllables of a core, the reams, the predictor and the ETLB commands (spec/03, 04, 05, 06, 07, 12).
One meaning for each row, over the operations of the chapter it cites. A command that names no unit of the device
changes nothing (assumption log entry 27).
-/

namespace Sys2Proof.Machine

/-- NOP (R134): NOP does nothing. -/
def execNop (sl : Slot) (s : State) : Host.Outcome State Fault Refusal :=
  .next (s.give sl 7 (.nop))

/-- SYS_MF (R134): SYS.MF reads a system register into gD. -/
def execSysMf (sl : Slot) (d : RegNo) (n : BitVec 12) (s : State) : Host.Outcome State Fault Refusal :=
  .next (s.give sl 7 (.mf d n))

/-- SYS_MT (R134): SYS.MT writes d to a system register that has no row of its own, under the level rules. -/
def execSysMt (sl : Slot) (d : RegNo) (n : BitVec 12) (s : State) : Host.Outcome State Fault Refusal :=
  .next (s.give sl 7 (.mt d n))

/-- SYSCALL (R135): TRAP with F = 0 raises SYSCALL with its code in the syllable. -/
def execSyscall (sl : Slot) (code : BitVec 12) (s : State) : Host.Outcome State Fault Refusal :=
  .next (s.give sl 7 (.trap false code))

/-- BREAKPOINT (R135): TRAP with F = 1 raises BREAKPOINT. -/
def execBreakpoint (sl : Slot) (code : BitVec 12) (s : State) : Host.Outcome State Fault Refusal :=
  .next (s.give sl 7 (.trap true code))

/-- MTRAP (R135): MTRAP raises SYSCALL at monitor level. -/
def execMtrap (sl : Slot) (code : BitVec 12) (s : State) : Host.Outcome State Fault Refusal :=
  .next (s.give sl 7 (.mtrap code))

/-- ERET (R90): ERET restores level and interrupt enable and returns to EPC or MEPC. -/
def execEret (sl : Slot) (s : State) : Host.Outcome State Fault Refusal :=
  .next (s.give sl 7 (.eret))

/-- IFLUSH_ALL (R182): IFLUSH with F = 0 drains the store buffer, invalidates all of L1I, the line buffer and the
bundle queue, and refetches. -/
def execIflushAll (sl : Slot) (s : State) : Host.Outcome State Fault Refusal :=
  .next (s.give sl 7 (.iflushAll))

/-- IFLUSH_RANGE (R182): IFLUSH with F = 1 invalidates the executable L1I lines of a range after draining the store
buffer. -/
def execIflushRange (sl : Slot) (a b : RegNo) (s : State) : Host.Outcome State Fault Refusal :=
  .next (s.give sl 7 (.iflushRange a b))

/-- SPECBAR (R176): SPECBAR commits only after all older bundles and holds younger issue until it commits. -/
def execSpecbar (sl : Slot) (s : State) : Host.Outcome State Fault Refusal :=
  .next (s.give sl 7 (.specbar))

/-- WAIT (R136): WAIT holds its bundle until an interrupt is pending or the tile leaves NAP. -/
def execWait (sl : Slot) (s : State) : Host.Outcome State Fault Refusal :=
  .next (s.give sl 7 (.wait))

/-- SLEEP_QUERY (R413): SLEEP with request QUERY returns code 0 at once. -/
def execSleepQuery (sl : Slot) (d a : RegNo) (s : State) : Host.Outcome State Fault Refusal :=
  .next (s.give sl 7 (.sleep d a))

/-- SLEEP_NAP (R413): SLEEP with request NAP holds the bundle toward NAP entry and returns a code once it resolves. -/
def execSleepNap (sl : Slot) (d a : RegNo) (s : State) : Host.Outcome State Fault Refusal :=
  .next (s.give sl 7 (.sleep d a))

/-- SLEEP_RESERVED (R413): SLEEP with a reserved request returns code 4. -/
def execSleepReserved (sl : Slot) (d a : RegNo) (s : State) : Host.Outcome State Fault Refusal :=
  .next (s.give sl 7 (.sleep d a))

/-- EPOCH_QUERY (R373): EPOCH with request QUERY returns the epoch state. -/
def execEpochQuery (sl : Slot) (d a : RegNo) (s : State) : Host.Outcome State Fault Refusal :=
  .next (s.give sl 7 (.epoch d a))

/-- EPOCH_MARK (R373): EPOCH with request MARK waits for older stores and then requests a mirror mark. -/
def execEpochMark (sl : Slot) (d a : RegNo) (s : State) : Host.Outcome State Fault Refusal :=
  .next (s.give sl 7 (.epoch d a))

/-- EPOCH_RESERVED (R373): EPOCH with a reserved request returns code 4. -/
def execEpochReserved (sl : Slot) (d a : RegNo) (s : State) : Host.Outcome State Fault Refusal :=
  .next (s.give sl 7 (.epoch d a))

/-- RM_CLR (R143): RM.CLR sets an accumulator, its flags and poison to zero. -/
def execRmClr (sl : Slot) (d : RegNo) (s : State) : Host.Outcome State Fault Refusal :=
  .next (s.give sl 7 (.rmClr d))

/-- RM_NEG (R143): RM.NEG negates an accumulator and swaps its sign-dependent flags. -/
def execRmNeg (sl : Slot) (d : RegNo) (s : State) : Host.Outcome State Fault Refusal :=
  .next (s.give sl 7 (.rmNeg d))

/-- RM_STAT (R152): RM.STAT writes an accumulator's status word to gD. -/
def execRmStat (sl : Slot) (d a : RegNo) (s : State) : Host.Outcome State Fault Refusal :=
  .next (s.give sl 7 (.rmStat d a))

/-- RM_ADDV (R144): RM.ADDV adds the eight FP64 lanes of vA exactly into an accumulator. -/
def execRmAddv (sl : Slot) (d a : RegNo) (s : State) : Host.Outcome State Fault Refusal :=
  .next (s.give sl 7 (.rmAddv d a))

/-- RM_FMA4 (R145): RM.FMA4 adds four exact lane products into an accumulator. -/
def execRmFma4 (sl : Slot) (d a b : RegNo) (hi : Bool) (s : State) : Host.Outcome State Fault Refusal :=
  .next (s.give sl 7 (.rmFma4 d a b hi))

/-- RM_MERGE (R146): RM.MERGE adds aA into aD and ORs its flags and poison. -/
def execRmMerge (sl : Slot) (d a : RegNo) (s : State) : Host.Outcome State Fault Refusal :=
  .next (s.give sl 7 (.rmMerge d a))

/-- RM_RND (R149): RM.RND rounds an accumulator once to FP64 or FP32 by its flags and value. -/
def execRmRnd (sl : Slot) (d a : RegNo) (f : BitVec 4) (s : State) : Host.Outcome State Fault Refusal :=
  .next (s.give sl 7 (.rmRnd d a f))

/-- RM_ST (R154): RM.ST stores the canonical compressed form of an accumulator. -/
def execRmSt (sl : Slot) (d a : RegNo) (s : State) : Host.Outcome State Fault Refusal :=
  .next (s.give sl 7 (.rmSt d a))

/-- RM_LD (R155): RM.LD loads an accumulator from a compressed form. -/
def execRmLd (sl : Slot) (d a : RegNo) (s : State) : Host.Outcome State Fault Refusal :=
  .next (s.give sl 7 (.rmLd d a))

/-- COP_ABSENT (R81): An X syllable in the coprocessor block with no coprocessor raises COP_ABSENT. -/
def execCopAbsent (sl : Slot) (k : BitVec 3) (rest : BitVec 22) (s : State) : Host.Outcome State Fault Refusal
    :=
  .next (s.give sl 7 (.cop k rest))

/-- ETLB_READ (R201): ETLB command READ copies entry INDEX into ETLB_HI and ETLB_LO. -/
def execEtlbRead (sl : Slot) (d : RegNo) (s : State) : Host.Outcome State Fault Refusal :=
  .next (s.give sl 7 (.mt d 0x050#12))

/-- ETLB_WRITE (R201): ETLB command WRITE installs an entry, invalidating overlaps and advancing NEXT. -/
def execEtlbWrite (sl : Slot) (d : RegNo) (s : State) : Host.Outcome State Fault Refusal :=
  .next (s.give sl 7 (.mt d 0x050#12))

/-- ETLB_PROBE (R201): ETLB command PROBE searches for a matching entry and sets INDEX or MISS. -/
def execEtlbProbe (sl : Slot) (d : RegNo) (s : State) : Host.Outcome State Fault Refusal :=
  .next (s.give sl 7 (.mt d 0x050#12))

/-- ETLB_INVAL (R201): ETLB command INVAL clears V of entry INDEX. -/
def execEtlbInval (sl : Slot) (d : RegNo) (s : State) : Host.Outcome State Fault Refusal :=
  .next (s.give sl 7 (.mt d 0x050#12))

/-- ETLB_INVAL_ALL (R201): ETLB command INVAL_ALL clears V of every entry. -/
def execEtlbInvalAll (sl : Slot) (d : RegNo) (s : State) : Host.Outcome State Fault Refusal :=
  .next (s.give sl 7 (.mt d 0x050#12))

/-- ETLB_INVAL_ASID (R201): ETLB command INVAL_ASID clears non-global entries of the current ASID. -/
def execEtlbInvalAsid (sl : Slot) (d : RegNo) (s : State) : Host.Outcome State Fault Refusal :=
  .next (s.give sl 7 (.mt d 0x050#12))

/-- DROP_PRIVATE (R201): ETLB command DROP_PRIVATE invalidates every private L1D line of the core. -/
def execDropPrivate (sl : Slot) (d : RegNo) (s : State) : Host.Outcome State Fault Refusal :=
  .next (s.give sl 7 (.mt d 0x050#12))

/-- PRED_FLUSH (R171): A write of 1 to CORE_CTL.PRED_FLUSH clears all prediction state. -/
def execPredFlush (sl : Slot) (d : RegNo) (s : State) : Host.Outcome State Fault Refusal :=
  .next (s.give sl 7 (.mt d 0x040#12))

end Sys2Proof.Machine
end

