-- ==== Sys2Proof/Machine/VectorRows.lean ====
section
/-!
DEFINITION. Vector syllables of a core (spec/04, R122 to R133).
One meaning for each row, over the operations of the chapter it cites. A command that names no unit of the device
changes nothing (assumption log entry 27).
-/

namespace Sys2Proof.Machine

/-- VFMA (R122): VFMA computes ±d ± a × b per lane with one rounding. -/
def execVfma (sl : Slot) (d a b : RegNo) (na np : Bool) (ty : FTy) (s : State) : Host.Outcome State Fault
    Refusal :=
  .next (s.give sl (sl.unit 4) (.vfma d a b na np ty))

/-- VFADD (R122): VFADD adds lane by lane with IEEE rounding and flags. -/
def execVfadd (sl : Slot) (d a b : RegNo) (ty : FTy) (s : State) : Host.Outcome State Fault Refusal :=
  .next (s.give sl (sl.unit 4) (.vf .add d a b ty))

/-- VFSUB (R122): VFSUB subtracts lane by lane. -/
def execVfsub (sl : Slot) (d a b : RegNo) (ty : FTy) (s : State) : Host.Outcome State Fault Refusal :=
  .next (s.give sl (sl.unit 4) (.vf .sub d a b ty))

/-- VFMUL (R122): VFMUL multiplies lane by lane. -/
def execVfmul (sl : Slot) (d a b : RegNo) (ty : FTy) (s : State) : Host.Outcome State Fault Refusal :=
  .next (s.give sl (sl.unit 4) (.vf .mul d a b ty))

/-- VFMIN (R125): VFMIN computes minimumNumber per lane. -/
def execVfmin (sl : Slot) (d a b : RegNo) (ty : FTy) (s : State) : Host.Outcome State Fault Refusal :=
  .next (s.give sl (sl.unit 4) (.vf .min d a b ty))

/-- VFMAX (R125): VFMAX computes maximumNumber per lane. -/
def execVfmax (sl : Slot) (d a b : RegNo) (ty : FTy) (s : State) : Host.Outcome State Fault Refusal :=
  .next (s.give sl (sl.unit 4) (.vf .max d a b ty))

/-- VCVT (R127): VCVT converts lanes between floating-point and integer formats, zeroing unconverted lanes. -/
def execVcvt (sl : Slot) (d a src : RegNo) (f : BitVec 4) (s : State) : Host.Outcome State Fault Refusal :=
  .next (s.give sl (sl.unit 4) (.vcvt d a src f))

/-- VCMP (R126): VCMP writes all-ones or all-zero lane masks by the selected predicate. -/
def execVcmp (sl : Slot) (d a b : RegNo) (p : BitVec 2) (ty : FTy) (s : State) : Host.Outcome State Fault
    Refusal :=
  .next (s.give sl (sl.unit 4) (.vcmp d a b p ty))

/-- VIADD (R131): VIADD adds integer lanes modulo 2^w. -/
def execViadd (sl : Slot) (d a b : RegNo) (w : BitVec 2) (s : State) : Host.Outcome State Fault Refusal :=
  .next (s.give sl (sl.unit 4) (.vi .add d a b w))

/-- VISUB (R131): VISUB subtracts integer lanes modulo 2^w. -/
def execVisub (sl : Slot) (d a b : RegNo) (w : BitVec 2) (s : State) : Host.Outcome State Fault Refusal :=
  .next (s.give sl (sl.unit 4) (.vi .sub d a b w))

/-- VIMUL (R131): VIMUL multiplies integer lanes, keeping the low w bits. -/
def execVimul (sl : Slot) (d a b : RegNo) (w : BitVec 2) (s : State) : Host.Outcome State Fault Refusal :=
  .next (s.give sl (sl.unit 4) (.vi .mul d a b w))

/-- VPERMB (R132): VPERMB permutes the 64 bytes of vA by selector bytes, zeroing where selector bit 7 is set. -/
def execVpermb (sl : Slot) (d a b : RegNo) (s : State) : Host.Outcome State Fault Refusal :=
  .next (s.give sl (sl.unit 4) (.vpermb d a b))

/-- VBCAST (R133): VBCAST copies gA's low bits into every lane of vD. -/
def execVbcast (sl : Slot) (d a : RegNo) (ty : FTy) (s : State) : Host.Outcome State Fault Refusal :=
  .next (s.give sl (sl.unit 4) (.vbcast d a ty))

/-- VMOVG (R133): VMOVG copies one lane of vA, zero-extended, to gD. -/
def execVmovg (sl : Slot) (d a lane : RegNo) (ty : FTy) (s : State) : Host.Outcome State Fault Refusal :=
  .next (s.give sl (sl.unit 4) (.vmovg d a lane ty))

/-- VMOVV (R133): VMOVV copies vA to vD. -/
def execVmovv (sl : Slot) (d a : RegNo) (s : State) : Host.Outcome State Fault Refusal :=
  .next (s.give sl (sl.unit 4) (.vmovv d a))

end Sys2Proof.Machine
end

