-- ==== Sys2Proof/Machine/Dispatch.lean ====
section
/-!
DEFINITION. The one dispatch from a command to its meaning: an arm for each row of spec/opcode_table.json.
-/

namespace Sys2Proof.Machine

/-- The effect of a command on everything but the queue of commands. -/
def exec (i : Instr) (s : State) : Host.Outcome State Fault Refusal :=
  match i with
  | .registerWrite who addr value => Sys2Proof.Machine.execRegisterWrite who addr value s
  | .tileMapUpdate die slot value => Sys2Proof.Machine.execTileMapUpdate die slot value s
  | .calIntervalExpiry w => Sys2Proof.Machine.execCalIntervalExpiry w s
  | .calStep w => Sys2Proof.Machine.execCalStep w s
  | .calTrimWrite w value => Sys2Proof.Machine.execCalTrimWrite w value s
  | .nearMiss w line => Sys2Proof.Machine.execNearMiss w line s
  | .hfrOffer w x value => Sys2Proof.Machine.execHfrOffer w x value s
  | .hfrAck w x => Sys2Proof.Machine.execHfrAck w x s
  | .pulseEvent w x => Sys2Proof.Machine.execPulseEvent w x s
  | .pulseHandshakeDone w x => Sys2Proof.Machine.execPulseHandshakeDone w x s
  | .pulseCountDelivery w x => Sys2Proof.Machine.execPulseCountDelivery w x s
  | .queueCrossingWrite w x value => Sys2Proof.Machine.execQueueCrossingWrite w x value s
  | .queueCrossingRead w x => Sys2Proof.Machine.execQueueCrossingRead w x s
  | .dstStopped w x => Sys2Proof.Machine.execDstStopped w x s
  | .dstClockReturn w x => Sys2Proof.Machine.execDstClockReturn w x s
  | .crossingSideReset w x powerOn => Sys2Proof.Machine.execCrossingSideReset w x powerOn s
  | .xctlResync w x => Sys2Proof.Machine.execXctlResync w x s
  | .resyncComplete w x => Sys2Proof.Machine.execResyncComplete w x s
  | .resyncHoldTimeout w x => Sys2Proof.Machine.execResyncHoldTimeout w x s
  | .add sl d a b => Sys2Proof.Machine.execAdd sl d a b s
  | .sub sl d a b => Sys2Proof.Machine.execSub sl d a b s
  | .and sl d a b => Sys2Proof.Machine.execAnd sl d a b s
  | .or sl d a b => Sys2Proof.Machine.execOr sl d a b s
  | .xor sl d a b => Sys2Proof.Machine.execXor sl d a b s
  | .andn sl d a b => Sys2Proof.Machine.execAndn sl d a b s
  | .min sl d a b => Sys2Proof.Machine.execMin sl d a b s
  | .max sl d a b => Sys2Proof.Machine.execMax sl d a b s
  | .minu sl d a b => Sys2Proof.Machine.execMinu sl d a b s
  | .maxu sl d a b => Sys2Proof.Machine.execMaxu sl d a b s
  | .shl sl d a b => Sys2Proof.Machine.execShl sl d a b s
  | .shr sl d a b => Sys2Proof.Machine.execShr sl d a b s
  | .sar sl d a b => Sys2Proof.Machine.execSar sl d a b s
  | .rol sl d a b => Sys2Proof.Machine.execRol sl d a b s
  | .cmpeq sl d a b => Sys2Proof.Machine.execCmpeq sl d a b s
  | .cmpne sl d a b => Sys2Proof.Machine.execCmpne sl d a b s
  | .cmplt sl d a b => Sys2Proof.Machine.execCmplt sl d a b s
  | .cmpltu sl d a b => Sys2Proof.Machine.execCmpltu sl d a b s
  | .cmple sl d a b => Sys2Proof.Machine.execCmple sl d a b s
  | .cmpleu sl d a b => Sys2Proof.Machine.execCmpleu sl d a b s
  | .csel sl d a b => Sys2Proof.Machine.execCsel sl d a b s
  | .bfx sl d a b => Sys2Proof.Machine.execBfx sl d a b s
  | .bfxu sl d a b => Sys2Proof.Machine.execBfxu sl d a b s
  | .bfi sl d a b => Sys2Proof.Machine.execBfi sl d a b s
  | .clz sl d a => Sys2Proof.Machine.execClz sl d a s
  | .ctz sl d a => Sys2Proof.Machine.execCtz sl d a s
  | .popc sl d a => Sys2Proof.Machine.execPopc sl d a s
  | .bperm sl d a b => Sys2Proof.Machine.execBperm sl d a b s
  | .ldil sl d imm => Sys2Proof.Machine.execLdil sl d imm s
  | .ldih sl d imm => Sys2Proof.Machine.execLdih sl d imm s
  | .mul sl d a b => Sys2Proof.Machine.execMul sl d a b s
  | .mulh sl d a b => Sys2Proof.Machine.execMulh sl d a b s
  | .mulhu sl d a b => Sys2Proof.Machine.execMulhu sl d a b s
  | .div sl d a b => Sys2Proof.Machine.execDiv sl d a b s
  | .divu sl d a b => Sys2Proof.Machine.execDivu sl d a b s
  | .rem sl d a b => Sys2Proof.Machine.execRem sl d a b s
  | .remu sl d a b => Sys2Proof.Machine.execRemu sl d a b s
  | .ld8 sl d a b => Sys2Proof.Machine.execLd8 sl d a b s
  | .ld8u sl d a b => Sys2Proof.Machine.execLd8u sl d a b s
  | .ld16 sl d a b => Sys2Proof.Machine.execLd16 sl d a b s
  | .ld16u sl d a b => Sys2Proof.Machine.execLd16u sl d a b s
  | .ld32 sl d a b => Sys2Proof.Machine.execLd32 sl d a b s
  | .ld32u sl d a b => Sys2Proof.Machine.execLd32u sl d a b s
  | .ld64 sl d a b => Sys2Proof.Machine.execLd64 sl d a b s
  | .st8 sl d a b => Sys2Proof.Machine.execSt8 sl d a b s
  | .st16 sl d a b => Sys2Proof.Machine.execSt16 sl d a b s
  | .st32 sl d a b => Sys2Proof.Machine.execSt32 sl d a b s
  | .st64 sl d a b => Sys2Proof.Machine.execSt64 sl d a b s
  | .vld sl d a b => Sys2Proof.Machine.execVld sl d a b s
  | .vst sl d a b => Sys2Proof.Machine.execVst sl d a b s
  | .pref sl hint a b => Sys2Proof.Machine.execPref sl hint a b s
  | .amoadd sl d a b => Sys2Proof.Machine.execAmoadd sl d a b s
  | .amoswap sl d a b => Sys2Proof.Machine.execAmoswap sl d a b s
  | .amocas sl d a b => Sys2Proof.Machine.execAmocas sl d a b s
  | .fenceRel sl => Sys2Proof.Machine.execFenceRel sl s
  | .fenceAcq sl => Sys2Proof.Machine.execFenceAcq sl s
  | .fenceFull sl => Sys2Proof.Machine.execFenceFull sl s
  | .jr sl a => Sys2Proof.Machine.execJr sl a s
  | .callr sl d a => Sys2Proof.Machine.execCallr sl d a s
  | .ret sl a => Sys2Proof.Machine.execRet sl a s
  | .br sl disp => Sys2Proof.Machine.execBr sl disp s
  | .call sl disp => Sys2Proof.Machine.execCall sl disp s
  | .bz sl d disp => Sys2Proof.Machine.execBz sl d disp s
  | .bnz sl d disp => Sys2Proof.Machine.execBnz sl d disp s
  | .vfma sl d a b na np ty => Sys2Proof.Machine.execVfma sl d a b na np ty s
  | .vfadd sl d a b ty => Sys2Proof.Machine.execVfadd sl d a b ty s
  | .vfsub sl d a b ty => Sys2Proof.Machine.execVfsub sl d a b ty s
  | .vfmul sl d a b ty => Sys2Proof.Machine.execVfmul sl d a b ty s
  | .vfmin sl d a b ty => Sys2Proof.Machine.execVfmin sl d a b ty s
  | .vfmax sl d a b ty => Sys2Proof.Machine.execVfmax sl d a b ty s
  | .vcvt sl d a src f => Sys2Proof.Machine.execVcvt sl d a src f s
  | .vcmp sl d a b p ty => Sys2Proof.Machine.execVcmp sl d a b p ty s
  | .viadd sl d a b w => Sys2Proof.Machine.execViadd sl d a b w s
  | .visub sl d a b w => Sys2Proof.Machine.execVisub sl d a b w s
  | .vimul sl d a b w => Sys2Proof.Machine.execVimul sl d a b w s
  | .vpermb sl d a b => Sys2Proof.Machine.execVpermb sl d a b s
  | .vbcast sl d a ty => Sys2Proof.Machine.execVbcast sl d a ty s
  | .vmovg sl d a lane ty => Sys2Proof.Machine.execVmovg sl d a lane ty s
  | .vmovv sl d a => Sys2Proof.Machine.execVmovv sl d a s
  | .nop sl => Sys2Proof.Machine.execNop sl s
  | .sysMf sl d n => Sys2Proof.Machine.execSysMf sl d n s
  | .sysMt sl d n => Sys2Proof.Machine.execSysMt sl d n s
  | .syscall sl code => Sys2Proof.Machine.execSyscall sl code s
  | .breakpoint sl code => Sys2Proof.Machine.execBreakpoint sl code s
  | .mtrap sl code => Sys2Proof.Machine.execMtrap sl code s
  | .eret sl => Sys2Proof.Machine.execEret sl s
  | .iflushAll sl => Sys2Proof.Machine.execIflushAll sl s
  | .iflushRange sl a b => Sys2Proof.Machine.execIflushRange sl a b s
  | .specbar sl => Sys2Proof.Machine.execSpecbar sl s
  | .wait sl => Sys2Proof.Machine.execWait sl s
  | .sleepQuery sl d a => Sys2Proof.Machine.execSleepQuery sl d a s
  | .sleepNap sl d a => Sys2Proof.Machine.execSleepNap sl d a s
  | .sleepReserved sl d a => Sys2Proof.Machine.execSleepReserved sl d a s
  | .epochQuery sl d a => Sys2Proof.Machine.execEpochQuery sl d a s
  | .epochMark sl d a => Sys2Proof.Machine.execEpochMark sl d a s
  | .epochReserved sl d a => Sys2Proof.Machine.execEpochReserved sl d a s
  | .rmClr sl d => Sys2Proof.Machine.execRmClr sl d s
  | .rmNeg sl d => Sys2Proof.Machine.execRmNeg sl d s
  | .rmStat sl d a => Sys2Proof.Machine.execRmStat sl d a s
  | .rmAddv sl d a => Sys2Proof.Machine.execRmAddv sl d a s
  | .rmFma4 sl d a b hi => Sys2Proof.Machine.execRmFma4 sl d a b hi s
  | .rmMerge sl d a => Sys2Proof.Machine.execRmMerge sl d a s
  | .rmRnd sl d a f => Sys2Proof.Machine.execRmRnd sl d a f s
  | .rmSt sl d a => Sys2Proof.Machine.execRmSt sl d a s
  | .rmLd sl d a => Sys2Proof.Machine.execRmLd sl d a s
  | .copAbsent sl k rest => Sys2Proof.Machine.execCopAbsent sl k rest s
  | .illegalBundle core words => Sys2Proof.Machine.execIllegalBundle core words s
  | .interruptEntry core => Sys2Proof.Machine.execInterruptEntry core s
  | .etlbRead sl d => Sys2Proof.Machine.execEtlbRead sl d s
  | .etlbWrite sl d => Sys2Proof.Machine.execEtlbWrite sl d s
  | .etlbProbe sl d => Sys2Proof.Machine.execEtlbProbe sl d s
  | .etlbInval sl d => Sys2Proof.Machine.execEtlbInval sl d s
  | .etlbInvalAll sl d => Sys2Proof.Machine.execEtlbInvalAll sl d s
  | .etlbInvalAsid sl d => Sys2Proof.Machine.execEtlbInvalAsid sl d s
  | .dropPrivate sl d => Sys2Proof.Machine.execDropPrivate sl d s
  | .predFlush sl d => Sys2Proof.Machine.execPredFlush sl d s
  | .bundleAlign core => Sys2Proof.Machine.execBundleAlign core s
  | .l1iFill core addr => Sys2Proof.Machine.execL1iFill core addr s
  | .branchMispredict core => Sys2Proof.Machine.execBranchMispredict core s
  | .l1dFill core bundle va => Sys2Proof.Machine.execL1dFill core bundle va s
  | .storeDrain core k => Sys2Proof.Machine.execStoreDrain core k s
  | .homeSliceEvict ptile seg slot => Sys2Proof.Machine.execHomeSliceEvict ptile seg slot s
  | .rehome value => Sys2Proof.Machine.execRehome value s
  | .rehomeSwitch => Sys2Proof.Machine.execRehomeSwitch s
  | .segModeWrite ptile seg mode => Sys2Proof.Machine.execSegModeWrite ptile seg mode s
  | .segErase ptile seg => Sys2Proof.Machine.execSegErase ptile seg s
  | .mcTrainingDone d ok => Sys2Proof.Machine.execMcTrainingDone d ok s
  | .memLevelChange d => Sys2Proof.Machine.execMemLevelChange d s
  | .selfRefreshEntry d => Sys2Proof.Machine.execSelfRefreshEntry d s
  | .selfRefreshExit d => Sys2Proof.Machine.execSelfRefreshExit d s
  | .segCodeChange ptile light => Sys2Proof.Machine.execSegCodeChange ptile light s
  | .dramCodeConvert g light => Sys2Proof.Machine.execDramCodeConvert g light s
  | .conversionLine d => Sys2Proof.Machine.execConversionLine d s
  | .conversionPartDone d => Sys2Proof.Machine.execConversionPartDone d s
  | .memFill d => Sys2Proof.Machine.execMemFill d s
  | .memFillDone d => Sys2Proof.Machine.execMemFillDone d s
  | .beaterRewrite u loc => Sys2Proof.Machine.execBeaterRewrite u loc s
  | .spareRowMap ptile loc => Sys2Proof.Machine.execSpareRowMap ptile loc s
  | .dramBlockRemap d loc => Sys2Proof.Machine.execDramBlockRemap d loc s
  | .spareMapWrite ptile seg r row => Sys2Proof.Machine.execSpareMapWrite ptile seg r row s
  | .dramRemapWrite d idx block => Sys2Proof.Machine.execDramRemapWrite d idx block s
  | .recEntryFree u idx => Sys2Proof.Machine.execRecEntryFree u idx s
  | .recDecayExpiry u => Sys2Proof.Machine.execRecDecayExpiry u s
  | .beatPass u => Sys2Proof.Machine.execBeatPass u s
  | .beaterVisit u loc => Sys2Proof.Machine.execBeaterVisit u loc s
  | .beaterPassEnd u late => Sys2Proof.Machine.execBeaterPassEnd u late s
  | .readRaw u loc => Sys2Proof.Machine.execReadRaw u loc s
  | .writeRaw u loc raw => Sys2Proof.Machine.execWriteRaw u loc raw s
  | .qpush who lt q w => Sys2Proof.Machine.execQpush who lt q w s
  | .qpushLast who lt q w => Sys2Proof.Machine.execQpushLast who lt q w s
  | .qabort who lt q => Sys2Proof.Machine.execQabort who lt q s
  | .heldPushAccept lt q => Sys2Proof.Machine.execHeldPushAccept lt q s
  | .stale lt q => Sys2Proof.Machine.execStale lt q s
  | .qpop who lt q => Sys2Proof.Machine.execQpop who lt q s
  | .queueFlush lt q => Sys2Proof.Machine.execQueueFlush lt q s
  | .evmodeWrite lt q mode => Sys2Proof.Machine.execEvmodeWrite lt q mode s
  | .qwmWrite lt q value => Sys2Proof.Machine.execQwmWrite lt q value s
  | .eventArrival src => Sys2Proof.Machine.execEventArrival src s
  | .levelChange src high => Sys2Proof.Machine.execLevelChange src high s
  | .evPendSet w mask => Sys2Proof.Machine.execEvPendSet w mask s
  | .evPendClr w mask => Sys2Proof.Machine.execEvPendClr w mask s
  | .evClaim c => Sys2Proof.Machine.execEvClaim c s
  | .evEoi c value => Sys2Proof.Machine.execEvEoi c value s
  | .evRing value => Sys2Proof.Machine.execEvRing value s
  | .aonSettingWrite who addr value => Sys2Proof.Machine.execAonSettingWrite who addr value s
  | .aonSettingTaken => Sys2Proof.Machine.execAonSettingTaken s
  | .detectProbe n present => Sys2Proof.Machine.execDetectProbe n present s
  | .rxLock n => Sys2Proof.Machine.execRxLock n s
  | .fallback n => Sys2Proof.Machine.execFallback n s
  | .trainingFailure n partner => Sys2Proof.Machine.execTrainingFailure n partner s
  | .codewordReceive n cw => Sys2Proof.Machine.execCodewordReceive n cw s
  | .flitReceive n flit => Sys2Proof.Machine.execFlitReceive n flit s
  | .flitSend n => Sys2Proof.Machine.execFlitSend n s
  | .flitDequeue n => Sys2Proof.Machine.execFlitDequeue n s
  | .crd n cvc ccount credits => Sys2Proof.Machine.execCrd n cvc ccount credits s
  | .ack n exp nak => Sys2Proof.Machine.execAck n exp nak s
  | .replay n exp start => Sys2Proof.Machine.execReplay n exp start s
  | .init n exp msg => Sys2Proof.Machine.execInit n exp msg s
  | .initDone n exp => Sys2Proof.Machine.execInitDone n exp s
  | .quietReq n exp => Sys2Proof.Machine.execQuietReq n exp s
  | .quietAck n exp => Sys2Proof.Machine.execQuietAck n exp s
  | .quietNak n exp => Sys2Proof.Machine.execQuietNak n exp s
  | .offReq n exp => Sys2Proof.Machine.execOffReq n exp s
  | .offAck n exp => Sys2Proof.Machine.execOffAck n exp s
  | .retrain n exp => Sys2Proof.Machine.execRetrain n exp s
  | .retire n exp => Sys2Proof.Machine.execRetire n exp s
  | .lctlReserved n exp => Sys2Proof.Machine.execLctlReserved n exp s
  | .lctlResend n => Sys2Proof.Machine.execLctlResend n s
  | .ackTimeExpiry n => Sys2Proof.Machine.execAckTimeExpiry n s
  | .replayTimeout n => Sys2Proof.Machine.execReplayTimeout n s
  | .crdTimeExpiry n => Sys2Proof.Machine.execCrdTimeExpiry n s
  | .quietIdleExpiry n => Sys2Proof.Machine.execQuietIdleExpiry n s
  | .wakeSeen n => Sys2Proof.Machine.execWakeSeen n s
  | .wakeComplete n => Sys2Proof.Machine.execWakeComplete n s
  | .linkRetrainCmd n => Sys2Proof.Machine.execLinkRetrainCmd n s
  | .fullTrain n => Sys2Proof.Machine.execFullTrain n s
  | .linkRetireCmd n on => Sys2Proof.Machine.execLinkRetireCmd n on s
  | .linkEnable n on => Sys2Proof.Machine.execLinkEnable n on s
  | .pwrReq n req => Sys2Proof.Machine.execPwrReq n req s
  | .linkTest n mode => Sys2Proof.Machine.execLinkTest n mode s
  | .healthWindowExpiry n => Sys2Proof.Machine.execHealthWindowExpiry n s
  | .packetRoute idx vc p => Sys2Proof.Machine.execPacketRoute idx vc p s
  | .put idx p => Sys2Proof.Machine.execPut idx p s
  | .get idx p => Sys2Proof.Machine.execGet idx p s
  | .amo idx p => Sys2Proof.Machine.execAmo idx p s
  | .ctrl idx p => Sys2Proof.Machine.execCtrl idx p s
  | .qmsg idx p => Sys2Proof.Machine.execQmsg idx p s
  | .qmsgHoldDeliver t q => Sys2Proof.Machine.execQmsgHoldDeliver t q s
  | .responseReceive idx p => Sys2Proof.Machine.execResponseReceive idx p s
  | .reqTimeout tag => Sys2Proof.Machine.execReqTimeout tag s
  | .retryDelayExpiry tag => Sys2Proof.Machine.execRetryDelayExpiry tag s
  | .gatherQpush c device t q w => Sys2Proof.Machine.execGatherQpush c device t q w s
  | .gatherQpushLast c device t q w => Sys2Proof.Machine.execGatherQpushLast c device t q w s
  | .gatherQabort c device t q => Sys2Proof.Machine.execGatherQabort c device t q s
  | .oldPktsDrained idx => Sys2Proof.Machine.execOldPktsDrained idx s
  | .collEnable c value => Sys2Proof.Machine.execCollEnable c value s
  | .collDisable c => Sys2Proof.Machine.execCollDisable c s
  | .collSubmit c value => Sys2Proof.Machine.execCollSubmit c value s
  | .collUp link p => Sys2Proof.Machine.execCollUp link p s
  | .collDown link p => Sys2Proof.Machine.execCollDown link p s
  | .collCombine c => Sys2Proof.Machine.execCollCombine c s
  | .collTimeout c => Sys2Proof.Machine.execCollTimeout c s
  | .timeExchangeStart t1 => Sys2Proof.Machine.execTimeExchangeStart t1 s
  | .timeReq link p t2 t3 => Sys2Proof.Machine.execTimeReq link p t2 t3 s
  | .timeResp link p t4 => Sys2Proof.Machine.execTimeResp link p t4 s
  | .ceMark => Sys2Proof.Machine.execCeMark s
  | .ceAbort => Sys2Proof.Machine.execCeAbort s
  | .extentFull idx => Sys2Proof.Machine.execExtentFull idx s
  | .granuleRead => Sys2Proof.Machine.execGranuleRead s
  | .preimageCopy g => Sys2Proof.Machine.execPreimageCopy g s
  | .couchResponse link p => Sys2Proof.Machine.execCouchResponse link p s
  | .couchResend tag => Sys2Proof.Machine.execCouchResend tag s
  | .couchBegin link p => Sys2Proof.Machine.execCouchBegin link p s
  | .couchData link p => Sys2Proof.Machine.execCouchData link p s
  | .couchEnd link p => Sys2Proof.Machine.execCouchEnd link p s
  | .couchAbort link p => Sys2Proof.Machine.execCouchAbort link p s
  | .couchHb link p => Sys2Proof.Machine.execCouchHb link p s
  | .applyDone => Sys2Proof.Machine.execApplyDone s
  | .reapply => Sys2Proof.Machine.execReapply s
  | .discard => Sys2Proof.Machine.execDiscard s
  | .hbPeriodExpiry => Sys2Proof.Machine.execHbPeriodExpiry s
  | .chainInConnect conn => Sys2Proof.Machine.execChainInConnect conn s
  | .chainFrameReceive fromUp frame => Sys2Proof.Machine.execChainFrameReceive fromUp frame s
  | .chainEnum p => Sys2Proof.Machine.execChainEnum p s
  | .chainEnumDone done => Sys2Proof.Machine.execChainEnumDone done s
  | .chainAck fromUp dest src seq => Sys2Proof.Machine.execChainAck fromUp dest src seq s
  | .chainEnumCmd => Sys2Proof.Machine.execChainEnumCmd s
  | .chainSend => Sys2Proof.Machine.execChainSend s
  | .chainRelease => Sys2Proof.Machine.execChainRelease s
  | .chainResend => Sys2Proof.Machine.execChainResend s
  | .pwrgdMainFall => Sys2Proof.Machine.execPwrgdMainFall s
  | .retentionShed p n => Sys2Proof.Machine.execRetentionShed p n s
  | .levelRampStart k => Sys2Proof.Machine.execLevelRampStart k s
  | .levelRampEnd k => Sys2Proof.Machine.execLevelRampEnd k s
  | .napEntryStart p => Sys2Proof.Machine.execNapEntryStart p s
  | .napNow p => Sys2Proof.Machine.execNapNow p s
  | .napEntryComplete p => Sys2Proof.Machine.execNapEntryComplete p s
  | .napWake p cause afterPnr => Sys2Proof.Machine.execNapWake p cause afterPnr s
  | .napExitComplete p => Sys2Proof.Machine.execNapExitComplete p s
  | .domainOffRequest k => Sys2Proof.Machine.execDomainOffRequest k s
  | .domainPowerUp k => Sys2Proof.Machine.execDomainPowerUp k s
  | .domainPowerUpDone k => Sys2Proof.Machine.execDomainPowerUpDone k s
  | .devReqOn => Sys2Proof.Machine.execDevReqOn s
  | .devReqHold => Sys2Proof.Machine.execDevReqHold s
  | .devReqDormant => Sys2Proof.Machine.execDevReqDormant s
  | .devReqOff => Sys2Proof.Machine.execDevReqOff s
  | .devEntryPoint => Sys2Proof.Machine.execDevEntryPoint s
  | .devEntryComplete => Sys2Proof.Machine.execDevEntryComplete s
  | .deviceWake slot afterPnr => Sys2Proof.Machine.execDeviceWake slot afterPnr s
  | .dormantExitComplete => Sys2Proof.Machine.execDormantExitComplete s
  | .gateHoldTimeout k => Sys2Proof.Machine.execGateHoldTimeout k s
  | .pcapXfer value => Sys2Proof.Machine.execPcapXfer value s
  | .pcapXferComplete => Sys2Proof.Machine.execPcapXferComplete s
  | .pkgPowerWindow watts => Sys2Proof.Machine.execPkgPowerWindow watts s
  | .thermalStep die temps ms => Sys2Proof.Machine.execThermalStep die temps ms s
  | .thermalTrip sensor => Sys2Proof.Machine.execThermalTrip sensor s
  | .regFault k => Sys2Proof.Machine.execRegFault k s
  | .timeAdj value => Sys2Proof.Machine.execTimeAdj value s
  | .aonPeriodMeasure period => Sys2Proof.Machine.execAonPeriodMeasure period s
  | .xtalAbsent => Sys2Proof.Machine.execXtalAbsent s
  | .xtalReturn => Sys2Proof.Machine.execXtalReturn s
  | .timeAlarm => Sys2Proof.Machine.execTimeAlarm s
  | .aonAlarm => Sys2Proof.Machine.execAonAlarm s
  | .coldReset brownOut fusesOk damage wptr => Sys2Proof.Machine.execColdReset brownOut fusesOk damage wptr s
  | .deviceReset cause => Sys2Proof.Machine.execDeviceReset cause s
  | .deviceResetRelease pins flash0 flash1 => Sys2Proof.Machine.execDeviceResetRelease pins flash0 flash1 s
  | .rollbackAdv => Sys2Proof.Machine.execRollbackAdv s
  | .revoke => Sys2Proof.Machine.execRevoke s
  | .keyProg => Sys2Proof.Machine.execKeyProg s
  | .closeDebug => Sys2Proof.Machine.execCloseDebug s
  | .closeUpdate => Sys2Proof.Machine.execCloseUpdate s
  | .fuseCmdInvalid value => Sys2Proof.Machine.execFuseCmdInvalid value s
  | .fuseCmdDone => Sys2Proof.Machine.execFuseCmdDone s
  | .bootSelect => Sys2Proof.Machine.execBootSelect s
  | .recoveryImage image => Sys2Proof.Machine.execRecoveryImage image s
  | .recoveryRecheck => Sys2Proof.Machine.execRecoveryRecheck s
  | .bootReqResend => Sys2Proof.Machine.execBootReqResend s
  | .bootGo device master link offset image => Sys2Proof.Machine.execBootGo device master link offset image s
  | .verify remote => Sys2Proof.Machine.execVerify remote s
  | .sigLoad kind remote => Sys2Proof.Machine.execSigLoad kind remote s
  | .attest => Sys2Proof.Machine.execAttest s
  | .sigDone => Sys2Proof.Machine.execSigDone s
  | .xspiRead second => Sys2Proof.Machine.execXspiRead second s
  | .xspiProgram second => Sys2Proof.Machine.execXspiProgram second s
  | .xspiErase second => Sys2Proof.Machine.execXspiErase second s
  | .xspiDone ok => Sys2Proof.Machine.execXspiDone ok s
  | .handover => Sys2Proof.Machine.execHandover s
  | .watchdogExpiry => Sys2Proof.Machine.execWatchdogExpiry s
  | .kick => Sys2Proof.Machine.execKick s
  | .standbyRun => Sys2Proof.Machine.execStandbyRun s
  | .svcXrel page count => Sys2Proof.Machine.execSvcXrel page count s
  | .tileMove value => Sys2Proof.Machine.execTileMove value s
  | .tileCoreStart p c => Sys2Proof.Machine.execTileCoreStart p c s
  | .tileCoreReset p c => Sys2Proof.Machine.execTileCoreReset p c s
  | .bbWrGo => Sys2Proof.Machine.execBbWrGo s
  | .mgmtFrameReceive frame fcsOk => Sys2Proof.Machine.execMgmtFrameReceive frame fcsOk s
  | .txKick => Sys2Proof.Machine.execTxKick s
  | .mgmtFrameSent => Sys2Proof.Machine.execMgmtFrameSent s
  | .wakeIn => Sys2Proof.Machine.execWakeIn s
  | .smbStatus q => Sys2Proof.Machine.execSmbStatus q s
  | .smbTemp q => Sys2Proof.Machine.execSmbTemp q s
  | .smbWake q value => Sys2Proof.Machine.execSmbWake q value s
  | .smbId q => Sys2Proof.Machine.execSmbId q s
  | .smbMailboxWrite q bytes => Sys2Proof.Machine.execSmbMailboxWrite q bytes s
  | .smbMailboxRead q => Sys2Proof.Machine.execSmbMailboxRead q s
  | .smbIndexWrite q index => Sys2Proof.Machine.execSmbIndexWrite q index s
  | .smbIndexRead q => Sys2Proof.Machine.execSmbIndexRead q s
  | .smbRecord q => Sys2Proof.Machine.execSmbRecord q s
  | .smbBbStat q => Sys2Proof.Machine.execSmbBbStat q s
  | .smbAddr q value => Sys2Proof.Machine.execSmbAddr q value s
  | .smbusClockTimeout => Sys2Proof.Machine.execSmbusClockTimeout s
  | .pmbSendByte value => Sys2Proof.Machine.execPmbSendByte value s
  | .pmbWriteByte value => Sys2Proof.Machine.execPmbWriteByte value s
  | .pmbWriteWord value => Sys2Proof.Machine.execPmbWriteWord value s
  | .pmbReadByte value => Sys2Proof.Machine.execPmbReadByte value s
  | .pmbReadWord value => Sys2Proof.Machine.execPmbReadWord value s
  | .pmbBlockRead value => Sys2Proof.Machine.execPmbBlockRead value s
  | .pmbBlockWrite value => Sys2Proof.Machine.execPmbBlockWrite value s
  | .pmbRefused value => Sys2Proof.Machine.execPmbRefused value s
  | .pmbDone status data => Sys2Proof.Machine.execPmbDone status data s
  | .msiWrite data => Sys2Proof.Machine.execMsiWrite data s
  | .pcieInbound r => Sys2Proof.Machine.execPcieInbound r s
  | .pcieOutWindow who offset write value => Sys2Proof.Machine.execPcieOutWindow who offset write value s
  | .pcieMemRead size => Sys2Proof.Machine.execPcieMemRead size s
  | .pcieMemWrite size => Sys2Proof.Machine.execPcieMemWrite size s
  | .pcieCfgRead size => Sys2Proof.Machine.execPcieCfgRead size s
  | .pcieCfgWrite size => Sys2Proof.Machine.execPcieCfgWrite size s
  | .pcieOutComplete status data => Sys2Proof.Machine.execPcieOutComplete status data s
  | .hotReset => Sys2Proof.Machine.execHotReset s
  | .pcieMsixSend vector => Sys2Proof.Machine.execPcieMsixSend vector s
  | .perstAssert => Sys2Proof.Machine.execPerstAssert s
  | .pcieLinkChange ltssm width rate flit => Sys2Proof.Machine.execPcieLinkChange ltssm width rate flit s
  | .extest pins shift => Sys2Proof.Machine.execExtest pins shift s
  | .idcode => Sys2Proof.Machine.execIdcode s
  | .samplePreload pins shift => Sys2Proof.Machine.execSamplePreload pins shift s
  | .extestPulse pins shift => Sys2Proof.Machine.execExtestPulse pins shift s
  | .extestTrain pins shift => Sys2Proof.Machine.execExtestTrain pins shift s
  | .debugAccess code word => Sys2Proof.Machine.execDebugAccess code word s
  | .bypass code => Sys2Proof.Machine.execBypass code s
  | .codewordLock n => Sys2Proof.Machine.execCodewordLock n s
  | .retireWaitExpiry n => Sys2Proof.Machine.execRetireWaitExpiry n s
  | .chainOutConnect conn => Sys2Proof.Machine.execChainOutConnect conn s
  | .mgmtLinkChange up => Sys2Proof.Machine.execMgmtLinkChange up s
  | .pllLockLoss idx => Sys2Proof.Machine.execPllLockLoss idx s
  | .slewEnd => Sys2Proof.Machine.execSlewEnd s
  | .pwrgdAonFall => Sys2Proof.Machine.execPwrgdAonFall s

end Sys2Proof.Machine
end

