-- ==== Sys2Proof/Machine/Step.lean ====
section
/-!
DEFINITION. One step of the device: the command at the front of the queue, or what goes on by itself when none waits.
-/

namespace Sys2Proof.Machine

/-- One step: the first waiting command is taken off the queue and has its effect; with none waiting, what is held is
asked again and stalled cores go on (assumption log entry 26). -/
def step (s : State) : Host.Outcome State Fault Refusal :=
  match s.pending with
  | [] => .next s.idle
  | c :: r => exec c { s with pending := r }

/-- `s` with the command that a table word spells at the front of its queue; the table gives no row any bits, so no
word spells one (assumption log entry 28). -/
def State.withFetchWord (s : State) (nbits w : Nat) : State :=
  match Sys2Proof.decodeTableWord nbits w with
  | some c => { s with pending := c :: s.pending }
  | none => s

end Sys2Proof.Machine
end

