-- ==== Sys2Proof/Safety.lean ====
section
/-!
DEFINITION. What counts as a safe run, and the terms claims use. The spec gives every command an effect, so a run that
stops is a fault of the model. The rest says when a core takes a one-syllable bundle at once, and what such a bundle
leaves unchanged.
-/

namespace Sys2Proof.Machine

/-- The first `n` steps from `s` all answer a next state. -/
def SafeFor (n : Nat) (s : State) : Prop := ∃ t, Sys2Proof.core.run n s = .next t

/-- `t` is reached from `s` in one step. -/
def Steps (s t : State) : Prop := step s = .next t

/-- Nothing stands between core `c` and a bundle of one syllable that is given to it: the core runs on a tile that is
on, holds no older bundle and no held fill, no mispredict awaits its recovery and no wait has ended (R136, R179), its
registers hold no upset (R67), no interrupt is to be taken (R88), and its pc can be fetched from (R85 rows 1, 2 and
4). -/
structure State.Ready (s : State) (c : Nat) : Prop where
  running : (s.core c).running = true
  on : s.coreOn c = true
  cur : (s.core c).cur = none
  late : (s.core c).late = []
  bundles : (s.core c).bundles = []
  forming : (s.core c).forming = []
  fills : (s.core c).fills = []
  waiting : (s.core c).waiting = false
  sleeping : (s.core c).sleeping = false
  woken : c ∉ s.woken
  misp : (s.core c).misp = none
  flips : (s.core c).flips = []
  noInt : s.interrupt? c = none
  fetch : s.fetchFault c (s.core c) (s.core c).pc 1 = none
  watch : (s.core c).watchFetch (s.core c).pc 1 = false

/-- Only core `c` differs between `s` and `t`. -/
structure State.OnlyCore (s t : State) (c : Nat) : Prop where
  rest : t = { s with cores := t.cores }
  others : ∀ c', c' ≠ c → t.core c' = s.core c'

/-- Every system register but the performance counters (R190) and those listed reads as before. -/
def Core.SysKept (k k' : Core) (but : List Nat) : Prop :=
  ∀ n, n ∉ but → (n < 0x070 ∨ 0x07F < n) → k'.sysRd n = k.sysRd n

/-- From `s` to `t` core `c` ran a bundle of one syllable that wrote `w` to general register `d` and nothing else: the
pc is behind it, every other general register, the vector registers, the accumulators, the other system registers but
the performance counters, the caches, the store buffer and the rest of the device are unchanged; g0 discards. -/
structure State.RanG (s t : State) (c : Nat) (d : RegNo) (w : PW) : Prop where
  only : s.OnlyCore t c
  core : t.core c = { s.core c with g := (t.core c).g, sys := (t.core c).sys, pc := (s.core c).pc + 4 }
  dest : (t.core c).rg d = if d = 0 then ⟨0, false⟩ else w
  regs : ∀ r, r ≠ d → (t.core c).rg r = (s.core c).rg r
  sys : (s.core c).SysKept (t.core c) []

/-- The same for a bundle that wrote `x` to vector register `d` and raised flags `f`: VDIRTY is set (R74), the flags
are in FPSTAT (R117). -/
structure State.RanV (s t : State) (c : Nat) (d : RegNo) (x : VReg) (f : FFlags) : Prop where
  only : s.OnlyCore t c
  core : t.core c = { s.core c with v := (t.core c).v, sys := (t.core c).sys, pc := (s.core c).pc + 4 }
  dest : (t.core c).vr d = x
  regs : ∀ r, r.toNat % 32 ≠ d.toNat % 32 → (t.core c).vr r = (s.core c).vr r
  status : (t.core c).sysRd 0x010 = (s.core c).sysRd 0x010 ||| 0x4000#64
  fpstat : (t.core c).sysRd 0x031 = (s.core c).sysRd 0x031 ||| f.setWidth 64
  sys : (s.core c).SysKept (t.core c) [0x010, 0x031]

/-- The same for a bundle that wrote `x` to accumulator `d`: RDIRTY is set (R74, R142). -/
structure State.RanA (s t : State) (c : Nat) (d : RegNo) (x : Ream) : Prop where
  only : s.OnlyCore t c
  core : t.core c = { s.core c with acc := (t.core c).acc, sys := (t.core c).sys, pc := (s.core c).pc + 4 }
  dest : (t.core c).ac d = x
  regs : ∀ r, r.toNat % 4 ≠ d.toNat % 4 → (t.core c).ac r = (s.core c).ac r
  status : (t.core c).sysRd 0x010 = (s.core c).sysRd 0x010 ||| 0x8000#64
  sys : (s.core c).SysKept (t.core c) [0x010]

/-- The same for a transfer to `target` (R116) that wrote the return address to `link`, if any: prediction state may
change (R168 to R171), and the model's counter of free values (assumption log entry 3). -/
structure State.RanB (s t : State) (c : Nat) (target : Word) (link : Option RegNo) : Prop where
  rest : t = { s with cores := t.cores, freeTick := t.freeTick }
  others : ∀ c', c' ≠ c → t.core c' = s.core c'
  core : t.core c = { s.core c with g := (t.core c).g, sys := (t.core c).sys, pc := target, pred := (t.core c).pred,
                                    misp := (t.core c).misp }
  regs : ∀ r, (t.core c).rg r = if link = some r ∧ r ≠ 0 then ⟨(s.core c).pc + 4, false⟩ else (s.core c).rg r
  sys : (s.core c).SysKept (t.core c) []

/-- The same for a bundle that wrote no register. -/
structure State.RanN (s t : State) (c : Nat) : Prop where
  only : s.OnlyCore t c
  core : t.core c = { s.core c with sys := (t.core c).sys, pc := (s.core c).pc + 4 }
  sys : (s.core c).SysKept (t.core c) []

/-- The same for a bundle that wrote `v` to system register `n` (R134) and nothing else. -/
structure State.RanS (s t : State) (c n : Nat) (v : Word) : Prop where
  only : s.OnlyCore t c
  core : t.core c = { s.core c with sys := (t.core c).sys, pc := (s.core c).pc + 4 }
  dest : (t.core c).sysRd n = v
  sys : (s.core c).SysKept (t.core c) [n]

/-- The level a cause or interrupt with TRAP_ROUTE bit `route` goes to, when nothing else sends it to the monitor
(R88). -/
def Core.routed (k : Core) (route : Nat) : Nat := if k.pl = 2 ∨ (k.sysRd 0x026).getLsbD route then 2 else 1

/-- The first of the four registers that entry at level `lv` writes: EPC or MEPC; then come CAUSE, BADADDR and BADSYL,
and TVEC lies behind them (R89, R92). -/
def entryBank (lv : Nat) : Nat := if lv = 2 then 0x020 else 0x011

/-- From `s` to `t` core `c` entered the handler of level `lv` (R89): the saved registers of that level, STATUS, and
the handler's address.  Its registers, the other system registers but the performance counters and those `but` names,
its caches and store buffer, and the rest of the device are unchanged; what was fetched ahead is dropped. -/
structure State.Entered (s t : State) (c lv : Nat) (int : Bool) (epc : Word) (code blen slot : Nat) (bad syl : Word)
    (but : List Nat) : Prop where
  only : s.OnlyCore t c
  core : t.core c = { s.core c with sys := (t.core c).sys, pc := (t.core c).pc, pred := (t.core c).pred, misp := none,
                                    cur := none, bundles := [], fills := [], lineBuf := [], ask := none, sleepRes := none,
                                    resp := none }
  epc : (t.core c).sysRd (entryBank lv) = epc &&& ~~~ 3#64
  cause : (t.core c).sysRd (entryBank lv + 1)
    = BitVec.ofNat 64 ((if int then 2 ^ 63 else 0) + slot * 2 ^ 12 + blen * 2 ^ 8 + code)
  bad : (t.core c).sysRd (entryBank lv + 2) = bad
  syl : (t.core c).sysRd (entryBank lv + 3) = syl
  pl : (t.core c).sf 0x010 fPL = lv
  ie : (t.core c).sf 0x010 fIE = 0
  savedIe : (t.core c).sf 0x010 (if lv = 2 then fMPIE else fSPIE) = (s.core c).sf 0x010 fIE
  savedPl : (t.core c).sf 0x010 (if lv = 2 then fMPPL else fSPPL) = (s.core c).pl % (if lv = 2 then 4 else 2)
  status : ∀ i, i ∉ (if lv = 2 then [0, 1, 2, 8, 9, 10] else [0, 1, 2, 4, 5]) →
    ((t.core c).sysRd 0x010).getLsbD i = ((s.core c).sysRd 0x010).getLsbD i
  pc : (t.core c).pc = (s.core c).sysRd (entryBank lv + 4) + (if int then 0x400 else 0)
  sys : (s.core c).SysKept (t.core c) ([0x010, entryBank lv, entryBank lv + 1, entryBank lv + 2, entryBank lv + 3] ++ but)

/-- The bundle of the one syllable `op` in unit `u` trapped (R88, R89): its address in EPC or MEPC, slot 0 of a bundle of
one syllable in CAUSE, the syllable in BADSYL. -/
def State.Trapped (s t : State) (sl : Slot) (u : Nat) (op : Op) (code : Nat) (bad : Word) (but : List Nat) : Prop :=
  s.Entered t sl.core ((s.core sl.core).routed code) false (s.core sl.core).pc code 1 0 bad
    (BitVec.setWidth 64 (Syl.word ⟨u, true, op⟩)) but

/-- An integer row with the operands a and b, alone in its bundle on a ready core, writes `f` of them to gD, with the
poison of both (R96). -/
def IntRow (row : Slot → RegNo → RegNo → Src → Instr) (f : Word → Word → Word) : Prop :=
  ∀ (s : State) (sl : Slot) (d a : RegNo) (b : Src), s.Ready sl.core → sl.stop = true →
    ∃ t, exec (row sl d a b) s = .next t ∧
      s.RanG t sl.core d ⟨f ((s.core sl.core).rg a).val ((s.core sl.core).sv b).val,
        ((s.core sl.core).rg a).poison || ((s.core sl.core).sv b).poison⟩

/-- The same for a row of unit I1 alone, with a register operand. -/
def MulRow (row : Slot → RegNo → RegNo → RegNo → Instr) (f : Word → Word → Word) : Prop :=
  ∀ (s : State) (sl : Slot) (d a b : RegNo), s.Ready sl.core → sl.stop = true → sl.odd = true →
    ∃ t, exec (row sl d a b) s = .next t ∧
      s.RanG t sl.core d ⟨f ((s.core sl.core).rg a).val ((s.core sl.core).rg b).val,
        ((s.core sl.core).rg a).poison || ((s.core sl.core).rg b).poison⟩

/-- Such a row in unit I0 raises ILLEGAL_BUNDLE (R72). -/
def MulTraps (row : Slot → RegNo → RegNo → RegNo → Instr) (o : I3) : Prop :=
  ∀ (s : State) (sl : Slot) (d a b : RegNo), s.Ready sl.core → sl.stop = true → sl.odd = false →
    ∃ t, exec (row sl d a b) s = .next t ∧ s.Trapped t sl 0 (.alu3 o d a b) 1 0 []

/-! ## Floating-point lanes -/

/-- Lane `i` of a vector register in the lanes of a type (R120). -/
def VReg.laneAt (v : VReg) (ty : FTy) (i : Nat) : Nat := (v.val.extractLsb' (tyWidth ty * i) (tyWidth ty)).toNat

/-- A row with a vector result of type `ty` and element poison `p`, alone in its bundle on the core of `sl`: lane `i`
and its flags satisfy `P i`, and the flags raised are those of the lanes whose element is not poisoned (R121). -/
def FloatRow (s : State) (sl : Slot) (d : RegNo) (ty : FTy) (row : Instr) (p : BitVec 8)
    (P : Nat → Nat → FFlags → Prop) : Prop :=
  ∃ t x f, ∃ fl : Nat → FFlags, exec row s = .next t ∧ s.RanV t sl.core d ⟨x, p⟩ f ∧
    (∀ i, tyWidth ty * i < 512 → P i (VReg.laneAt ⟨x, p⟩ ty i) (fl i)) ∧
    ∀ j, f.getLsbD j = true ↔
      ∃ i, tyWidth ty * i < 512 ∧ p.getLsbD (tyWidth ty * i / 64) = false ∧ (fl i).getLsbD j = true

/-- The NaN that an operation with operands `ops`, in the order a, b, d, gives (R123 rules 2 and 3). -/
def IsNan (t : Fmt) (k : Core) (ops : List Nat) (r : Nat) : Prop :=
  if k.sf 0x030 ⟨4, 4⟩ = 1 then r = t.nan else ∃ x, ops.find? t.isNan = some x ∧ r = x ||| 2 ^ (t.f - 1)

/-- A lane result of exact value `v` from operands `ops` (R122 to R124): a NaN, with NV where an operand is signalling,
or `v` rounded once in FPMODE.RM. -/
def IsArith (t : Fmt) (k : Core) (ops : List Nat) (v : FVal) (r : Nat) (f : FFlags) : Prop :=
  if ops.any t.isNan = true then IsNan t k ops r ∧ f = (if ops.any t.isSig = true then 16#5 else 0)
  else (r, f) = t.result (k.sf 0x030 ⟨2, 0⟩) v

/-- A lane of VFMA (R122, R123): an invalid product raises NV beside a NaN addend too. -/
def IsFused (t : Fmt) (k : Core) (a b d : Nat) (na np : Bool) (r : Nat) (f : FFlags) : Prop :=
  if [a, b, d].any t.isNan = true then
    IsNan t k [a, b, d] r ∧
    f = (if [a, b, d].any t.isSig = true ∨ (t.isNan a = false ∧ t.isNan b = false ∧ (t.val a).mul (t.val b) = .nan)
         then 16#5 else 0)
  else (r, f) = t.result (k.sf 0x030 ⟨2, 0⟩) (((t.val d).flip na).add (k.sf 0x030 ⟨2, 0⟩) (((t.val a).mul (t.val b)).flip np))

/-- A lane of VFMIN or VFMAX (R125). -/
def IsMinMax (t : Fmt) (k : Core) (isMax : Bool) (a b r : Nat) (f : FFlags) : Prop :=
  if t.isNan a = true ∧ t.isNan b = true then
    IsNan t k [a, b] r ∧ f = (if t.isSig a = true ∨ t.isSig b = true then 16#5 else 0)
  else if t.isNan a = true then r = b ∧ f = (if t.isSig a = true then 16#5 else 0)
  else if t.isNan b = true then r = a ∧ f = (if t.isSig b = true then 16#5 else 0)
  else
    f = 0 ∧ (r = a ∨ r = b) ∧
    (if isMax = true then t.key r = max (t.key a) (t.key b) else t.key r = min (t.key a) (t.key b)) ∧
    (t.key a = t.key b → t.neg r = if isMax = true then t.neg a && t.neg b else t.neg a || t.neg b)

/-- A lane of VCMP with predicate EQ, LT, LE or UNORD (R126). -/
def IsCompare (t : Fmt) (p : BitVec 2) (a b r : Nat) (f : FFlags) : Prop :=
  r = (if (if p = 3 then t.isNan a = true ∨ t.isNan b = true
           else t.isNan a = false ∧ t.isNan b = false ∧
             if p = 0 then t.key a = t.key b else if p = 1 then t.key a < t.key b else t.key a ≤ t.key b)
       then 2 ^ (t.e + t.f + 1) - 1 else 0) ∧
  f = (if (if p = 1 ∨ p = 2 then t.isNan a = true ∨ t.isNan b = true else t.isSig a = true ∨ t.isSig b = true)
       then 16#5 else 0)

/-- A lane of VCVT between floating-point types (R128): a NaN keeps its sign and the leading fraction bits that fit. -/
def IsConvFloat (s t : Fmt) (k : Core) (b r : Nat) (f : FFlags) : Prop :=
  if s.isNan b = true then
    f = (if s.isSig b = true then 16#5 else 0) ∧
    r = if k.sf 0x030 ⟨4, 4⟩ = 1 then t.nan
        else (if s.neg b = true then t.sign else 0) +
          ((t.inf + (if t.f ≤ s.f then s.mag b % 2 ^ s.f / 2 ^ (s.f - t.f) else s.mag b % 2 ^ s.f * 2 ^ (t.f - s.f)))
            ||| 2 ^ (t.f - 1))
  else (r, f) = t.result (k.sf 0x030 ⟨2, 0⟩) (s.val b)

/-- A lane of VCVT to an integer of `w` bits (R129): the rounded value, or the nearest bound with NV. -/
def IsConvInt (s : Fmt) (w : Nat) (signed : Bool) (k : Core) (b r : Nat) (f : FFlags) : Prop :=
  let hi : Int := if signed = true then 2 ^ (w - 1) - 1 else 2 ^ w - 1
  let lo : Int := if signed = true then -(2 ^ (w - 1)) else 0
  match s.val b with
  | .nan => r = 0 ∧ f = 16#5
  | .inf neg => (r : Int) = (if neg = true then lo else hi) % 2 ^ w ∧ f = 16#5
  | .fin neg m q =>
    let u := roundUnits (if k.sf 0x030 ⟨5, 5⟩ = 1 then 1 else k.sf 0x030 ⟨2, 0⟩) neg m q 0
    let n : Int := if neg = true then -(u.1 : Int) else u.1
    (r : Int) = max lo (min hi n) % 2 ^ w ∧ f = if n < lo ∨ hi < n then 16#5 else if u.2 = true then 1#5 else 0

/-- A lane of VCVT from an integer of `w` bits (R130). -/
def IsConvFromInt (w : Nat) (signed : Bool) (t : Fmt) (k : Core) (b r : Nat) (f : FFlags) : Prop :=
  let n : Int := if signed = true then (BitVec.ofNat w b).toInt else (BitVec.ofNat w b).toNat
  (r, f) = t.round (k.sf 0x030 ⟨2, 0⟩) (decide (n < 0)) n.natAbs 0

/-- A conversion from lanes of `sw` bits to lanes of `dw` bits, alone in its bundle: each converted lane satisfies `P`,
what lies above them is zero (R127), and poison and flags are those of the elements read (R121). -/
def ConvRow (s : State) (sl : Slot) (d a : RegNo) (row : Instr) (sw dw : Nat) (P : Nat → Nat → FFlags → Prop) : Prop :=
  ∃ t x p f, ∃ fl : Nat → FFlags, exec row s = .next t ∧ s.RanV t sl.core d ⟨x, p⟩ f ∧
    (∀ i, max sw dw * i < 512 →
      P (((s.core sl.core).vr a).val.extractLsb' (sw * i) sw).toNat (x.extractLsb' (dw * i) dw).toNat (fl i)) ∧
    (∀ j, dw * (512 / max sw dw) ≤ j → x.getLsbD j = false) ∧
    (∀ e, e < 8 → (p.getLsbD e = true ↔
      ∃ i, max sw dw * i < 512 ∧ dw * i / 64 = e ∧ ((s.core sl.core).vr a).poison.getLsbD (sw * i / 64) = true)) ∧
    ∀ j, f.getLsbD j = true ↔
      ∃ i, max sw dw * i < 512 ∧ p.getLsbD (dw * i / 64) = false ∧ (fl i).getLsbD j = true

/-! ## Ream terms -/

/-- The number of units of 2^-2176 in a finite FP64 value; 0 for an infinity or a NaN (R138, R139). -/
def fp64Units (x : Nat) : Int :=
  if x / 2 ^ 52 % 2 ^ 11 = 2047 then 0
  else (if x / 2 ^ 63 % 2 = 1 then -1 else 1) *
    (((if x / 2 ^ 52 % 2 ^ 11 = 0 then 0 else 2 ^ 52) + x % 2 ^ 52) * 2 ^ (max (x / 2 ^ 52 % 2 ^ 11) 1 + 1101) : Nat)

/-- The number of units of 2^-2176 in the exact product of two finite FP64 values; 0 where either is not finite. -/
def fp64ProductUnits (x y : Nat) : Int :=
  if x / 2 ^ 52 % 2 ^ 11 = 2047 ∨ y / 2 ^ 52 % 2 ^ 11 = 2047 then 0
  else (if x / 2 ^ 63 % 2 = y / 2 ^ 63 % 2 then 1 else -1) *
    (((if x / 2 ^ 52 % 2 ^ 11 = 0 then 0 else 2 ^ 52) + x % 2 ^ 52) *
     ((if y / 2 ^ 52 % 2 ^ 11 = 0 then 0 else 2 ^ 52) + y % 2 ^ 52) *
     2 ^ (max (x / 2 ^ 52 % 2 ^ 11) 1 + max (y / 2 ^ 52 % 2 ^ 11) 1 + 26) : Nat)

/-- An FP64 bit pattern is a NaN. -/
def fp64Nan (x : Nat) : Bool := x / 2 ^ 52 % 2 ^ 11 == 2047 && x % 2 ^ 52 != 0
/-- It is a signalling NaN. -/
def fp64Sig (x : Nat) : Bool := fp64Nan x && decide (x % 2 ^ 52 < 2 ^ 51)
/-- It is an infinity. -/
def fp64Inf (x : Nat) : Bool := x / 2 ^ 52 % 2 ^ 11 == 2047 && x % 2 ^ 52 == 0
/-- It is a zero of either sign. -/
def fp64Zero (x : Nat) : Bool := x % 2 ^ 63 == 0
/-- Its sign bit. -/
def fp64Neg (x : Nat) : Bool := x / 2 ^ 63 % 2 == 1

/-- `r'` is `r` after one addition of `n` units, with flags and poison ORed in (R144 to R148). -/
def Ream.Added (r r' : Ream) (n : Int) (nan inv pinf ninf poison : Bool) : Prop :=
  r' = { value := BitVec.ofInt 4288 (r.value.toInt + n), nan := r.nan || nan, inv := r.inv || inv,
         pinf := r.pinf || pinf, ninf := r.ninf || ninf,
         ovp := r.ovp || decide (2 ^ 4287 ≤ r.value.toInt + n), ovn := r.ovn || decide (r.value.toInt + n < -2 ^ 4287),
         poison := r.poison || poison }

/-- Two reams added as one addition, with flags and poison ORed (R146, R147). -/
def Ream.plus (r q : Ream) : Ream :=
  { value := BitVec.ofInt 4288 (r.value.toInt + q.value.toInt), nan := r.nan || q.nan, inv := r.inv || q.inv,
    pinf := r.pinf || q.pinf, ninf := r.ninf || q.ninf,
    ovp := r.ovp || q.ovp || decide (2 ^ 4287 ≤ r.value.toInt + q.value.toInt),
    ovn := r.ovn || q.ovn || decide (r.value.toInt + q.value.toInt < -2 ^ 4287), poison := r.poison || q.poison }

/-- A ream negated (R143): the flags of the two signs change places, and -2^2111 overflows. -/
def Ream.minus (r : Ream) : Ream :=
  { value := BitVec.ofInt 4288 (-r.value.toInt), nan := r.nan, inv := r.inv, pinf := r.ninf, ninf := r.pinf,
    ovp := r.ovn || decide (r.value.toInt = -2 ^ 4287), ovn := r.ovp, poison := r.poison }

/-! ## System registers -/

/-- The registers that SYS.MT stores whole but for their reserved fields, with the bits they hold (R92, R93). -/
def sysPlain : List (Nat × Word) :=
  [(0x011, 0xFFFFFFFFFFFFFFFC), (0x012, 0x8000000000007FFF), (0x013, 0xFFFFFFFFFFFFFFFF), (0x014, 0xFFFFFFFF),
   (0x015, 0xFFFFFFFFFFFFF800), (0x016, 0xFFFFFFFFFFFFFFFF), (0x017, 0xFFFFFFFFFFFFFFC7), (0x020, 0xFFFFFFFFFFFFFFFC),
   (0x021, 0x8000000000007FFF), (0x022, 0xFFFFFFFFFFFFFFFF), (0x023, 0xFFFFFFFF), (0x024, 0xFFFFFFFFFFFFF800),
   (0x025, 0xFFFFFFFFFFFFFFFF), (0x026, 0x3FFFE), (0x031, 0x1F), (0x051, 0x00FFFFFFFFFFF0FF), (0x052, 0x00FFFFFFFFFF0F77)]

/-- The access of a level to a system register: 0 none, 1 read, 2 read and write; none where no such register is
assigned (R92). -/
def sysLevel (pl n : Nat) : Option Nat :=
  (sysAccess n).map fun x => if pl = 0 then x.1 else if pl = 1 then x.2.1 else x.2.2

/-- The word with the listed bits of `v` and the others of `w`. -/
def bitsFrom (v w : Word) (is : List Nat) : Word → Prop := fun x =>
  ∀ i, i < 64 → x.getLsbD i = if i ∈ is then v.getLsbD i else w.getLsbD i

/-! ## Accesses of a core -/

/-- The parts of `n` bytes at `va` by 64-byte line (R109): offset and length. -/
def lineCut (va : Word) (n : Nat) : List (Nat × Nat) :=
  (List.range ((va.toNat % 64 + n + 63) / 64)).map fun i =>
    (max (64 * i) (va.toNat % 64) - va.toNat % 64,
     min (64 * (i + 1)) (va.toNat % 64 + n) - max (64 * i) (va.toNat % 64))

/-- The bytes at `va` lie at global address `ga`, in region `r` of the core's own device, and nothing of R85 rows 8c to
8e forbids core `c` the access: an entry, its permission, and no watch on its line. -/
structure State.Allowed (s : State) (c : Nat) (w : Want) (va : Word) (ga : Nat) (r : Region) : Prop where
  walk : ∃ e, (s.core c).walk va = some (ga, e) ∧ (s.core c).grants w e = true
  own : s.isLocal ga = true
  region : s.region c ga = r
  watch : (s.core c).pl = 2 ∨ va.toNat / 64 ≠ ((s.core c).sysRd 0x017).toNat / 64 ∨
    ((w ≠ .store → ((s.core c).sysRd 0x017).getLsbD 0 = false) ∧ (w ≠ .load → ((s.core c).sysRd 0x017).getLsbD 1 = false))

/-- The same, and where the bytes lie in DRAM their page is cacheable. -/
structure State.Open (s : State) (c : Nat) (w : Want) (va : Word) (ga : Nat) (r : Region) : Prop
    extends s.Allowed c w va ga r where
  cached : r = .dram → ∀ g e, (s.core c).walk va = some (g, e) → attrOf e ≠ 1

/-- No entry of the store buffer of core `c` overlaps `n` bytes at global address `ga`. -/
def State.NotStored (s : State) (c ga n : Nat) : Prop :=
  ∀ e ∈ (s.core c).sb, e.addr + e.bytes.length ≤ ga ∨ ga + n ≤ e.addr

/-- A load of `n` bytes at `va` by core `c` finds every line in L1D: `x i` is the line of the part at offset `i`, without
upsets. Lines of two parts lie in different sets. -/
structure State.Hits (s : State) (c : Nat) (va : Word) (n : Nat) (ga : Nat → Nat) (x : Nat → CLine) : Prop where
  opened : ∀ p ∈ lineCut va n, s.Open c .load (va + BitVec.ofNat 64 p.1) (ga p.1) .dram
  clear : ∀ p ∈ lineCut va n, s.NotStored c (ga p.1) p.2
  held : ∀ p ∈ lineCut va n, (s.core c).l1d.find? (fun y => y.line == ga p.1 % 2 ^ 40 / 64) = some (x p.1)
  whole : ∀ p ∈ lineCut va n, (x p.1).data.length = 64
  sound : ∀ p ∈ lineCut va n, (x p.1).flips = []
  sets : ∀ p ∈ lineCut va n, ∀ q ∈ lineCut va n, p ≠ q → ga p.1 % 2 ^ 40 / 64 % 256 ≠ ga q.1 % 2 ^ 40 / 64 % 256

/-- Offset of the part that byte `j` of an access at `va` lies in. -/
def cutOf (va : Word) (j : Nat) : Nat := (va.toNat % 64 + j) / 64 * 64 - va.toNat % 64

/-- Byte `j` of an access at `va` in the lines `x`. -/
def lineByte (va : Word) (x : Nat → CLine) (j : Nat) : Byte := (x (cutOf va j)).data.getD ((va.toNat % 64 + j) % 64) 0

/-- Its check word is poisoned. -/
def linePoison (va : Word) (x : Nat → CLine) (j : Nat) : Bool :=
  (x (cutOf va j)).poison.getD ((va.toNat % 64 + j) % 64 / 4) false

/-- `n` bytes from `f o` as a number, least significant first (R6). -/
def leWord (f : Nat → Byte) (o : Nat) : Nat → Nat
  | 0 => 0
  | n + 1 => (f o).toNat + 256 * leWord f (o + 1) n

/-- From `s` to `t` core `c` ran a load alone in its bundle that L1D answered: registers `g`, `v` and the accumulators
are said elsewhere; the lines of L1D are among those before. -/
structure State.Loaded (s t : State) (c : Nat) : Prop where
  only : s.OnlyCore t c
  core : t.core c = { s.core c with g := (t.core c).g, v := (t.core c).v, acc := (t.core c).acc, sys := (t.core c).sys,
                                    l1d := (t.core c).l1d, pc := (s.core c).pc + 4 }
  lines : ∀ y, y ∈ (t.core c).l1d → y ∈ (s.core c).l1d
  sys : (s.core c).SysKept (t.core c) [0x010]

/-- A load row of `n` bytes whose lines are held in L1D, alone in its bundle: gD takes `f` of the bytes read, least
significant first, poisoned where a check word it touches is (R108, R205, R239). -/
def LoadRow (row : Slot → RegNo → RegNo → Src → Instr) (n : Nat) (f : Nat → Word) : Prop :=
  ∀ (s : State) (sl : Slot) (d a : RegNo) (b : Src) (ga : Nat → Nat) (x : Nat → CLine) (va : Word),
    s.Ready sl.core → sl.stop = true → ((s.core sl.core).rg a).poison = false → ((s.core sl.core).sv b).poison = false →
    va = ((s.core sl.core).rg a).val + ((s.core sl.core).sv b).val → s.Hits sl.core va n ga x →
    ∃ t, exec (row sl d a b) s = .next t ∧ s.Loaded t sl.core ∧
      (t.core sl.core).rg d = (if d = 0 then ⟨0, false⟩
        else ⟨f (leWord (lineByte va x) 0 n), (List.range n).any fun j => linePoison va x j⟩) ∧
      (∀ r, r ≠ d → (t.core sl.core).rg r = (s.core sl.core).rg r) ∧ (t.core sl.core).v = (s.core sl.core).v ∧
      (t.core sl.core).acc = (s.core sl.core).acc ∧ (t.core sl.core).sysRd 0x010 = (s.core sl.core).sysRd 0x010

/-- The store buffer entry of `m` bytes from offset `o` of stored data, at global address `ga` in region `r` of this
device (R185, R239): a check word is poisoned where a byte stored to it is. -/
def entryFor (r : Region) (ga o m : Nat) (byte : Nat → Byte) (pz : Nat → Bool) : SbEntry :=
  { addr := ga, bytes := (List.range m).map fun j => byte (o + j),
    poison := (List.range ((ga % 4 + m + 3) / 4)).map fun w =>
      (List.range m).any fun j => (ga % 4 + j) / 4 == w && pz (o + j),
    kind := if r = .dram then .cacheable else if r = .scratch then .scratch else .device, flips := [] }

/-- From `s` to `t` core `c` ran a store alone in its bundle that put the entries `es` behind its store buffer: memory,
L1D and every register but the pc and the counters are unchanged. -/
structure State.StoredSb (s t : State) (c : Nat) (es : List SbEntry) : Prop where
  only : s.OnlyCore t c
  core : t.core c = { s.core c with sb := (s.core c).sb ++ es, sys := (t.core c).sys, pc := (s.core c).pc + 4 }
  sys : (s.core c).SysKept (t.core c) []

/-- A store of `n` bytes at `va` by core `c` can be posted: every part may be accessed in region `r`, and the buffer of
16 entries has room (R185). -/
structure State.Posts (s : State) (c : Nat) (va : Word) (n : Nat) (ga : Nat → Nat) (r : Region) : Prop where
  region : r = .dram ∨ r = .scratch ∨ r = .flash
  opened : ∀ p ∈ lineCut va n, s.Open c .store (va + BitVec.ofNat 64 p.1) (ga p.1) r
  room : (s.core c).sb.length + (lineCut va n).length ≤ 16

/-- A store row of `n` bytes alone in its bundle: its bytes wait in the store buffer, one entry for each line (R108,
R109, R185, R186). -/
def StoreRow (row : Slot → RegNo → RegNo → Src → Instr) (n : Nat) (byte : Core → RegNo → Nat → Byte)
    (pz : Core → RegNo → Nat → Bool) : Prop :=
  ∀ (s : State) (sl : Slot) (d a : RegNo) (b : Src) (ga : Nat → Nat) (r : Region) (va : Word),
    s.Ready sl.core → sl.stop = true → ((s.core sl.core).rg a).poison = false → ((s.core sl.core).sv b).poison = false →
    va = ((s.core sl.core).rg a).val + ((s.core sl.core).sv b).val → s.Posts sl.core va n ga r →
    ∃ t, exec (row sl d a b) s = .next t ∧
      s.StoredSb t sl.core ((lineCut va n).map fun p =>
        entryFor r (ga p.1) p.1 p.2 (byte (s.core sl.core) d) (pz (s.core sl.core) d))

/-- Where an access of `n` bytes by a row traps (R85 row 8): a poisoned address, no entry, no permission, the watched
line. `w` says what it needs, `code` is the miss code of its kind. -/
def AccessTraps (row : Slot → RegNo → RegNo → Src → Instr) (op : RegNo → RegNo → Src → Op) (n : Nat) (w : Want) (code : Nat) :
    Prop :=
  ∀ (s : State) (sl : Slot) (d a : RegNo) (b : Src) (va : Word), s.Ready sl.core → sl.stop = true →
    va = ((s.core sl.core).rg a).val + ((s.core sl.core).sv b).val → va.toNat % 64 + n ≤ 64 →
    ∃ t, exec (row sl d a b) s = .next t ∧
      ((((s.core sl.core).rg a).poison || ((s.core sl.core).sv b).poison) = true →
        s.Trapped t sl (sl.unit 2) (op d a b) 9 0 []) ∧
      ((((s.core sl.core).rg a).poison || ((s.core sl.core).sv b).poison) = false →
        ((s.core sl.core).walk va = none →
          s.Trapped t sl (sl.unit 2) (op d a b) code va [0x051] ∧
          ((t.core sl.core).sysRd 0x051).extractLsb' 16 40 = va.extractLsb' 16 40) ∧
        ∀ ga e, (s.core sl.core).walk va = some (ga, e) → s.isLocal ga = true → s.region sl.core ga = .dram →
          ((s.core sl.core).grants w e = false → s.Trapped t sl (sl.unit 2) (op d a b) 8 va []) ∧
          ((s.core sl.core).grants w e = true → (s.core sl.core).pl ≠ 2 →
            va.toNat / 64 = ((s.core sl.core).sysRd 0x017).toNat / 64 →
            ((s.core sl.core).sysRd 0x017).getLsbD (if w = .load then 0 else 1) = true →
            s.Trapped t sl (sl.unit 2) (op d a b) 0xF va []))

/-- `v` is what the stores of core `c` that overlap `n` bytes at global address `ga` leave once they have drained from
its store buffer (R112, R187): the core differs in its store buffer and L1D only. -/
structure State.DrainedFor (s v : State) (c ga n : Nat) : Prop where
  drained : s.drainFor c ga n 16 = v
  clear : v.NotStored c ga n
  core : v.core c = { s.core c with sb := (v.core c).sb, l1d := (v.core c).l1d }
  own : v.isLocal ga = s.isLocal ga

/-- An atomic row in M0 at an aligned address of DRAM, scratchpad or a service core's SRAM, alone in its bundle, behind
the buffered stores that overlap it: the old 8 bytes go to gD, what memory holds behind `u` is what `o` makes of them
(R111), and L1D drops the line. -/
def AtomicRow (row : Slot → RegNo → RegNo → RegNo → Instr) (o : Amo) (new : PW → PW → PW → Option PW) : Prop :=
  ∀ (s q u w : State) (sl : Slot) (d a b : RegNo) (ga : Nat) (r : Region) (bs : List Byte) (pz : List Bool) (old : PW) (l : Nat),
    s.Ready sl.core → sl.stop = true → sl.odd = false → ((s.core sl.core).rg a).poison = false →
    ((s.core sl.core).rg a).val.toNat % 8 = 0 → (r = .dram ∨ r = .scratch ∨ r = .sram) →
    s.Allowed sl.core .amo ((s.core sl.core).rg a).val ga r → s.DrainedFor q sl.core ga 8 →
    q.memRead (coreWho sl.core) true (ga % 2 ^ 40) 8 = ⟨u, .ok, bs, pz⟩ → bs.length = 8 →
    old = ⟨BitVec.ofNat 64 (leWord (fun i => bs.getD i 0) 0 8), pz.any id⟩ →
    (r = .dram → q.couch.pend.contains (ga % 2 ^ 40 / 65536) = false) →
    (match new old ((s.core sl.core).rg b) ((s.core sl.core).rg d) with
     | none => w = u
     | some v => u.memWrite (coreWho sl.core) true (ga % 2 ^ 40)
         ((List.range 8).map fun i => v.val.extractLsb' (8 * i) 8) [v.poison, v.poison] = ⟨w, .ok, [], []⟩) →
    w.core sl.core = q.core sl.core → l = ga % 2 ^ 40 / 64 →
    ∃ t, exec (row sl d a b) s = .next t ∧ w.OnlyCore t sl.core ∧
      t.core sl.core = { q.core sl.core with g := (t.core sl.core).g, sys := (t.core sl.core).sys,
                                             l1d := (q.core sl.core).l1d.filter (fun y => y.line != l), pc := (s.core sl.core).pc + 4 } ∧
      (t.core sl.core).rg d = (if d = 0 then ⟨0, false⟩ else old) ∧
      (∀ q, q ≠ d → (t.core sl.core).rg q = (s.core sl.core).rg q) ∧ (s.core sl.core).SysKept (t.core sl.core) []

/-- An atomic row whose access no row before 8f of R85 stops is answered NO_RESPONDER in a queue window and the flash
window (R112), is MISALIGNED off a multiple of 8 (R111), and is illegal in M1. -/
def AtomicTraps (row : Slot → RegNo → RegNo → RegNo → Instr) (o : Amo) : Prop :=
  ∀ (s : State) (sl : Slot) (d a b : RegNo), s.Ready sl.core → sl.stop = true →
    ∃ t, exec (row sl d a b) s = .next t ∧
      (sl.odd = true → s.Trapped t sl 3 (.amo o d a b) 1 0 []) ∧
      (sl.odd = false → ((s.core sl.core).rg a).poison = true → s.Trapped t sl 2 (.amo o d a b) 9 0 []) ∧
      (sl.odd = false → ((s.core sl.core).rg a).poison = false →
        (((s.core sl.core).rg a).val.toNat % 8 ≠ 0 → s.Trapped t sl 2 (.amo o d a b) 4 ((s.core sl.core).rg a).val []) ∧
        (((s.core sl.core).rg a).val.toNat % 8 = 0 → ∀ (ga : Nat) (r : Region), (r = .queue ∨ r = .flash) →
          s.Allowed sl.core .amo ((s.core sl.core).rg a).val ga r →
          s.Trapped t sl 2 (.amo o d a b) 0xB ((s.core sl.core).rg a).val []))

/-- Nothing older of core `c` is still to be performed or answered (R115). -/
structure State.Settled (s : State) (c : Nat) : Prop where
  sb : (s.core c).sb = []
  out : ∀ o ∈ s.outst, o.core = c → o.kind = .load

/-- `v` is what the stores of core `c` that can drain now leave: the core differs in its store buffer, L1D and the record
of a failed posted store only, and nothing more can drain. -/
structure State.DrainedAll (s v : State) (c : Nat) : Prop where
  drained : s.drainAll c 16 = v
  core : v.core c = { s.core c with sb := (v.core c).sb, l1d := (v.core c).l1d, pstoreAddr := (v.core c).pstoreAddr,
                                    pstoreCode := (v.core c).pstoreCode }
  done : v.drainAll c 16 = v

/-- The bundle of core `c` is held: nothing of it is written, the pc stands. -/
structure State.HeldBundle (s t : State) (c : Nat) : Prop where
  only : s.OnlyCore t c
  core : t.core c = { s.core c with cur := (t.core c).cur, waiting := (t.core c).waiting, sleeping := (t.core c).sleeping }
  cur : (t.core c).cur.isSome = true

/-- From `s` to `t` core `c` ran a bundle that wrote no register and left its caches as `l1d`, `l1i`. -/
structure State.RanC (s t : State) (c : Nat) (l1d l1i : List CLine) : Prop where
  only : s.OnlyCore t c
  core : t.core c = { s.core c with sys := (t.core c).sys, pc := (s.core c).pc + 4, l1d := l1d, l1i := l1i,
                                    lineBuf := (t.core c).lineBuf, ask := (t.core c).ask }
  sys : (s.core c).SysKept (t.core c) []

/-- An ETLB command of number `n` by a SYS.MT of unpoisoned data at a level that may write ETLB_INDEX: `P` holds of the
core before, the word written, and the core after; WIRED takes its field, and only ETLB state and L1D may change. -/
def EtlbRow (row : Slot → RegNo → Instr) (n : Nat) (P : Core → Word → Core → Prop) : Prop :=
  ∀ (s : State) (sl : Slot) (d : RegNo) (v : Word), s.Ready sl.core → sl.stop = true → (s.core sl.core).pl ≠ 0 →
    (s.core sl.core).pl < 3 → (s.core sl.core).rg d = ⟨v, false⟩ → (v.extractLsb' 12 3).toNat = n →
    ∃ t, exec (row sl d) s = .next t ∧ s.OnlyCore t sl.core ∧
      t.core sl.core = { s.core sl.core with sys := (t.core sl.core).sys, etlb := (t.core sl.core).etlb,
                                             l1d := (t.core sl.core).l1d, pc := (s.core sl.core).pc + 4 } ∧
      (s.core sl.core).SysKept (t.core sl.core) [0x050, 0x051, 0x052] ∧
      (t.core sl.core).sf 0x050 fWIRED = (v.extractLsb' 16 6).toNat ∧ P (s.core sl.core) v (t.core sl.core)

/-- INDEX of the word written to ETLB_INDEX. -/
def etlbIndex (v : Word) : Nat := (v.extractLsb' 0 6).toNat

/-- NEXT behind a write of ETLB_INDEX that names no WRITE (R203). -/
def etlbNext (k : Core) (v : Word) : Nat := max (k.sf 0x050 fNEXT) (v.extractLsb' 16 6).toNat

/-- ETLB_HI, ETLB_LO, INDEX and MISS are as a write of ETLB_INDEX without effect on them leaves them. -/
def Core.EtlbPlain (k : Core) (v : Word) (k' : Core) : Prop :=
  k'.sysRd 0x051 = k.sysRd 0x051 ∧ k'.sysRd 0x052 = k.sysRd 0x052 ∧ k'.sf 0x050 fINDEX = etlbIndex v ∧
  k'.sf 0x050 fMISS = k.sf 0x050 fMISS ∧ k'.sf 0x050 fNEXT = etlbNext k v ∧ k'.l1d = k.l1d

/-! ## Units of the device -/

/-- Memory controller `d` answers tile `p` at once (R22, R423, R424): the die fabrics on the way and its own domain stand
open, it is READY, and no access is held anywhere. -/
structure State.McOpen (s : State) (p d : Nat) : Prop where
  fabric : ∀ e ∈ s.diePath 8 (p / 17) d, s.gate (136 + e) = .opened
  mc : s.gate (144 + d) = .opened
  ready : s.fld (MC_STATE.adr d) MC_STATE.STATE = 2
  held : s.power.held = []

/-- The domain of a repair unit is on. -/
def State.unitOn (s : State) : RUnit → Prop
  | .tile p => p < 136 ∧ s.isOn p = true
  | .mc d => d < 8 ∧ s.isOn (144 + d) = true

/-- Segment `g` of tile `p` holds nothing any more (R210): its valid bits are cleared and its cached lines dropped. -/
def State.Erased (s t : State) (p g : Nat) : Prop :=
  (∀ k, k ∈ t.segLines ↔ k ∈ s.segLines ∧ k / 4096 ≠ p * 16 + g) ∧ (∀ x, x ∈ t.tags ↔ x ∈ s.tags ∧ x.seg ≠ p * 16 + g)

/-! ## Queues and events -/

/-- Queue `q` of tile `p` is `m` in `t`, the upsets of its storage aside; every other queue and the storage arrays are as
in `s`. -/
structure State.QueueIs (s t : State) (p q : Nat) (m : MQueue) : Prop where
  here : t.queue p q = { m with flips := (t.queue p q).flips }
  others : ∀ p' q', q' < 32 → (p', q') ≠ (p, q) → t.queue p' q' = s.queue p' q'
  mem : t.mem = s.mem ∧ t.chk = s.chk

/-- No watcher slot is enabled for event source `n` (R288). -/
def State.Unwatched (s : State) (n : Nat) : Prop :=
  ∀ i, i < 64 → ¬ (fset? WW_SLOT.ENABLE (s.rd (WW_SLOT.adr i)) = true ∧ fget WW_SLOT.SOURCE (s.rd (WW_SLOT.adr i)) = n)

/-- A counting source after one more arrival (R277). -/
def EvSource.arrived1 (e : EvSource) : EvSource :=
  { e with count := min 0xFFFF (e.count + 1), arrived := (e.arrived + if e.count < 0xFFFF then 1 else 0) % 2 ^ 32,
           sat := e.sat || decide (0xFFFF ≤ e.count) }

/-- Source `n` can be claimed for core `c` (R280). -/
def State.CanClaim (s : State) (c n : Nat) : Prop :=
  n < 7712 ∧ (s.src n).target = c ∧ (s.src n).masked = false ∧ (s.src n).insvc = false ∧
  (if (s.src n).isLevel = true then (s.src n).level = true else (s.src n).count ≠ 0) ∧
  s.fld (EV_CORE_CTL.adr c) EV_CORE_CTL.THRESHOLD ≤ (s.src n).prio

/-- The hub's sources stand in rising order, each once. -/
def State.HubSorted (s : State) : Prop := (s.hub.map (·.1)).Pairwise (· < ·)

/-! ## Links -/

/-- What follows an event of link `n` in state `s` that brought about `t` of the link itself: the requests that the link
owes (R321, R324), and what waits for its state: the time exchange (R358), the collective contexts (R356), the mirror
group (R365) and a slice's OFF (R417). -/
def State.linkDone (t s : State) (n : Nat) : State :=
  ((((t.linkSettle n).timeLink n).collLink n).groupCheck s).sliceDone (n / 36)

/-- The event `row` of link `n` brings about `t` of the link itself. -/
def State.LinkGives (s : State) (n : Nat) (row : Instr) (t : State) : Prop := exec row s = .next (t.linkDone s n)

/-- Link `n` runs: TSTATE ACTIVE, PSTATE ACTIVE. -/
def State.LinkActive (s : State) (n : Nat) : Prop := s.ts n = 5 ∧ s.ps n = 0

/-- What a message acknowledges at link `n` is nothing new. -/
def State.NoneAcked (s : State) (n exp : Nat) : Prop := exp = s.txOldest n

/-! ## The router -/

/-- From `s` to `t` the device sent a TIME REQ with a new SEQ and the stamp `t1` on link `n` to its parent (R357). -/
def State.AsksTime (s t : State) (n : Nat) (t1 : Word) : Prop :=
  ∃ r : Packet, t = ({ s with tsync := { s.tsync with seq := (s.tsync.seq + 1) % 65536, answered := false, t1 := t1 } } : State).giveLink
      n 7 r (.new (n / 36) 7 r) ∧
    r.op = 7 ∧ r.resp = false ∧ r.dest = s.fld (LNK_STAT.adr n) LNK_STAT.FAR_DEVICE ∧ r.src = s.ownDev ∧ r.len = 0 ∧ r.hops = 1 ∧
    bytesAt r.body 0 1 = 0 ∧ bytesAt r.body 4 2 = (s.tsync.seq + 1) % 65536 ∧ bytesAt r.body 8 8 = t1.toNat

/-- What R351 refuses in the word `w` written to COLL_CFG of context `c`. -/
def State.RefusedCfg (s : State) (c : Nat) (w : Word) : Prop :=
  10 ≤ fget COLL_CFG.OP w ∨
  (fget COLL_CFG.OP w = 1 ∧ (fget COLL_CFG.COUNT w = 0 ∨ 7 < fget COLL_CFG.COUNT w)) ∨
  (2 ≤ fget COLL_CFG.OP w ∧ (fget COLL_CFG.COUNT w = 0 ∨ 64 < fget COLL_CFG.COUNT w)) ∨
  (fget COLL_CFG.OP w = 1 ∧ fget COLL_CFG.RAW w = 0 ∧ 5 ≤ fget COLL_CFG.RND w % 8) ∨
  (fget COLL_CFG.ROOT w = 0 ∧ (144 ≤ fget COLL_CFG.PARENT w ∨ fget COLL_CFG.PARENT w ∈ s.collChildren c)) ∨
  s.collResult c % 8 ≠ 0 ∨ 0x8020000000 ≤ s.collResult c ∨ (fget COLL_CFG.NLOCAL w = 0 ∧ s.collChildren c = [])

/-! ## Mirroring -/

/-- From `s` to `t` the epoch in progress failed (R378): ABORT left where a group link takes it, every granule of the
epoch is dirty again in every tracker that is on, the books are zero, and FAILED, with REJECTED for a refusal, is set with event 7,185. -/
def State.EpochFailed (s t : State) (rejected : Bool) : Prop :=
  ∃ u v : State, v = s.couchSend (s.couchPkt (couchBody 4 0 0 s.ceEpoch 0 0) [] []) ∧ t = u.event 7185 ∧
    u = { v with ctrl := u.ctrl, couch := u.couch } ∧
    u.couch = { (s.couch.pend ++ s.couch.pre.map (·.1) ++ s.couch.flight.map (·.1)).foldl
                  (fun c g => c.mark (v.trackers (List.range 8)) g) v.couch with
                pend := [], pre := [], flight := [], busy := [], waiting := [], counted := [], reqs := [], began := false,
                tag := (v.couch.tag + 1) % 65536 } ∧
    u.fld CE_BOOK_0.adr CE_BOOK_0.MARKED = 0 ∧ u.fld CE_BOOK_0.adr CE_BOOK_0.PENDING = 0 ∧ u.fld CE_BOOK_1.adr CE_BOOK_1.SENT = 0 ∧
    u.fld CE_BOOK_1.adr CE_BOOK_1.PREIMAGED = 0 ∧ u.ceState = (if v.has CE_CTL.adr CE_CTL.ENABLE = true then 1 else 0) ∧
    u.ceEpoch = v.ceEpoch ∧ u.fld CE_EVT.adr CE_EVT.FAILED = 1 ∧ (rejected = true → u.fld CE_EVT.adr CE_EVT.REJECTED = 1)

/-- The receive log of epoch `e` and `count` granules is open and empty (R383). -/
def State.LogOpen (s : State) (e count : Nat) : Prop :=
  s.rxState = 2 ∧ s.fld RX_LOGSTAT.adr RX_LOGSTAT.EPOCH = e ∧ s.fld RX_LOGSTAT.adr RX_LOGSTAT.SLOTS = 0 ∧
  s.fld RX_LOGSTAT.adr RX_LOGSTAT.BAD = 0 ∧ s.couch.rxCount = count ∧ s.couch.rxChunks = []

/-- From `s` to `t` every switched domain went off and lost what it held, and the AON domain kept what R440 names. -/
structure State.OffNow (s t : State) : Prop where
  dom : ∀ k, k < 303 → t.dom k = 0
  store : t.mem = [] ∧ t.chk = [] ∧ t.segLines = [] ∧ t.tags = []
  cores : ∀ c, t.core c = Core.reset
  blocks : t.hub = [] ∧ t.queues = [] ∧ t.outst = [] ∧ t.rtWait = [] ∧ t.links = [] ∧ t.coll = []
  couch : t.couch = CouchSt.reset
  kept : ∀ a, aonKept a = true → t.rd a = s.rd a
  aon : t.clock.aon = s.clock.aon ∧ t.clock.aonArmed = s.clock.aonArmed
  ring : t.bb = s.bb ∧ t.wptr = s.wptr
  flash : t.flash = s.flash
  pending : t.pending = s.pending

/-- `s` with the readings `temps` in the registers of the sensors of die `die` (R428). -/
def State.withTemps (s : State) (die : Nat) (temps : List (BitVec 16)) : State :=
  ((dieSensors die).zip temps).foldl (fun s p => s.setF (TSENS.adr p.1) TSENS.TEMP p.2.toNat) s

/-- An SMBus transaction of this device while its AON domain is powered (R492). -/
def State.SmbOurs (s : State) (q : SmbReq) : Prop :=
  s.power.aonGood = true ∧ q.addr = s.fld BRD_SMB.adr BRD_SMB.ADDR

/-- One whose PEC, or whose lack of a PEC, is accepted (R492). -/
def State.SmbOk (s : State) (q : SmbReq) : Prop :=
  s.SmbOurs q ∧ (q.pec = some true ∨ (q.pec = none ∧ s.has BRD_SMB.adr BRD_SMB.PEC_REQ = false))

/-- `s` after an acknowledged SMBus transaction that returned `bytes`. -/
def State.smbReply (s : State) (bytes : List Byte) : State := { s with out := s.out ++ [.smbus true bytes] }

/-- Sensor `i` lies on a powered die (R428). -/
def State.SensorOn (s : State) (i : Nat) : Prop :=
  ∃ d, d < 12 ∧ i ∈ dieSensors d ∧ s.isOn (if d < 8 then 136 + d else 296 + (d - 8)) = true

/-- The settings of PMB_CMD that a write of `v` with this PROTO stores (R491). -/
def State.pmbSet (s : State) (proto : Nat) (v : Word) : State :=
  let r := PMB_CMD.adr
  let s := ((s.setF r PMB_CMD.LEN (fget PMB_CMD.LEN v)).setF r PMB_CMD.PROTO proto).setF r PMB_CMD.PEC (fget PMB_CMD.PEC v)
  let s := (s.setF r PMB_CMD.TADDR (fget PMB_CMD.TADDR v)).setF r PMB_CMD.COMMAND (fget PMB_CMD.COMMAND v)
  if fget PMB_CMD.SPEED v = 3 then s else s.setF r PMB_CMD.SPEED (fget PMB_CMD.SPEED v)

/-- `s` with the PMBus transaction of `v` started, `n` bytes of PMB_DATA being written (R493). -/
def State.pmbGo (s : State) (proto n : Nat) (v : Word) : State :=
  let t := (s.pmbSet proto v).setF PMB_CMD.adr PMB_CMD.GO 1
  { t with out := t.out ++ [.pmbus (fget PMB_CMD.TADDR v) proto (fget PMB_CMD.COMMAND v) (toBytes n (s.rd PMB_DATA.adr).toNat)] }

/-- Inbound window `k` matches and permits request `r` (R488). -/
def State.InWindow (s : State) (r : PcieReq) (k : Nat) : Prop :=
  s.has (PCIE_IN_BASE.adr k) PCIE_IN_BASE.VALID = true ∧ s.fld (PCIE_IN_BASE.adr k) PCIE_IN_BASE.BASE = r.addr / 2 ^ 30 ∧
  s.has (PCIE_IN_BASE.adr k) (if r.write then PCIE_IN_BASE.WRITE else PCIE_IN_BASE.READ) = true

end Sys2Proof.Machine
end

