-- ==== Sys2Proof/Certificates/Slice0/Obligations.lean ====
section
/-!
DEFINITION. The statements for the provers, each over every state and operands that meet its hypotheses.  The terms they
use are in Safety.
-/

section Statements

open Sys2Proof Sys2Proof.Machine

/-- O1. A step takes the command at the front of the queue and has its effect on the rest; the queue is the model's own. -/
def Obligations.StepRunsFrontCommand : Prop :=
  ∀ (s : State) (c : Instr), step { s with pending := c :: s.pending } = exec c s

/-- O2. Every command has an effect, on every state.  What an idle step does is the model's choice (assumption log entry
26); the reset values are those of R66, R83, R204, R488 and R491. -/
def Obligations.EveryCommandCompletes : Prop :=
  (∀ (c : Instr) (s : State), ∃ t : State, exec c s = .next t) ∧
  (∀ s : State, s.pending = [] → step s = .next s.idle) ∧
  (∀ s : State, ∃ t : State, step s = .next t) ∧
  State.reset.pending = [] ∧ State.reset.mem = [] ∧ (∀ c, State.reset.core c = Core.reset) ∧
  Core.reset.running = false ∧ Core.reset.pl = 2 ∧ Core.reset.sf 0x010 fIE = 0 ∧ Core.reset.sf 0x010 fXLATE = 0 ∧
  Core.reset.etlb = [] ∧ (∀ r : RegNo, (Core.reset.rg r).poison = false) ∧
  (∀ k, k < 296 → State.reset.dom k = 0) ∧ State.reset.fld BRD_SMB.adr BRD_SMB.ADDR = 0x5A ∧
  State.reset.fld PCIE_MSI.adr PCIE_MSI.ADDR * 4 = 0xFFF00000

/-- O3. R68, R69 and R76 to R80: no bit of a word is lost in either direction. -/
def Obligations.SyllableWordsDecode : Prop :=
  (∀ y : Syl, y.op.ok y.u = true → decodeSyl y.word = y) ∧
  (∀ w : BitVec 32, (decodeSyl w).word = w) ∧
  (∀ (w : BitVec 32) (b : BitVec 28), (decodeSyl w).op = .bad b → ∀ ys i, illegalAt ys i (decodeSyl w) = true ∧ b = w.setWidth 28) ∧
  (∀ w : BitVec 32, (decodeSyl w).u = w.toNat / 2 ^ 28 % 8 ∧ ((decodeSyl w).stop = true ↔ w.getLsbD 31 = true))

/-- O4. R97, in the register and the immediate forms, in I0 and I1: the result goes to gD with its operands' poison (R96),
and nothing else changes but the pc and the performance counters. -/
def Obligations.IntArithmetic : Prop :=
  IntRow .add (fun x y => x + y) ∧
  IntRow .sub (fun x y => x - y) ∧
  IntRow .and (fun x y => x &&& y) ∧
  IntRow .or (fun x y => x ||| y) ∧
  IntRow .xor (fun x y => x ^^^ y) ∧
  IntRow .andn (fun x y => x &&& ~~~ y) ∧
  IntRow .min (fun x y => BitVec.ofInt 64 (Min.min x.toInt y.toInt)) ∧
  IntRow .max (fun x y => BitVec.ofInt 64 (Max.max x.toInt y.toInt)) ∧
  IntRow .minu (fun x y => BitVec.ofNat 64 (Min.min x.toNat y.toNat)) ∧
  IntRow .maxu (fun x y => BitVec.ofNat 64 (Max.max x.toNat y.toNat))

/-- O5. R98: the amount is b[7:0], and b[63:8] are ignored; the immediate form takes the low 8 bits of the sign-extended
immediate. -/
def Obligations.ShiftsAndRotate : Prop :=
  IntRow .shl (fun x y => if y.toNat % 256 ≤ 63 then BitVec.ofNat 64 (x.toNat * 2 ^ (y.toNat % 256)) else 0) ∧
  IntRow .shr (fun x y => if y.toNat % 256 ≤ 63 then BitVec.ofNat 64 (x.toNat / 2 ^ (y.toNat % 256)) else 0) ∧
  IntRow .sar (fun x y =>
    if y.toNat % 256 ≤ 63 then BitVec.ofInt 64 (x.toInt / 2 ^ (y.toNat % 256))
    else if x.getLsbD 63 then BitVec.allOnes 64 else 0) ∧
  IntRow .rol (fun x y =>
    BitVec.ofNat 64 (x.toNat * 2 ^ (y.toNat % 256 % 64) + x.toNat / 2 ^ (64 - y.toNat % 256 % 64)))

/-- O6. R99: an immediate is compared as its sign extension to 64 bits, also by the unsigned comparisons. -/
def Obligations.Comparisons : Prop :=
  IntRow .cmpeq (fun x y => if x = y then 1 else 0) ∧
  IntRow .cmpne (fun x y => if x = y then 0 else 1) ∧
  IntRow .cmplt (fun x y => if x.toInt < y.toInt then 1 else 0) ∧
  IntRow .cmple (fun x y => if x.toInt ≤ y.toInt then 1 else 0) ∧
  IntRow .cmpltu (fun x y => if x.toNat < y.toNat then 1 else 0) ∧
  IntRow .cmpleu (fun x y => if x.toNat ≤ y.toNat then 1 else 0) ∧
  ∀ (k : Core) (i : BitVec 10), (k.sv (.imm i)) = ⟨i.signExtend 64, false⟩

/-- O7. R100 to R104, each bit of a field result spelled out; field bits at positions 64 and above read as 0. -/
def Obligations.SelectFieldsCountsConstants : Prop :=
  (∀ (s : State) (sl : Slot) (d a : RegNo) (b : Src), s.Ready sl.core → sl.stop = true →
    ∃ t, exec (.csel sl d a b) s = .next t ∧
      if ((s.core sl.core).rg a).poison then
        s.Entered t sl.core ((s.core sl.core).routed 9) false (s.core sl.core).pc 9 1 0 0
          (BitVec.setWidth 64 (Syl.word ⟨sl.unit 0, true, .alu .csel d a b⟩)) []
      else s.RanG t sl.core d (if ((s.core sl.core).rg a).val ≠ 0 then (s.core sl.core).sv b else (s.core sl.core).rg d)) ∧
  (∀ (s : State) (sl : Slot) (d a b : RegNo), s.Ready sl.core → sl.stop = true →
    ∃ t u v, exec (.bfx sl d a b) s = .next t ∧ exec (.bfxu sl d a b) s = .next u ∧ exec (.bfi sl d a b) s = .next v ∧
      ∃ x y z : Word,
        s.RanG t sl.core d ⟨x, ((s.core sl.core).rg a).poison || ((s.core sl.core).rg b).poison⟩ ∧
        s.RanG u sl.core d ⟨y, ((s.core sl.core).rg a).poison || ((s.core sl.core).rg b).poison⟩ ∧
        s.RanG v sl.core d ⟨z, ((s.core sl.core).rg a).poison || ((s.core sl.core).rg b).poison || ((s.core sl.core).rg d).poison⟩ ∧
        let p := ((s.core sl.core).rg b).val.toNat % 64
        let n := if ((s.core sl.core).rg b).val.toNat / 256 % 64 = 0 then 64 else ((s.core sl.core).rg b).val.toNat / 256 % 64
        ∀ i, i < 64 →
          x.getLsbD i = ((s.core sl.core).rg a).val.getLsbD (p + Min.min i (n - 1)) ∧
          y.getLsbD i = (decide (i < n) && ((s.core sl.core).rg a).val.getLsbD (p + i)) ∧
          z.getLsbD i = if p ≤ i ∧ i < p + n then ((s.core sl.core).rg a).val.getLsbD (i - p)
                        else ((s.core sl.core).rg d).val.getLsbD i) ∧
  (∀ (s : State) (sl : Slot) (d a : RegNo), s.Ready sl.core → sl.stop = true →
    ∃ t u v n m, exec (.clz sl d a) s = .next t ∧ exec (.ctz sl d a) s = .next u ∧ exec (.popc sl d a) s = .next v ∧
      s.RanG t sl.core d ⟨BitVec.ofNat 64 n, ((s.core sl.core).rg a).poison⟩ ∧
      s.RanG u sl.core d ⟨BitVec.ofNat 64 m, ((s.core sl.core).rg a).poison⟩ ∧
      s.RanG v sl.core d ⟨BitVec.ofNat 64 ((List.range 64).countP fun i => ((s.core sl.core).rg a).val.getLsbD i),
        ((s.core sl.core).rg a).poison⟩ ∧
      n ≤ 64 ∧ (∀ i, i < n → ((s.core sl.core).rg a).val.getLsbD (63 - i) = false) ∧
      (n < 64 → ((s.core sl.core).rg a).val.getLsbD (63 - n) = true) ∧
      m ≤ 64 ∧ (∀ i, i < m → ((s.core sl.core).rg a).val.getLsbD i = false) ∧
      (m < 64 → ((s.core sl.core).rg a).val.getLsbD m = true)) ∧
  (∀ (s : State) (sl : Slot) (d a b : RegNo), s.Ready sl.core → sl.stop = true →
    ∃ t x, exec (.bperm sl d a b) s = .next t ∧
      s.RanG t sl.core d ⟨x, ((s.core sl.core).rg a).poison || ((s.core sl.core).rg b).poison || ((s.core sl.core).rg d).poison⟩ ∧
      ∀ i, i < 8 →
        let k := (((s.core sl.core).rg b).val.extractLsb' (4 * i) 4).toNat
        x.extractLsb' (8 * i) 8 = if k < 8 then ((s.core sl.core).rg a).val.extractLsb' (8 * k) 8
                                  else ((s.core sl.core).rg d).val.extractLsb' (8 * (k - 8)) 8) ∧
  (∀ (s : State) (sl : Slot) (d : RegNo) (imm : BitVec 16), s.Ready sl.core → sl.stop = true →
    ∃ t u, exec (.ldil sl d imm) s = .next t ∧ exec (.ldih sl d imm) s = .next u ∧
      s.RanG t sl.core d ⟨imm.signExtend 64, false⟩ ∧
      s.RanG u sl.core d ⟨((s.core sl.core).rg d).val.extractLsb' 0 48 ++ imm, ((s.core sl.core).rg d).poison⟩)

/-- O8. R105 and R106; in I0 the rows are illegal (R72). -/
def Obligations.MultiplyDivide : Prop :=
  MulRow .mul (fun x y => BitVec.ofNat 64 (x.toNat * y.toNat)) ∧
  MulRow .mulh (fun x y => BitVec.ofInt 64 (x.toInt * y.toInt / 2 ^ 64)) ∧
  MulRow .mulhu (fun x y => BitVec.ofNat 64 (x.toNat * y.toNat / 2 ^ 64)) ∧
  MulRow .div (fun x y => if y = 0 then 0xFFFFFFFFFFFFFFFF#64 else BitVec.ofInt 64 (x.toInt.tdiv y.toInt)) ∧
  MulRow .divu (fun x y => if y = 0 then 0xFFFFFFFFFFFFFFFF#64 else BitVec.ofNat 64 (x.toNat / y.toNat)) ∧
  MulRow .rem (fun x y => if y = 0 then x else BitVec.ofInt 64 (x.toInt.tmod y.toInt)) ∧
  MulRow .remu (fun x y => if y = 0 then x else BitVec.ofNat 64 (x.toNat % y.toNat)) ∧
  MulTraps .mul .mul ∧ MulTraps .mulh .mulh ∧ MulTraps .mulhu .mulhu ∧ MulTraps .div .div ∧ MulTraps .divu .divu ∧
  MulTraps .rem .rem ∧ MulTraps .remu .remu

/-- O9. R116 and R75 for bundles of one syllable. -/
def Obligations.BranchesAndJumps : Prop :=
  ∀ (s : State) (sl : Slot), s.Ready sl.core → sl.stop = true →
    (∀ i : BitVec 22, ∃ t u, exec (.br sl i) s = .next t ∧ exec (.call sl i) s = .next u ∧
      s.RanB t sl.core ((s.core sl.core).pc + 4 * i.signExtend 64) none ∧
      s.RanB u sl.core ((s.core sl.core).pc + 4 * i.signExtend 64) (some 63)) ∧
    (∀ (d : RegNo) (i : BitVec 16), ∃ t u, exec (.bz sl d i) s = .next t ∧ exec (.bnz sl d i) s = .next u ∧
      if ((s.core sl.core).rg d).poison then
        s.Trapped t sl 6 (.bz false d i) 9 0 [] ∧ s.Trapped u sl 6 (.bz true d i) 9 0 []
      else if ((s.core sl.core).rg d).val = 0 then
        s.RanB t sl.core ((s.core sl.core).pc + 4 * i.signExtend 64) none ∧ s.RanB u sl.core ((s.core sl.core).pc + 4) none
      else
        s.RanB t sl.core ((s.core sl.core).pc + 4) none ∧ s.RanB u sl.core ((s.core sl.core).pc + 4 * i.signExtend 64) none) ∧
    (∀ d a : RegNo, ∃ t u v, exec (.jr sl a) s = .next t ∧ exec (.ret sl a) s = .next u ∧ exec (.callr sl d a) s = .next v ∧
      if ((s.core sl.core).rg a).poison then
        s.Trapped t sl 6 (.jr a) 9 0 [] ∧ s.Trapped u sl 6 (.ret a) 9 0 [] ∧ s.Trapped v sl 6 (.callr d a) 9 0 []
      else if ((s.core sl.core).rg a).val.extractLsb' 0 2 ≠ 0 then
        s.Trapped t sl 6 (.jr a) 4 ((s.core sl.core).rg a).val [] ∧ s.Trapped u sl 6 (.ret a) 4 ((s.core sl.core).rg a).val [] ∧
        s.Trapped v sl 6 (.callr d a) 4 ((s.core sl.core).rg a).val []
      else
        s.RanB t sl.core ((s.core sl.core).rg a).val none ∧ s.RanB u sl.core ((s.core sl.core).rg a).val none ∧
        s.RanB v sl.core ((s.core sl.core).rg a).val (some d))

/-- O10. R131 to R133; lane i of width w occupies bits [w × i + w − 1 : w × i] (R120). -/
def Obligations.VectorIntegerAndMoves : Prop :=
  ∀ (s : State) (sl : Slot), s.Ready sl.core → sl.stop = true →
    (∀ (d a b : RegNo) (c : BitVec 2) (w : Nat), d.toNat < 32 → a.toNat < 32 → b.toNat < 32 →
      (c = 0 ∧ w = 64) ∨ (c = 1 ∧ w = 32) ∨ (c = 2 ∧ w = 16) →
      ∃ t u v x y z, exec (.viadd sl d a b c) s = .next t ∧ exec (.visub sl d a b c) s = .next u ∧
        exec (.vimul sl d a b c) s = .next v ∧
        s.RanV t sl.core d ⟨x, ((s.core sl.core).vr a).poison ||| ((s.core sl.core).vr b).poison⟩ 0 ∧
        s.RanV u sl.core d ⟨y, ((s.core sl.core).vr a).poison ||| ((s.core sl.core).vr b).poison⟩ 0 ∧
        s.RanV v sl.core d ⟨z, ((s.core sl.core).vr a).poison ||| ((s.core sl.core).vr b).poison⟩ 0 ∧
        ∀ i, w * i < 512 →
          x.extractLsb' (w * i) w = ((s.core sl.core).vr a).val.extractLsb' (w * i) w + ((s.core sl.core).vr b).val.extractLsb' (w * i) w ∧
          y.extractLsb' (w * i) w = ((s.core sl.core).vr a).val.extractLsb' (w * i) w - ((s.core sl.core).vr b).val.extractLsb' (w * i) w ∧
          z.extractLsb' (w * i) w = ((s.core sl.core).vr a).val.extractLsb' (w * i) w * ((s.core sl.core).vr b).val.extractLsb' (w * i) w) ∧
    (∀ d a b : RegNo, d.toNat < 32 → a.toNat < 32 → b.toNat < 32 →
      ∃ t x, exec (.vpermb sl d a b) s = .next t ∧ s.RanV t sl.core d x 0 ∧
        (∀ j, j < 64 →
          let k := ((s.core sl.core).vr b).val.extractLsb' (8 * j) 8
          x.val.extractLsb' (8 * j) 8 = if k.getLsbD 7 then 0
            else ((s.core sl.core).vr a).val.extractLsb' (8 * (k.extractLsb' 0 6).toNat) 8) ∧
        ∀ e, e < 8 → (x.poison.getLsbD e = true ↔
          ((s.core sl.core).vr b).poison.getLsbD e = true ∨ ∃ j, 8 * e ≤ j ∧ j < 8 * e + 8 ∧
            let k := ((s.core sl.core).vr b).val.extractLsb' (8 * j) 8
            k.getLsbD 7 = false ∧ ((s.core sl.core).vr a).poison.getLsbD ((k.extractLsb' 0 6).toNat / 8) = true)) ∧
    (∀ (d a : RegNo) (ty : FTy), d.toNat < 32 →
      ∃ t x, exec (.vbcast sl d a ty) s = .next t ∧
        s.RanV t sl.core d ⟨x, if ((s.core sl.core).rg a).poison then BitVec.allOnes 8 else 0⟩ 0 ∧
        ∀ i, tyWidth ty * i < 512 →
          x.extractLsb' (tyWidth ty * i) (tyWidth ty) = ((s.core sl.core).rg a).val.extractLsb' 0 (tyWidth ty)) ∧
    (∀ (d a l : RegNo) (ty : FTy), a.toNat < 32 → tyWidth ty * l.toNat < 512 →
      ∃ t, exec (.vmovg sl d a l ty) s = .next t ∧
        s.RanG t sl.core d ⟨(((s.core sl.core).vr a).val.extractLsb' (tyWidth ty * l.toNat) (tyWidth ty)).setWidth 64,
          ((s.core sl.core).vr a).poison.getLsbD (tyWidth ty * l.toNat / 64)⟩) ∧
    (∀ d a : RegNo, d.toNat < 32 → a.toNat < 32 →
      ∃ t, exec (.vmovv sl d a) s = .next t ∧ s.RanV t sl.core d ((s.core sl.core).vr a) 0)

/-- O11. R122 to R126 over the lanes of R120, with the poison and flags of R117 and R121; the exact values and the one rounding
are the format's own operations. -/
def Obligations.VectorFloatArithmetic : Prop :=
  ∀ (s : State) (sl : Slot) (d a b : RegNo) (ty : FTy), s.Ready sl.core → sl.stop = true →
    d.toNat < 32 → a.toNat < 32 → b.toNat < 32 →
    FloatRow s sl d ty (.vfadd sl d a b ty) (((s.core sl.core).vr a).poison ||| ((s.core sl.core).vr b).poison) (fun i =>
      IsArith (fmtOf ty) (s.core sl.core) [((s.core sl.core).vr a).laneAt ty i, ((s.core sl.core).vr b).laneAt ty i]
        (((fmtOf ty).val (((s.core sl.core).vr a).laneAt ty i)).add ((s.core sl.core).sf 0x030 ⟨2, 0⟩)
          ((fmtOf ty).val (((s.core sl.core).vr b).laneAt ty i)))) ∧
    FloatRow s sl d ty (.vfsub sl d a b ty) (((s.core sl.core).vr a).poison ||| ((s.core sl.core).vr b).poison) (fun i =>
      IsArith (fmtOf ty) (s.core sl.core) [((s.core sl.core).vr a).laneAt ty i, ((s.core sl.core).vr b).laneAt ty i]
        (((fmtOf ty).val (((s.core sl.core).vr a).laneAt ty i)).add ((s.core sl.core).sf 0x030 ⟨2, 0⟩)
          (((fmtOf ty).val (((s.core sl.core).vr b).laneAt ty i)).flip true))) ∧
    FloatRow s sl d ty (.vfmul sl d a b ty) (((s.core sl.core).vr a).poison ||| ((s.core sl.core).vr b).poison) (fun i =>
      IsArith (fmtOf ty) (s.core sl.core) [((s.core sl.core).vr a).laneAt ty i, ((s.core sl.core).vr b).laneAt ty i]
        (((fmtOf ty).val (((s.core sl.core).vr a).laneAt ty i)).mul ((fmtOf ty).val (((s.core sl.core).vr b).laneAt ty i)))) ∧
    (∀ na np : Bool, FloatRow s sl d ty (.vfma sl d a b na np ty)
        (((s.core sl.core).vr a).poison ||| ((s.core sl.core).vr b).poison ||| ((s.core sl.core).vr d).poison) (fun i =>
      IsFused (fmtOf ty) (s.core sl.core) (((s.core sl.core).vr a).laneAt ty i) (((s.core sl.core).vr b).laneAt ty i)
        (((s.core sl.core).vr d).laneAt ty i) na np)) ∧
    FloatRow s sl d ty (.vfmin sl d a b ty) (((s.core sl.core).vr a).poison ||| ((s.core sl.core).vr b).poison) (fun i =>
      IsMinMax (fmtOf ty) (s.core sl.core) false (((s.core sl.core).vr a).laneAt ty i) (((s.core sl.core).vr b).laneAt ty i)) ∧
    FloatRow s sl d ty (.vfmax sl d a b ty) (((s.core sl.core).vr a).poison ||| ((s.core sl.core).vr b).poison) (fun i =>
      IsMinMax (fmtOf ty) (s.core sl.core) true (((s.core sl.core).vr a).laneAt ty i) (((s.core sl.core).vr b).laneAt ty i)) ∧
    (∀ p : BitVec 2, FloatRow s sl d ty (.vcmp sl d a b p ty) (((s.core sl.core).vr a).poison ||| ((s.core sl.core).vr b).poison)
      (fun i => IsCompare (fmtOf ty) p (((s.core sl.core).vr a).laneAt ty i) (((s.core sl.core).vr b).laneAt ty i)))

/-- O12. R127 to R130; B names the source format and F the destination: 0 to 3 a floating-point type, 4 and 5 a 64-bit and 6
and 7 a 32-bit integer source, F[3:2] = 1 or 2 a signed or unsigned integer destination of 64 or 32 bits. -/
def Obligations.Conversions : Prop :=
  ∀ (s : State) (sl : Slot) (d a : RegNo), s.Ready sl.core → sl.stop = true → d.toNat < 32 → a.toNat < 32 →
    (∀ m n, m < 4 → n < 4 → ConvRow s sl d a (.vcvt sl d a (BitVec.ofNat 6 m) (BitVec.ofNat 4 n))
      (tyWidth (tyOf m)) (tyWidth (tyOf n)) (IsConvFloat (fmtOf (tyOf m)) (fmtOf (tyOf n)) (s.core sl.core))) ∧
    (∀ m, m < 4 → ∀ (unsigned narrow : Bool),
      ConvRow s sl d a (.vcvt sl d a (BitVec.ofNat 6 m) (BitVec.ofNat 4 (4 + 4 * b2n unsigned + b2n narrow)))
        (tyWidth (tyOf m)) (if narrow then 32 else 64)
        (IsConvInt (fmtOf (tyOf m)) (if narrow then 32 else 64) (!unsigned) (s.core sl.core))) ∧
    (∀ n, n < 4 → ∀ (unsigned narrow : Bool),
      ConvRow s sl d a (.vcvt sl d a (BitVec.ofNat 6 (4 + 2 * b2n narrow + b2n unsigned)) (BitVec.ofNat 4 n))
        (if narrow then 32 else 64) (tyWidth (tyOf n))
        (IsConvFromInt (if narrow then 32 else 64) (!unsigned) (fmtOf (tyOf n)) (s.core sl.core)))

/-- O13. R124's directions, on the magnitudes that the formats round, and their exactness on representable values. -/
def Obligations.RoundingDirections : Prop :=
  (∀ (rm : Nat) (neg : Bool) (m k : Nat) (q : Int), rm < 5 →
    let r := roundUnits rm neg m q (q + k)
    (r.1 * 2 ^ k < m + 2 ^ k ∧ m < r.1 * 2 ^ k + 2 ^ k) ∧
    (r.2 = false ↔ r.1 * 2 ^ k = m) ∧
    (rm = 1 ∨ (rm = 2 ∧ neg = true) ∨ (rm = 3 ∧ neg = false) → r.1 * 2 ^ k ≤ m) ∧
    ((rm = 2 ∧ neg = false) ∨ (rm = 3 ∧ neg = true) → m ≤ r.1 * 2 ^ k) ∧
    (rm = 0 ∨ rm = 4 → 2 * m ≤ 2 * (r.1 * 2 ^ k) + 2 ^ k ∧ 2 * (r.1 * 2 ^ k) ≤ 2 * m + 2 ^ k) ∧
    (rm = 0 → 2 * m = 2 * (r.1 * 2 ^ k) + 2 ^ k ∨ 2 * (r.1 * 2 ^ k) = 2 * m + 2 ^ k → r.1 % 2 = 0) ∧
    (rm = 4 → 2 * m ≠ 2 * (r.1 * 2 ^ k) + 2 ^ k)) ∧
  (∀ (ty : FTy) (rm b : Nat), b < 2 ^ tyWidth ty → (fmtOf ty).mag b < (fmtOf ty).inf →
    ∃ neg m q, (fmtOf ty).val b = .fin neg m q ∧ (fmtOf ty).round rm neg m q = (b, 0))

/-- O14. R143 to R148, each addition one addition of its exact sum in units of 2^-2176. -/
def Obligations.ReamAccumulation : Prop :=
  ∀ (s : State) (sl : Slot) (d a b : RegNo), s.Ready sl.core → sl.stop = true → d.toNat < 4 →
    (∃ t, exec (.rmClr sl d) s = .next t ∧ s.RanA t sl.core d ⟨0, false, false, false, false, false, false, false⟩) ∧
    (∃ t, exec (.rmNeg sl d) s = .next t ∧ s.RanA t sl.core d ((s.core sl.core).ac d).minus) ∧
    (a.toNat < 32 → ∃ t x, exec (.rmAddv sl d a) s = .next t ∧ s.RanA t sl.core d x ∧
      Ream.Added ((s.core sl.core).ac d) x (((List.range 8).map fun i => fp64Units (((s.core sl.core).vr a).laneAt .fp64 i)).sum)
        ((List.range 8).any fun i => fp64Nan (((s.core sl.core).vr a).laneAt .fp64 i))
        ((List.range 8).any fun i => fp64Sig (((s.core sl.core).vr a).laneAt .fp64 i))
        ((List.range 8).any fun i => fp64Inf (((s.core sl.core).vr a).laneAt .fp64 i) && !fp64Neg (((s.core sl.core).vr a).laneAt .fp64 i))
        ((List.range 8).any fun i => fp64Inf (((s.core sl.core).vr a).laneAt .fp64 i) && fp64Neg (((s.core sl.core).vr a).laneAt .fp64 i))
        (((s.core sl.core).vr a).poison != 0)) ∧
    (a.toNat < 32 → b.toNat < 32 → ∀ hi : Bool, ∃ t x, exec (.rmFma4 sl d a b hi) s = .next t ∧ s.RanA t sl.core d x ∧
      let u (i : Nat) := ((s.core sl.core).vr a).laneAt .fp64 i
      let v (i : Nat) := ((s.core sl.core).vr b).laneAt .fp64 i
      let is := if hi = true then [4, 5, 6, 7] else [0, 1, 2, 3]
      let bad (i : Nat) := (fp64Inf (u i) && fp64Zero (v i)) || (fp64Zero (u i) && fp64Inf (v i))
      let inf (i : Nat) := (fp64Inf (u i) || fp64Inf (v i)) && !fp64Nan (u i) && !fp64Nan (v i) && !bad i
      Ream.Added ((s.core sl.core).ac d) x ((is.map fun i => fp64ProductUnits (u i) (v i)).sum)
        (is.any fun i => fp64Nan (u i) || fp64Nan (v i) || bad i)
        (is.any fun i => fp64Sig (u i) || fp64Sig (v i) || bad i)
        (is.any fun i => inf i && (fp64Neg (u i) == fp64Neg (v i)))
        (is.any fun i => inf i && (fp64Neg (u i) != fp64Neg (v i)))
        (is.any fun i => ((s.core sl.core).vr a).poison.getLsbD i || ((s.core sl.core).vr b).poison.getLsbD i)) ∧
    (a.toNat < 4 → ∃ t, exec (.rmMerge sl d a) s = .next t ∧
      s.RanA t sl.core d (((s.core sl.core).ac d).plus ((s.core sl.core).ac a)))

/-- O15. R149 (row 8 by the one rounding of R150 and R124) and R152. -/
def Obligations.ReamRoundingAndStatus : Prop :=
  ∀ (s : State) (sl : Slot) (d a : RegNo), s.Ready sl.core → sl.stop = true → a.toNat < 4 →
    (∀ (narrow : Bool) (dir : Nat), dir < 6 →
      ∃ t x f, exec (.rmRnd sl d a (BitVec.ofNat 4 (8 * b2n narrow + dir))) s = .next t ∧
        s.OnlyCore t sl.core ∧
        t.core sl.core = { s.core sl.core with g := (t.core sl.core).g, sys := (t.core sl.core).sys, pc := (s.core sl.core).pc + 4 } ∧
        (∀ r, (t.core sl.core).rg r = if r = d then (if d = 0 then ⟨0, false⟩ else ⟨BitVec.ofNat 64 x, ((s.core sl.core).ac a).poison⟩)
          else (s.core sl.core).rg r) ∧
        (t.core sl.core).sysRd 0x031 = (s.core sl.core).sysRd 0x031 ||| (if ((s.core sl.core).ac a).poison then 0 else f.setWidth 64) ∧
        (s.core sl.core).SysKept (t.core sl.core) [0x031] ∧
        let fmt := if narrow = true then fmtOf .fp32 else fmtOf .fp64
        let rm := if dir = 5 then (s.core sl.core).sf 0x030 ⟨2, 0⟩ else dir
        let r := (s.core sl.core).ac a
        (x, f) =
          if r.nan then (fmt.nan, if r.inv then 16#5 else 0)
          else if r.pinf && r.ninf then (fmt.nan, 16#5)
          else if r.pinf then (fmt.inf, 0)
          else if r.ninf then (fmt.sign + fmt.inf, 0)
          else if r.ovp && r.ovn then (fmt.nan, 16#5)
          else if r.ovp then (if rm = 0 ∨ rm = 4 ∨ rm = 2 then fmt.inf else fmt.inf - 1, 5#5)
          else if r.ovn then (fmt.sign + (if rm = 0 ∨ rm = 4 ∨ rm = 3 then fmt.inf else fmt.inf - 1), 5#5)
          else if r.value = 0 then (if rm = 3 then fmt.sign else 0, 0)
          else fmt.round rm (decide (r.value.toInt < 0)) r.value.toInt.natAbs (-2176)) ∧
    (∃ t x, exec (.rmStat sl d a) s = .next t ∧ s.RanG t sl.core d ⟨x, false⟩ ∧
      let r := (s.core sl.core).ac a
      let differs (k : Nat) := r.value.extractLsb' (64 * k) 64 != (if r.value.msb then BitVec.allOnes 64 else 0)
      (x.extractLsb' 24 8).toNat = (List.range 67).countP differs ∧
      (∀ k, k < 67 → ((x.extractLsb' 16 8).toNat = k ↔ differs k = true ∧ ∀ j, k < j → j < 67 → differs j = false)) ∧
      ((x.extractLsb' 16 8).toNat = 255 ↔ ∀ k, k < 67 → differs k = false) ∧
      x.getLsbD 9 = r.poison ∧ x.getLsbD 8 = r.value.msb ∧ x.getLsbD 7 = decide (r.value = 0) ∧ x.getLsbD 6 = r.inv ∧
      x.getLsbD 5 = r.nan ∧ x.getLsbD 4 = r.ninf ∧ x.getLsbD 3 = r.pinf ∧ x.getLsbD 2 = r.ovn ∧ x.getLsbD 1 = r.ovp ∧
      x.getLsbD 0 = (r.ovp || r.ovn) ∧ x.extractLsb' 10 6 = 0 ∧ x.extractLsb' 32 32 = 0)

/-- O16. R134 for reads, with R92's access columns and the constant words of R93. -/
def Obligations.SystemRegisterReads : Prop :=
  ∀ (s : State) (sl : Slot), s.Ready sl.core → sl.stop = true →
    (∃ t, exec (.nop sl) s = .next t ∧ s.RanN t sl.core) ∧
    (∃ t, exec (.specbar sl) s = .next t ∧ s.RanN t sl.core) ∧
    ∀ (d : RegNo) (n : BitVec 12), ∃ t, exec (.sysMf sl d n) s = .next t ∧
      match sysLevel (s.core sl.core).pl n.toNat with
      | none => s.Trapped t sl 7 (.mf d n) 1 0 []
      | some 0 => s.Trapped t sl 7 (.mf d n) 3 0 []
      | some _ => ∃ v, s.RanG t sl.core d ⟨v, false⟩ ∧
          (0x010 ≤ n.toNat → n.toNat ≠ 0x060 → v = (s.core sl.core).sysRd n.toNat) ∧
          (n.toNat = 0x060 → v = s.clock.gt) ∧
          (n.toNat = 0x000 → sl.core < 2048 → (v.extractLsb' 0 11).toNat = sl.core) ∧
          (n.toNat = 0x001 → v = 0x02000000FF0840E0#64) ∧
          (n.toNat = 0x002 → v = 0x4046404210204000#64) ∧
          (n.toNat = 0x003 → v = 0x3838280000001FFF#64) ∧
          (n.toNat = 0x004 → v.extractLsb' 24 40 = 0x2048B00088#40 ∧ v.extractLsb' 0 16 = 0x1008#16)

/-- O17. R134 for writes, with the layouts of R93 and R190 to R192; the ETLB commands and PRED_FLUSH have rows of their own. -/
def Obligations.SystemRegisterWrites : Prop :=
  ∀ (s : State) (sl : Slot) (d : RegNo) (n : BitVec 12), s.Ready sl.core → sl.stop = true →
    ∃ t, exec (.sysMt sl d n) s = .next t ∧
      let k := s.core sl.core
      let v := (k.rg d).val
      if sysLevel 2 n.toNat ≠ some 2 then s.Trapped t sl 7 (.mt d n) 1 0 []
      else if sysLevel k.pl n.toNat ≠ some 2 then s.Trapped t sl 7 (.mt d n) 3 0 []
      else if (k.rg d).poison = true then s.Trapped t sl 7 (.mt d n) 9 0 []
      else
        (∀ m, (n.toNat, m) ∈ sysPlain → s.RanS t sl.core n.toNat (v &&& m)) ∧
        (n.toNat = 0x010 → ∃ x, s.RanS t sl.core 0x010 x ∧
          ∀ i, i < 64 → x.getLsbD i =
            if i ∈ [2, 4, 5, 11, 14, 15] ∨ (k.pl = 2 ∧ i = 8) then v.getLsbD i
            else if k.pl = 2 ∧ i = 10 then v.getLsbD 10
            else if k.pl = 2 ∧ i = 9 then v.getLsbD 9 && !v.getLsbD 10
            else (k.sysRd 0x010).getLsbD i) ∧
        (n.toNat = 0x030 → ∃ x, s.RanS t sl.core 0x030 x ∧
          bitsFrom v (k.sysRd 0x030) (if (v.extractLsb' 0 3).toNat ≤ 4 then [0, 1, 2, 4, 5] else [4, 5]) x) ∧
        (n.toNat = 0x040 → v.getLsbD 4 = false → s.RanS t sl.core 0x040 (v &&& 5)) ∧
        (0x078 ≤ n.toNat → n.toNat ≤ 0x07F → s.RanS t sl.core n.toNat v) ∧
        (0x070 ≤ n.toNat → n.toNat ≤ 0x077 → ∃ x, s.RanS t sl.core n.toNat x ∧
          ∀ i, i < 31 → x.getLsbD i =
            if i ∈ [0, 1, 2, 3, 4, 5, 6, 7, 21, 22, 23, 24, 30] ∨ (i ∈ [26, 27] ∧ v.extractLsb' 26 2 ≠ 3) then v.getLsbD i
            else (k.sysRd n.toNat).getLsbD i)

/-- O18. R88, R89 and R135 for the trap instructions, and R72 through the words of a bundle. -/
def Obligations.TrapInstructionsAndIllegalBundles : Prop :=
  (∀ (s : State) (sl : Slot) (code : BitVec 12), s.Ready sl.core → sl.stop = true →
    ∃ t u v, exec (.syscall sl code) s = .next t ∧ exec (.breakpoint sl code) s = .next u ∧ exec (.mtrap sl code) s = .next v ∧
      s.Trapped t sl 7 (.trap false code) 0x0E 0 [] ∧ s.Trapped u sl 7 (.trap true code) 0x0D 0 [] ∧
      if (s.core sl.core).pl = 0 then s.Trapped v sl 7 (.mtrap code) 3 0 []
      else s.Entered v sl.core 2 false (s.core sl.core).pc 0x0E 1 0 0 (BitVec.setWidth 64 (Syl.word ⟨7, true, .mtrap code⟩)) []) ∧
  (∀ (s : State) (sl : Slot) (k : BitVec 3) (rest : BitVec 22), s.Ready sl.core → sl.stop = true →
    ∃ t, exec (.copAbsent sl k rest) s = .next t ∧ s.Trapped t sl 7 (.cop k rest) 2 0 []) ∧
  (∀ (s : State) (c : Nat) (ws : List (BitVec 32)) (last : BitVec 32) (i : Nat) (w : BitVec 32), s.Ready c →
    ws.length ≤ 7 → (∀ x ∈ ws, x.getLsbD 31 = false) → (ws.length = 7 ∨ last.getLsbD 31 = true) →
    (ws ++ [last])[i]? = some w → firstIllegal ((ws ++ [last]).map decodeSyl) = some i →
    s.fetchFault c (s.core c) (s.core c).pc (ws.length + 1) = none →
    (s.core c).watchFetch (s.core c).pc (ws.length + 1) = false →
    ∃ t, exec (.illegalBundle c (ws ++ [last])) s = .next t ∧
      s.Entered t c ((s.core c).routed 1) false (s.core c).pc 1 (ws.length + 1) i 0 (BitVec.setWidth 64 w) [])

/-- O19. R90; the target is fetched under the restored level by the next bundle. -/
def Obligations.ExceptionReturn : Prop :=
  ∀ (s : State) (sl : Slot), s.Ready sl.core → sl.stop = true → (s.core sl.core).pl < 3 →
    ∃ t, exec (.eret sl) s = .next t ∧
      let k := s.core sl.core
      let l := t.core sl.core
      if k.pl = 0 then s.Trapped t sl 7 .eret 3 0 []
      else
        s.OnlyCore t sl.core ∧ l = { k with sys := l.sys, pc := k.sysRd (if k.pl = 2 then 0x020 else 0x011), lineBuf := [],
                                            ask := none } ∧
        k.SysKept l [0x010] ∧
        l.sf 0x010 fPL = k.sf 0x010 (if k.pl = 2 then fMPPL else fSPPL) ∧
        l.sf 0x010 fIE = k.sf 0x010 (if k.pl = 2 then fMPIE else fSPIE) ∧
        l.sf 0x010 (if k.pl = 2 then fMPIE else fSPIE) = 1 ∧ l.sf 0x010 (if k.pl = 2 then fMPPL else fSPPL) = 0 ∧
        ∀ i, i ∉ (if k.pl = 2 then [0, 1, 2, 8, 9, 10] else [0, 1, 2, 4, 5]) →
          (l.sysRd 0x010).getLsbD i = (k.sysRd 0x010).getLsbD i

/-- O20. R88's interrupt rules and the entry of R89; bundles that had issued ahead are discarded, which may use free values
(assumption log entry 3). -/
def Obligations.InterruptTaken : Prop :=
  ∀ (s : State) (c : Nat), (s.core c).running = true → s.coreOn c = true →
    (s.core c).waiting = false → (s.core c).sleeping = false → (s.core c).pl < 3 →
    ∃ t n, exec (.interruptEntry c) s = .next t ∧
      let u : State := { s with freeTick := n }
      let free := ∀ cu, (s.core c).cur = some cu → cu.fixed = false
      let k := s.core c
      let ie := k.sf 0x010 fIE = 1
      let can (route : Nat) : Prop :=
        if (k.sysRd 0x026).getLsbD route = true then k.pl ≠ 2 ∨ ie else k.pl = 0 ∨ (k.pl = 1 ∧ ie)
      let ovf := ∃ i, i < 8 ∧ (k.sysRd (0x070 + i)).getLsbD 31 = true ∧ (k.sysRd (0x070 + i)).getLsbD 30 = true
      (free → s.eventPending c = true → can 16 → u.Entered t c (k.routed 16) true k.pc 1 0 0 0 0 []) ∧
      (free → ¬ (s.eventPending c = true ∧ can 16) → ovf → can 17 → u.Entered t c (k.routed 17) true k.pc 2 0 0 0 0 []) ∧
      (¬ free ∨ (¬ (s.eventPending c = true ∧ can 16) ∧ ¬ (ovf ∧ can 17)) → t = s)

/-- O21. R108 and R109 for loads that hit in L1D. -/
def Obligations.LoadsFromHeldLines : Prop :=
  LoadRow .ld8 1 (fun n => (BitVec.ofNat 8 n).signExtend 64) ∧ LoadRow .ld8u 1 (BitVec.ofNat 64) ∧
  LoadRow .ld16 2 (fun n => (BitVec.ofNat 16 n).signExtend 64) ∧ LoadRow .ld16u 2 (BitVec.ofNat 64) ∧
  LoadRow .ld32 4 (fun n => (BitVec.ofNat 32 n).signExtend 64) ∧ LoadRow .ld32u 4 (BitVec.ofNat 64) ∧
  LoadRow .ld64 8 (BitVec.ofNat 64) ∧
  ∀ (s : State) (sl : Slot) (d a : RegNo) (b : Src) (ga : Nat → Nat) (x : Nat → CLine) (va : Word),
    s.Ready sl.core → sl.stop = true → d.toNat < 32 → ((s.core sl.core).rg a).poison = false →
    ((s.core sl.core).sv b).poison = false →
    va = ((s.core sl.core).rg a).val + ((s.core sl.core).sv b).val → s.Hits sl.core va 64 ga x →
    ∃ t, exec (.vld sl d a b) s = .next t ∧ s.Loaded t sl.core ∧ (t.core sl.core).g = (s.core sl.core).g ∧
      (∀ e, e < 8 → (((t.core sl.core).vr d).val.extractLsb' (64 * e) 64).toNat = leWord (lineByte va x) (8 * e) 8 ∧
        ((t.core sl.core).vr d).poison.getLsbD e = (List.range 8).any fun j => linePoison va x (8 * e + j)) ∧
      (∀ r, r.toNat % 32 ≠ d.toNat % 32 → (t.core sl.core).vr r = (s.core sl.core).vr r) ∧
      (t.core sl.core).acc = (s.core sl.core).acc ∧
      (t.core sl.core).sysRd 0x010 = (s.core sl.core).sysRd 0x010 ||| 0x4000#64

/-- O22. R187 and R205 for LD64. -/
def Obligations.LoadMissBringsLine : Prop :=
  ∀ (s : State) (sl : Slot) (d a : RegNo) (b : Src) (ga : Nat) (va : Word),
    s.Ready sl.core → sl.stop = true → ((s.core sl.core).rg a).poison = false → ((s.core sl.core).sv b).poison = false →
    va = ((s.core sl.core).rg a).val + ((s.core sl.core).sv b).val → va.toNat % 64 + 8 ≤ 64 →
    s.Open sl.core .load va ga .dram →
    ∃ t, exec (.ld64 sl d a b) s = .next t ∧
      (∀ (u : State) (bs : List Byte) (pz : List Bool), s.NotStored sl.core ga 8 →
        (∀ x ∈ (s.core sl.core).l1d, x.line ≠ ga % 2 ^ 40 / 64) →
        s.memRead (coreWho sl.core) true (ga % 2 ^ 40 / 64 * 64) 64 = ⟨u, .ok, bs, pz⟩ → bs.length = 64 →
        u.core sl.core = s.core sl.core →
        u.OnlyCore t sl.core ∧
        (∃ x ∈ (t.core sl.core).l1d, x.line = ga % 2 ^ 40 / 64 ∧ x.data = bs ∧ x.poison = pz ∧
          (x.priv = true ↔ ∃ e, (s.core sl.core).walk va = some (ga, e) ∧ attrOf e = 2)) ∧
        (t.core sl.core).rg d = (if d = 0 then ⟨0, false⟩ else
          ⟨BitVec.ofNat 64 (leWord (fun j => bs.getD (va.toNat % 64 + j) 0) 0 8),
           (List.range 8).any fun j => pz.getD ((va.toNat % 64 + j) / 4) false⟩) ∧
        ∀ r, r ≠ d → (t.core sl.core).rg r = (s.core sl.core).rg r) ∧
      (∀ e : SbEntry, (s.core sl.core).sb.filter (fun e => overlaps ga 8 e.addr e.bytes.length) = [e] → e.flips = [] →
        e.addr ≤ ga → ga + 8 ≤ e.addr + e.bytes.length →
        s.RanG t sl.core d ⟨BitVec.ofNat 64 (leWord (fun j => e.bytes.getD (ga - e.addr + j) 0) 0 8),
          (List.range 8).any fun j => e.poison.getD ((ga + j) / 4 - e.addr / 4) false⟩)

/-- O23. R108, R109 and R185 for posted stores. -/
def Obligations.StoresWaitInStoreBuffer : Prop :=
  StoreRow .st8 1 (fun k d j => (k.rg d).val.extractLsb' (8 * j) 8) (fun k d _ => (k.rg d).poison) ∧
  StoreRow .st16 2 (fun k d j => (k.rg d).val.extractLsb' (8 * j) 8) (fun k d _ => (k.rg d).poison) ∧
  StoreRow .st32 4 (fun k d j => (k.rg d).val.extractLsb' (8 * j) 8) (fun k d _ => (k.rg d).poison) ∧
  StoreRow .st64 8 (fun k d j => (k.rg d).val.extractLsb' (8 * j) 8) (fun k d _ => (k.rg d).poison) ∧
  StoreRow (fun sl d a b => .vst sl (d &&& 31) a b) 64 (fun k d j => (k.vr (d &&& 31)).val.extractLsb' (8 * j) 8)
    (fun k d j => (k.vr (d &&& 31)).poison.getLsbD (j / 8))

/-- O24. R186, and R227 for a store that fails. -/
def Obligations.StoreDrainPerformsEntry : Prop :=
  ∀ (s : State) (c k : Nat), (s.core c).running = true → (s.core c).cur = none → (s.core c).late = [] →
    (s.core c).bundles = [] →
    ∃ t, exec (.storeDrain c k) s = .next t ∧
      ((s.core c).sb.length ≤ k → t = s) ∧
      ∀ e, (s.core c).sb[k]? = some e →
        ((∃ o ∈ (s.core c).sb.take k, o.addr < e.addr + e.bytes.length ∧ e.addr < o.addr + o.bytes.length) →
          t = s) ∧
        ((∀ o ∈ (s.core c).sb.take k, e.addr + e.bytes.length ≤ o.addr ∨ o.addr + o.bytes.length ≤ e.addr) → e.flips = [] →
          (e.kind = .remote → s.outstFull c = true → t = s) ∧
          ∀ u ans bs pz, e.kind ≠ .remote →
          s.memWrite (coreWho c) true (e.addr % 2 ^ 40) e.bytes e.poison = ⟨u, ans, bs, pz⟩ → u.core c = s.core c →
          (ans = .held → t = u) ∧
          (ans ≠ .held → ans ≠ .ok → (u.pstoreFail c e.addr ans.code).OnlyCore t c ∧
            t.core c = { (u.pstoreFail c e.addr ans.code).core c with sb := (s.core c).sb.eraseIdx k }) ∧
          (ans = .ok →
            u.OnlyCore t c ∧ (t.core c).sb = (s.core c).sb.eraseIdx k ∧
            t.core c = { s.core c with sb := (t.core c).sb, l1d := (t.core c).l1d, fills := (t.core c).fills } ∧
            (t.core c).l1d.length = (s.core c).l1d.length ∧
            ∀ (i : Nat) (x y : CLine), (s.core c).l1d[i]? = some x → (t.core c).l1d[i]? = some y → x.data.length = 64 →
              e.addr % 2 ^ 40 % 64 + e.bytes.length ≤ 64 →
              y.line = x.line ∧ y.priv = x.priv ∧
              ∀ j, j < 64 → y.data.getD j 0 =
                if x.line = e.addr % 2 ^ 40 / 64 ∧ e.addr % 2 ^ 40 % 64 ≤ j ∧ j < e.addr % 2 ^ 40 % 64 + e.bytes.length
                then e.bytes.getD (j - e.addr % 2 ^ 40 % 64) 0 else x.data.getD j 0))

/-- O25. R110 to R113. -/
def Obligations.AtomicsAndPrefetch : Prop :=
  AtomicRow .amoadd .add (fun old b _ => some ⟨old.val + b.val, old.poison || b.poison⟩) ∧
  AtomicRow .amoswap .swap (fun _ b _ => some b) ∧
  AtomicRow .amocas .cas (fun old b d =>
    if old.poison = false ∧ d.poison = false ∧ old.val = d.val then some b else none) ∧
  AtomicTraps .amoadd .add ∧ AtomicTraps .amoswap .swap ∧ AtomicTraps .amocas .cas ∧
  ∀ (s : State) (sl : Slot) (h a : RegNo) (b : Src), s.Ready sl.core → sl.stop = true →
    ∃ t, exec (.pref sl h a b) s = .next t ∧
      let k := s.core sl.core
      let va := (k.rg a).val + (k.sv b).val
      (2 ≤ h.toNat → s.Trapped t sl (sl.unit 2) (.pref h a b) 1 0 []) ∧
      (h.toNat < 2 → (k.rg a).poison = true ∨ (k.sv b).poison = true ∨ (∀ ga, ¬ s.Open sl.core .load va ga .dram) →
        s.RanN t sl.core) ∧
      (h.toNat < 2 → (k.rg a).poison = false → (k.sv b).poison = false → ∀ ga, s.Open sl.core .load va ga .dram →
        (h = 0 → ∀ x, k.l1d.find? (fun y => y.line == ga % 2 ^ 40 / 64) = some x → x.flips = [] →
          s.Loaded t sl.core ∧ (t.core sl.core).g = k.g ∧ (t.core sl.core).v = k.v ∧ (t.core sl.core).acc = k.acc) ∧
        (h = 1 ∨ (∀ x ∈ k.l1d, x.line ≠ ga % 2 ^ 40 / 64) → ∀ u ans bs pz,
          s.memRead (coreWho sl.core) true (ga % 2 ^ 40 / 64 * 64) 64 = ⟨u, ans, bs, pz⟩ → u.core sl.core = k →
          (ans = .held → s.RanN t sl.core) ∧
          (ans ≠ .held → h = 1 ∨ ans ≠ .ok → u.RanN t sl.core) ∧
          (ans = .ok → h = 0 → u.OnlyCore t sl.core ∧ k.SysKept (t.core sl.core) [] ∧
            t.core sl.core = { k with sys := (t.core sl.core).sys, l1d := (t.core sl.core).l1d, pc := k.pc + 4 } ∧
            ∃ x ∈ (t.core sl.core).l1d, x.line = ga % 2 ^ 40 / 64 ∧ x.data = bs ∧ x.poison = pz)))

/-- O26. R85 row 8, with the registers that R200 writes. -/
def Obligations.AccessCauses : Prop :=
  AccessTraps .ld8 (.ld .ld8) 1 .load 6 ∧ AccessTraps .ld8u (.ld .ld8u) 1 .load 6 ∧
  AccessTraps .ld16 (.ld .ld16) 2 .load 6 ∧ AccessTraps .ld16u (.ld .ld16u) 2 .load 6 ∧
  AccessTraps .ld32 (.ld .ld32) 4 .load 6 ∧ AccessTraps .ld32u (.ld .ld32u) 4 .load 6 ∧
  AccessTraps .ld64 (.ld .ld64) 8 .load 6 ∧
  AccessTraps .st8 (.st .st8) 1 .store 7 ∧ AccessTraps .st16 (.st .st16) 2 .store 7 ∧
  AccessTraps .st32 (.st .st32) 4 .store 7 ∧ AccessTraps .st64 (.st .st64) 8 .store 7 ∧
  AccessTraps (fun sl d a b => .vld sl (d &&& 31) a b) (fun d a b => .vld (d &&& 31) a b) 64 .load 6 ∧
  AccessTraps (fun sl d a b => .vst sl (d &&& 31) a b) (fun d a b => .vst (d &&& 31) a b) 64 .store 7 ∧
  ∀ (s : State) (sl : Slot) (d a b : RegNo), s.Ready sl.core → sl.stop = true → sl.odd = false →
    ((s.core sl.core).rg a).poison = false → ((s.core sl.core).rg a).val.toNat % 8 ≠ 0 →
    ∃ t u v, exec (.amoadd sl d a b) s = .next t ∧ exec (.amoswap sl d a b) s = .next u ∧ exec (.amocas sl d a b) s = .next v ∧
      s.Trapped t sl 2 (.amo .add d a b) 4 ((s.core sl.core).rg a).val [] ∧
      s.Trapped u sl 2 (.amo .swap d a b) 4 ((s.core sl.core).rg a).val [] ∧
      s.Trapped v sl 2 (.amo .cas d a b) 4 ((s.core sl.core).rg a).val []

/-- O27. R115, R182 and R227. -/
def Obligations.FencesAndFlushes : Prop :=
  ∀ (s : State) (sl : Slot), s.Ready sl.core → sl.stop = true →
    (sl.odd = true → ∃ t u w, exec (.fenceAcq sl) s = .next t ∧ exec (.fenceRel sl) s = .next u ∧ exec (.fenceFull sl) s = .next w ∧
      s.Trapped t sl 3 (.fence .acq) 1 0 [] ∧ s.Trapped u sl 3 (.fence .rel) 1 0 [] ∧ s.Trapped w sl 3 (.fence .full) 1 0 []) ∧
    (sl.odd = false → ∃ t, exec (.fenceAcq sl) s = .next t ∧
      s.RanC t sl.core ((s.core sl.core).l1d.filter fun x => x.priv) (s.core sl.core).l1i) ∧
    (∀ a b, ((s.core sl.core).rg a).poison = true ∨ ((s.core sl.core).rg b).poison = true →
      ∃ t, exec (.iflushRange sl a b) s = .next t ∧ s.Trapped t sl 7 (.iflushRange a b) 9 0 []) ∧
    ∀ q : State, s.DrainedAll q sl.core →
      (sl.odd = false → ∃ t u, exec (.fenceRel sl) s = .next t ∧ exec (.fenceFull sl) s = .next u ∧
        (q.Settled sl.core → q.pstoreCode sl.core = 0 → q.RanN t sl.core ∧
          q.RanC u sl.core ((q.core sl.core).l1d.filter fun x => x.priv) (q.core sl.core).l1i) ∧
        (¬ q.Settled sl.core → q.HeldBundle t sl.core ∧ q.HeldBundle u sl.core) ∧
        (q.Settled sl.core → 0x0A ≤ q.pstoreCode sl.core → q.pstoreCode sl.core ≤ 0x0C →
          (q.pstoreClear sl.core).Trapped t sl 2 (.fence .rel) (q.pstoreCode sl.core) (q.core sl.core).pstoreAddr [] ∧
          (q.pstoreClear sl.core).Trapped u sl 2 (.fence .full) (q.pstoreCode sl.core) (q.core sl.core).pstoreAddr [])) ∧
      (∃ t, exec (.iflushAll sl) s = .next t ∧
        ((q.core sl.core).sb = [] → q.RanC t sl.core (q.core sl.core).l1d [] ∧ (t.core sl.core).lineBuf = []) ∧
        ((q.core sl.core).sb ≠ [] → q.HeldBundle t sl.core)) ∧
      ∀ a b, ((s.core sl.core).rg a).poison = false → ((s.core sl.core).rg b).poison = false →
        ∃ t l, exec (.iflushRange sl a b) s = .next t ∧
          ((q.core sl.core).sb ≠ [] → q.HeldBundle t sl.core) ∧
          ((q.core sl.core).sb = [] → q.RanC t sl.core (q.core sl.core).l1d l ∧ (t.core sl.core).lineBuf = [] ∧
            (2 ^ 20 < ((s.core sl.core).rg b).val.toNat → l = []) ∧
            (((s.core sl.core).rg b).val.toNat ≤ 2 ^ 20 → ∀ x, x ∈ l ↔ x ∈ (s.core sl.core).l1i ∧
              ∀ (v ga : Nat) (e : Option Word), ((s.core sl.core).rg a).val.toNat / 64 ≤ v →
                0 < ((s.core sl.core).rg b).val.toNat →
                v * 64 < min (((s.core sl.core).rg a).val.toNat + ((s.core sl.core).rg b).val.toNat) (2 ^ 64) →
                (s.core sl.core).walk (BitVec.ofNat 64 (v * 64)) = some (ga, e) → (s.core sl.core).grants .fetch e = true →
                q.fetchable sl.core ga = true → x.line ≠ ga % 2 ^ 40 / 64))

/-- O28. R136, R373 and R413. -/
def Obligations.WaitSleepEpoch : Prop :=
  ∀ (s : State) (sl : Slot), s.Ready sl.core → sl.stop = true → (s.core sl.core).sleepRes = none →
    (∃ t, exec (.wait sl) s = .next t ∧
      if (s.eventPending sl.core || (s.core sl.core).perfOvf) = true then s.RanN t sl.core
      else s.HeldBundle t sl.core ∧ (t.core sl.core).waiting = true) ∧
    ∀ (d a : RegNo) (v : Word), (s.core sl.core).rg a = ⟨v, false⟩ →
      ((s.core sl.core).pl = 0 →
        ∃ t u, (exec (.sleepQuery sl d a) s = .next t ∧ exec (.sleepNap sl d a) s = .next t ∧
          exec (.sleepReserved sl d a) s = .next t ∧ s.Trapped t sl 7 (.sleep d a) 3 0 []) ∧
          exec (.epochQuery sl d a) s = .next u ∧ exec (.epochMark sl d a) s = .next u ∧
          exec (.epochReserved sl d a) s = .next u ∧ s.Trapped u sl 7 (.epoch d a) 3 0 []) ∧
      ((s.core sl.core).pl ≠ 0 →
        (v.toNat % 16 = 0 → ∃ t, exec (.sleepQuery sl d a) s = .next t ∧ s.RanG t sl.core d ⟨0, false⟩) ∧
        (2 ≤ v.toNat % 16 → ∃ t, exec (.sleepReserved sl d a) s = .next t ∧ s.RanG t sl.core d ⟨4, false⟩) ∧
        (v.toNat % 16 = 1 → ∃ t, exec (.sleepNap sl d a) s = .next t ∧
          (if (∃ p, s.coreTile sl.core = some p ∧ s.has (DOM_CTL.adr p) DOM_CTL.NAP_EN = true) then
             if (s.eventPending sl.core || (s.core sl.core).perfOvf) = true then s.RanG t sl.core d ⟨1, false⟩
             else s.HeldBundle t sl.core ∧ (t.core sl.core).sleeping = true
           else s.RanG t sl.core d ⟨3, false⟩)) ∧
        (v.toNat % 16 = 0 → ∃ t, exec (.epochQuery sl d a) s = .next t ∧
          s.RanG t sl.core d ⟨BitVec.ofNat 64 (s.ceEpoch * 2 ^ 32 + s.ceState * 2 ^ 8), false⟩) ∧
        (2 ≤ v.toNat % 16 → ∃ t, exec (.epochReserved sl d a) s = .next t ∧
          s.RanG t sl.core d ⟨BitVec.ofNat 64 (s.ceEpoch * 2 ^ 32 + s.ceState * 2 ^ 8 + 4), false⟩) ∧
        (v.toNat % 16 = 1 → ∀ q, s.DrainedAll q sl.core → ∃ t, exec (.epochMark sl d a) s = .next t ∧
          (¬ q.Settled sl.core → q.HeldBundle t sl.core) ∧
          (q.Settled sl.core →
            if q.isOn 299 = false ∨ q.has CE_CTL.adr CE_CTL.ENABLE = false then
              q.RanG t sl.core d ⟨BitVec.ofNat 64 (q.ceEpoch * 2 ^ 32 + q.ceState * 2 ^ 8 + 2), false⟩
            else if q.has CE_STAT.adr CE_STAT.BUDDY_UP = false then
              q.RanG t sl.core d ⟨BitVec.ofNat 64 (q.ceEpoch * 2 ^ 32 + q.ceState * 2 ^ 8 + 3), false⟩
            else if q.ceState ≠ 1 then
              q.RanG t sl.core d ⟨BitVec.ofNat 64 (q.ceEpoch * 2 ^ 32 + q.ceState * 2 ^ 8 + 1), false⟩
            else q.mark.RanG t sl.core d ⟨BitVec.ofNat 64 (q.mark.ceEpoch * 2 ^ 32 + q.mark.ceState * 2 ^ 8), false⟩)))

/-- O29. R154 to R156. -/
def Obligations.ReamStoreAndLoad : Prop :=
  (∀ (s : State) (sl : Slot) (d a : RegNo) (ga : Nat → Nat) (r : Region), s.Ready sl.core → sl.stop = true → d.toNat < 4 →
    ((s.core sl.core).rg a).poison = false →
    s.Posts sl.core ((s.core sl.core).rg a).val ((s.core sl.core).ac d).bytes.length ga r →
    ∃ t, exec (.rmSt sl d a) s = .next t ∧
      s.StoredSb t sl.core ((lineCut ((s.core sl.core).rg a).val ((s.core sl.core).ac d).bytes.length).map fun p =>
        entryFor r (ga p.1) p.1 p.2 (fun j => ((s.core sl.core).ac d).bytes.getD j 0) fun _ => ((s.core sl.core).ac d).poison)) ∧
  ∀ (s : State) (sl : Slot) (d a : RegNo) (ga : Nat → Nat) (x : Nat → CLine) (va : Word) (n : Nat),
    s.Ready sl.core → sl.stop = true → d.toNat < 4 → (s.core sl.core).rg a = ⟨va, false⟩ →
    (∀ p ∈ lineCut va 552, s.Open sl.core .load (va + BitVec.ofNat 64 p.1) (ga p.1) .dram) →
    n = (if (List.range 16).any (fun j => linePoison va x j) = true then 16
         else 16 + 8 * ((List.range 67).filter fun k =>
           (leWord (lineByte va x) 0 8 + leWord (lineByte va x) 8 8 % 8 * 2 ^ 64) / 2 ^ k % 2 == 1).length) →
    s.Hits sl.core va n ga x → s.Hits sl.core va 16 ga x →
    ∃ t, exec (.rmLd sl d a) s = .next t ∧ s.Loaded t sl.core ∧
      (t.core sl.core).g = (s.core sl.core).g ∧ (t.core sl.core).v = (s.core sl.core).v ∧
      (t.core sl.core).ac d = (if (List.range 16).any (fun j => linePoison va x j) = true then { Ream.clear with poison := true }
        else Ream.ofBytes ((List.range n).map (lineByte va x)) ((List.range n).any fun j => linePoison va x j)) ∧
      (∀ r, r.toNat % 4 ≠ d.toNat % 4 → (t.core sl.core).ac r = (s.core sl.core).ac r) ∧
      (t.core sl.core).sysRd 0x010 = (s.core sl.core).sysRd 0x010 ||| 0x8000#64

/-- O30. R154 and R155: no limb and no flag is lost by compression. -/
def Obligations.ReamFormRoundTrip : Prop :=
  ∀ r : Ream, Ream.ofBytes r.bytes r.poison = r ∧ r.bytes.length % 8 = 0 ∧ 16 ≤ r.bytes.length ∧ r.bytes.length ≤ 552

/-- O31. R201 to R203 and R171. -/
def Obligations.EtlbCommands : Prop :=
  EtlbRow .etlbRead 1 (fun k v l =>
    l.etlb = k.etlb ∧ l.sysRd 0x051 = (k.tlb (etlbIndex v)).hi ∧ l.sysRd 0x052 = (k.tlb (etlbIndex v)).lo ∧
    l.sf 0x050 fINDEX = etlbIndex v ∧ l.sf 0x050 fNEXT = etlbNext k v ∧ l.l1d = k.l1d) ∧
  EtlbRow .etlbWrite 2 (fun k v l =>
    (l.tlb (etlbIndex v)).hi = k.sysRd 0x051 ∧
    (l.tlb (etlbIndex v)).lo = (if 13 ≤ ((k.sysRd 0x051).extractLsb' 12 4).toNat then k.sysRd 0x052 &&& ~~~ 0x100#64 else k.sysRd 0x052) ∧
    (∀ j, j < 64 → j ≠ etlbIndex v → (l.tlb j).hi = (k.tlb j).hi ∧
      (l.tlb j).lo = (if (l.tlb (etlbIndex v)).lo.getLsbD 8 = true ∧ (k.tlb j).lo.getLsbD 8 = true ∧ (l.tlb (etlbIndex v)).clash (k.tlb j) = true
        then (k.tlb j).lo &&& ~~~ 0x100#64 else (k.tlb j).lo)) ∧
    l.sysRd 0x051 = k.sysRd 0x051 ∧ l.sysRd 0x052 = k.sysRd 0x052 ∧ l.sf 0x050 fINDEX = etlbIndex v ∧
    l.sf 0x050 fNEXT = (if etlbNext k v = etlbIndex v then (if etlbIndex v = 63 then (v.extractLsb' 16 6).toNat else etlbIndex v + 1)
      else etlbNext k v) ∧ l.l1d = k.l1d) ∧
  EtlbRow .etlbProbe 3 (fun k v l =>
    l.etlb = k.etlb ∧ l.l1d = k.l1d ∧ l.sf 0x050 fNEXT = etlbNext k v ∧ l.sysRd 0x051 = k.sysRd 0x051 ∧ l.sysRd 0x052 = k.sysRd 0x052 ∧
    match k.tlbFind (((k.sysRd 0x051).extractLsb' 16 40).toNat * 2 ^ 16) with
    | some j => l.sf 0x050 fINDEX = j ∧ l.sf 0x050 fMISS = 0
    | none => l.sf 0x050 fINDEX = etlbIndex v ∧ l.sf 0x050 fMISS = 1) ∧
  EtlbRow .etlbInval 4 (fun k v l =>
    k.EtlbPlain v l ∧ ∀ j, j < 64 → l.tlb j = ⟨(k.tlb j).hi, if j = etlbIndex v then (k.tlb j).lo &&& ~~~ 0x100#64 else (k.tlb j).lo⟩) ∧
  EtlbRow .etlbInvalAll 5 (fun k v l =>
    k.EtlbPlain v l ∧ ∀ j, j < 64 → l.tlb j = ⟨(k.tlb j).hi, (k.tlb j).lo &&& ~~~ 0x100#64⟩) ∧
  EtlbRow .etlbInvalAsid 6 (fun k v l =>
    k.EtlbPlain v l ∧ ∀ j, j < 64 → l.tlb j = ⟨(k.tlb j).hi,
      if (k.tlb j).lo.getLsbD 9 = false ∧ (k.tlb j).hi.extractLsb' 0 8 = (k.sysRd 0x051).extractLsb' 0 8
      then (k.tlb j).lo &&& ~~~ 0x100#64 else (k.tlb j).lo⟩) ∧
  EtlbRow .dropPrivate 7 (fun k v l =>
    l.etlb = k.etlb ∧ l.l1d = k.l1d.filter (fun x => !x.priv) ∧ l.sf 0x050 fINDEX = etlbIndex v ∧ l.sf 0x050 fNEXT = etlbNext k v) ∧
  ∀ (s : State) (sl : Slot) (d : RegNo) (v : Word), s.Ready sl.core → sl.stop = true → sysLevel (s.core sl.core).pl 0x040 = some 2 →
    (s.core sl.core).rg d = ⟨v, false⟩ → v.getLsbD 4 = true →
    ∃ t, exec (.predFlush sl d) s = .next t ∧ s.OnlyCore t sl.core ∧ (t.core sl.core).pred = Pred.clear ∧
      t.core sl.core = { s.core sl.core with sys := (t.core sl.core).sys, pred := Pred.clear, pc := (s.core sl.core).pc + 4 } ∧
      (t.core sl.core).sysRd 0x040 = v &&& 5 ∧ (s.core sl.core).SysKept (t.core sl.core) [0x040]

/-- O32. R163 to R165, R173, R176, R177 and R179. -/
def Obligations.FrontEndEvents : Prop :=
  (∀ (s : State) (c a l : Nat), l = a / 64 * 64 % 2 ^ 40 / 64 → ∃ t, exec (.l1iFill c a) s = .next t ∧
    ((s.core c).running = false ∨ s.coreOn c = false ∨ s.fetchable c a = false ∨ (∃ x ∈ (s.core c).l1i, x.line = l) ∨
      (s.region c a = .flash ∧ s.flashFetch c (s.core c) a = false) → t = s) ∧
    ((s.core c).running = true → s.coreOn c = true → s.fetchable c a = true → (∀ x ∈ (s.core c).l1i, x.line ≠ l) →
      (s.region c a = .flash → s.flashFetch c (s.core c) a = true) → ∀ u ans bs pz,
      s.memRead (coreWho c) true (a / 64 * 64 % 2 ^ 40) 64 = ⟨u, ans, bs, pz⟩ → u.core c = s.core c →
      (ans = .held → t = u) ∧
      (ans ≠ .held → u.OnlyCore t c ∧
        t.core c = { s.core c with l1i := (t.core c).l1i, lineBuf := (t.core c).lineBuf, ask := (t.core c).ask,
                                   missed := (s.core c).missed + 1 } ∧
        ∃ x ∈ (t.core c).l1i, x.line = l ∧
          (ans = .ok → x.data = bs ∧ ∀ i, i < 16 → x.poison.getD i false = pz.getD i false) ∧
          (ans ≠ .ok → ∀ i, i < 16 → x.poison.getD i false = true) ∧
          (if (s.core c).ask = some l then (t.core c).ask = none ∧ (t.core c).lineBuf = ((s.core c).lineBuf ++ [x]).take 2
           else (t.core c).ask = (s.core c).ask ∧ (t.core c).lineBuf = (s.core c).lineBuf)))) ∧
  (∀ (s : State) (c b : Nat) (va : Word), (∃ ys ∈ (s.core c).olderThan b, ∃ y ∈ ys, y.op = .specbar) →
    exec (.l1dFill c b va) s = .next s) ∧
  (∀ (s : State) (c : Nat) (f : Fetched) (rest : List Fetched) (u : Nat) (o : LdK) (d a : RegNo) (b : Src) (va : Word) (ga l : Nat),
    (s.core c).running = true → s.coreOn c = true → (s.core c).cur = none → (s.core c).late = [] →
    (s.core c).bundles = f :: rest → f.fault = none → f.syls = [⟨u, true, .ld o d a b⟩] → firstIllegal f.syls = none →
    ((s.core c).rg a).poison = false → ((s.core c).sv b).poison = false → s.Open c .load va ga .dram → l = ga % 2 ^ 40 / 64 →
    (∀ x ∈ (s.core c).l1d ++ (s.core c).fills ++ f.fills, x.line ≠ l) → (s.core c).heldFills < 8 →
    ∃ t, exec (.l1dFill c 0 va) s = .next t ∧ ∀ v ans bs pz,
      s.memRead (coreWho c) (!((s.core c).sysRd 0x040).getLsbD 0) (l * 64) 64 = ⟨v, ans, bs, pz⟩ → v.core c = s.core c →
      (ans ≠ .ok → t = v) ∧
      (ans = .ok → v.OnlyCore t c ∧ ∃ (x : CLine) (f' : Fetched), x.line = l ∧ x.data = bs ∧ x.poison = pz ∧
        t.core c = { s.core c with bundles := f' :: rest, l1d := (t.core c).l1d } ∧
        f' = { f with issued := true, events := f'.events,
                      fills := if ((s.core c).sysRd 0x040).getLsbD 0 = true then f.fills ++ [x] else f.fills } ∧
        if ((s.core c).sysRd 0x040).getLsbD 0 = true then (t.core c).l1d = (s.core c).l1d else x ∈ (t.core c).l1d)) ∧
  (∀ (s : State) (c ga : Nat) (e : Option Word), s.Ready c → (s.core c).walk (s.core c).pc = some (ga, e) →
    (s.core c).lineBuf = [] → (s.core c).missed = 0 → (∀ y ∈ (s.core c).l1i, y.flips = []) →
    ∃ t, exec (.bundleAlign c) s = .next t ∧
      ((∀ y ∈ (s.core c).l1i, y.line ≠ ga % 2 ^ 40 / 64) → t = s) ∧
      ∀ (x : CLine) (w : BitVec 32), (s.core c).l1i.find? (fun y => y.line == ga % 2 ^ 40 / 64) = some x →
        BitVec.ofNat 32 (leWord (fun i => x.data.getD (ga % 2 ^ 40 % 64 + i) 0) 0 4) = w → ga % 2 ^ 40 % 64 + 4 ≤ x.data.length →
        ∃ v : State, s.OnlyCore v c ∧
          v.core c = { s.core c with l1i := (v.core c).l1i, lineBuf := (v.core c).lineBuf, ask := (v.core c).ask } ∧
          (x.poison.getD (ga % 2 ^ 40 % 64 / 4) false = true →
            v.Entered t c ((s.core c).routed 9) false (s.core c).pc 9 0 0 (s.core c).pc 0 []) ∧
          (x.poison.getD (ga % 2 ^ 40 % 64 / 4) false = false → w.getLsbD 31 = true →
            x ∈ (v.core c).lineBuf ∧ t = v.giveBundle c [decodeSyl w])) ∧
  ∀ (s : State) (c : Nat), ∃ t, exec (.branchMispredict c) s = .next t ∧ ((s.core c).misp = none → t = s) ∧
    ∀ h top, (s.core c).misp = some (h, top) →
      t = { s with cores := t.cores, freeTick := t.freeTick } ∧ (∀ c', c' ≠ c → t.core c' = s.core c') ∧
      (t.core c).pred.hist = h ∧ (t.core c).pred.top = top ∧ (s.core c).SysKept (t.core c) [] ∧
      t.core c = { s.core c with sys := (t.core c).sys, misp := none, pred := (t.core c).pred, bundles := [], lineBuf := [],
                                 ask := none }

/-- O33. R209, R210 and R246. -/
def Obligations.SegmentModesAndCodes : Prop :=
  ∀ (s : State) (p g : Nat), p < 136 → g < 16 → s.isOn p = true →
    (∀ m : BitVec 2, ∃ t, exec (.segModeWrite p g m) s = .next t ∧
      t = { s with ctrl := t.ctrl, segLines := t.segLines, tags := t.tags } ∧
      (∀ a, a ≠ SEG_CTL.adr p g → t.rd a = s.rd a) ∧
      (m.toNat = 3 ∨ m.toNat = s.segMode p g → t = s.setF (SEG_CTL.adr p g) SEG_CTL.REFUSED 0) ∧
      (m.toNat ≠ 3 → m.toNat ≠ s.segMode p g → s.segMode p g = 0 → s.homeNamed p g = true →
        t = s.setF (SEG_CTL.adr p g) SEG_CTL.REFUSED 1) ∧
      (m.toNat ≠ 3 → m.toNat ≠ s.segMode p g → (s.segMode p g ≠ 0 ∨ s.homeNamed p g = false) →
        t.segMode p g = m.toNat ∧ t.fld (SEG_CTL.adr p g) SEG_CTL.REFUSED = 0 ∧ s.Erased t p g)) ∧
    (∃ t, exec (.segErase p g) s = .next t ∧ s.Erased t p g ∧ t.fld (SEG_CTL.adr p g) SEG_CTL.REFUSED = 0 ∧
      t.segMode p g = s.segMode p g ∧ (∀ a, a ≠ SEG_CTL.adr p g → t.rd a = s.rd a) ∧
      t = { s with ctrl := t.ctrl, segLines := t.segLines, tags := t.tags }) ∧
    ∀ light : BitVec 16, ∃ t, exec (.segCodeChange p light) s = .next t ∧
      t = { s with ctrl := t.ctrl, segLines := t.segLines, tags := t.tags } ∧
      (∀ a, a ≠ SEG_REPAIR.adr p → t.rd a = s.rd a) ∧
      let old (i : Nat) := (s.fld (SEG_REPAIR.adr p) SEG_REPAIR.LIGHT).testBit i
      let refused (i : Nat) := old i ≠ light.getLsbD i ∧ s.segMode p i = 0 ∧ s.homeNamed p i = true
      (∀ i, i < 16 → ((t.fld (SEG_REPAIR.adr p) SEG_REPAIR.LIGHT).testBit i = true ↔
        (refused i ∧ old i = true) ∨ (¬ refused i ∧ light.getLsbD i = true))) ∧
      (t.fld (SEG_REPAIR.adr p) SEG_REPAIR.REFUSED = 1 ↔ ∃ i, i < 16 ∧ refused i) ∧
      (∀ k, k ∈ t.segLines ↔ k ∈ s.segLines ∧
        ∀ i, i < 16 → old i ≠ light.getLsbD i → ¬ refused i → k / 4096 ≠ p * 16 + i) ∧
      (∀ x, x ∈ t.tags ↔ x ∈ s.tags ∧ ∀ i, i < 16 → old i ≠ light.getLsbD i → ¬ refused i → x.seg ≠ p * 16 + i)

/-- O34. R213 and R216. -/
def Obligations.HomeSlicesAndRehoming : Prop :=
  (∀ (s : State) (p g slot : Nat) (x : CacheTag), p < 136 → g < 16 →
    s.tags.find? (fun t => t.seg == p * 16 + g && t.slot == slot) = some x →
    (x.dirty = false → exec (.homeSliceEvict p g slot) s = .next (s.dropTag x)) ∧
    ∀ (d a : Nat) (u : State) (ws : List (Nat × Bool)), x.dirty = true → s.dramLine (x.line * 64) = (d, a) → s.McOpen p d →
      s.convOwes d a = false →
      s.readWords (.seg p g slot) 0 16 = (u, ws) →
      exec (.homeSliceEvict p g slot) s = .next ((u.writeWords (.dram d a) ws).dropTag x)) ∧
  (∀ (s : State) (v : Word),
    (s.has REHOME.adr REHOME.START = true → exec (.rehome v) s = .next s) ∧
    (s.has REHOME.adr REHOME.START = false →
      let u := s.wr REHOME.adr (v &&& (fmask REHOME.ENTRY ||| fmask REHOME.SEG ||| fmask REHOME.LTILE ||| fmask REHOME.VALID))
      (fset? REHOME.START v = false → exec (.rehome v) s = .next u) ∧
      (fset? REHOME.START v = true → s.has HOME_CTL.adr HOME_CTL.LOCKED = false →
        exec (.rehome v) s = .next (s.setF HOME_CTL.adr HOME_CTL.REFUSED 1)) ∧
      (fset? REHOME.START v = true → s.has HOME_CTL.adr HOME_CTL.LOCKED = true → fset? REHOME.VALID v = true →
        (s.physTile (fget REHOME.LTILE v) = none ∨
          ∃ p, s.physTile (fget REHOME.LTILE v) = some p ∧ s.segMode p (fget REHOME.SEG v) ≠ 0) →
        exec (.rehome v) s = .next (s.setF HOME_CTL.adr HOME_CTL.REFUSED 1)) ∧
      (fset? REHOME.START v = true → s.has HOME_CTL.adr HOME_CTL.LOCKED = true →
        (fset? REHOME.VALID v = true → ∃ p, s.physTile (fget REHOME.LTILE v) = some p ∧ s.segMode p (fget REHOME.SEG v) = 0) →
        exec (.rehome v) s = .next (((u.setF HOME_CTL.adr HOME_CTL.REFUSED 0).setF REHOME.adr REHOME.START 1).setF
          (HOME_MAP.adr (fget REHOME.ENTRY v)) HOME_MAP.MOVING 1)))) ∧
  ∀ s : State,
    (s.has REHOME.adr REHOME.START = false → exec .rehomeSwitch s = .next s) ∧
    (s.has REHOME.adr REHOME.START = true → s.linesOf (s.fld REHOME.adr REHOME.ENTRY) = [] →
      exec .rehomeSwitch s = .next (((s.wr (HOME_MAP.adr (s.fld REHOME.adr REHOME.ENTRY))
        (BitVec.ofNat 64 (s.fld REHOME.adr REHOME.SEG * 2 ^ 16 + s.fld REHOME.adr REHOME.LTILE * 2 ^ 8 + s.fld REHOME.adr REHOME.VALID))).setF
        REHOME.adr REHOME.START 0).incF HOME_CTL.adr HOME_CTL.REHOMES 1))

/-- O35. R224, R251 and R407. -/
def Obligations.MemoryControllers : Prop :=
  ∀ (s : State) (d : Nat), d < 8 → s.isOn (144 + d) = true →
    (∀ ok : Bool, s.fld (MC_STATE.adr d) MC_STATE.STATE = 1 →
      exec (.mcTrainingDone d ok) s = .next (s.setF (MC_STATE.adr d) MC_STATE.STATE (if ok = true then 2 else 4))) ∧
    (s.fld (MC_STATE.adr d) MC_STATE.STATE = 2 →
      exec (.memLevelChange d) s = .next (s.setF (DOM_STAT.adr (144 + d)) DOM_STAT.LEVEL_NOW
        (if s.power.devHold = true then 0 else s.fld (DOM_CTL.adr (144 + d)) DOM_CTL.LEVEL))) ∧
    (s.fld (MC_STATE.adr d) MC_STATE.STATE = 2 → s.has (DOM_CTL.adr (144 + d)) DOM_CTL.IDLE_LIMIT = true →
      exec (.selfRefreshEntry d) s = .next (s.setF (MC_STATE.adr d) MC_STATE.STATE 3)) ∧
    (s.fld (MC_STATE.adr d) MC_STATE.STATE = 3 → (∃ h ∈ s.power.held, h.dom = 144 + d) →
      exec (.selfRefreshExit d) s = .next (s.setF (MC_STATE.adr d) MC_STATE.STATE 2)) ∧
    (s.has (FILL_CTL.adr d) FILL_CTL.GO = true → exec (.memFill d) s = .next s) ∧
    (s.has (FILL_CTL.adr d) FILL_CTL.GO = false → exec (.memFill d) s =
      .next ((s.setF (FILL_CTL.adr d) FILL_CTL.GO 1).setF (FILL_CTL.adr d) FILL_CTL.DONE 0)) ∧
    (s.has (FILL_CTL.adr d) FILL_CTL.GO = true → s.fld (MC_STATE.adr d) MC_STATE.STATE = 2 →
      exec (.memFillDone d) s = .next (((((numsFrom (16 * s.fld (FILL_START.adr d) FILL_START.BLOCK)
        (16 * (s.fld (FILL_END.adr d) FILL_END.BLOCK + 1 - s.fld (FILL_START.adr d) FILL_START.BLOCK))).foldl
          (fun u l => u.writeWords (.dram d (64 * l)) ((List.replicate 8
            [((s.rd (FILL_PATTERN.adr d)).toNat % 2 ^ 32, s.has (FILL_CTL.adr d) FILL_CTL.POISON),
             ((s.rd (FILL_PATTERN.adr d)).toNat / 2 ^ 32, s.has (FILL_CTL.adr d) FILL_CTL.POISON)]).flatten)) s).setF
        (FILL_CTL.adr d) FILL_CTL.GO 0).setF (FILL_CTL.adr d) FILL_CTL.DONE 1).pulse (6981 + 8 * d)))

/-- O36. R247. -/
def Obligations.CodeConversion : Prop :=
  (∀ (s : State) (g : Nat) (light : Bool), s.isOn 144 = false → exec (.dramCodeConvert g light) s = .next s) ∧
  (∀ (s : State) (g : Nat) (light : Bool), g < 512 → s.isOn 144 = true →
    (s.has (DRAM_CODE.adr g) DRAM_CODE.LIGHT = light → exec (.dramCodeConvert g light) s = .next s) ∧
    (s.has (DRAM_CODE.adr g) DRAM_CODE.LIGHT ≠ light → s.conv.isSome = true →
      exec (.dramCodeConvert g light) s = .next (s.setF (DRAM_CODE.adr g) DRAM_CODE.REFUSED 1)) ∧
    (s.has (DRAM_CODE.adr g) DRAM_CODE.LIGHT ≠ light → s.conv = none →
      ∃ t owed, exec (.dramCodeConvert g light) s = .next t ∧ t = { s with ctrl := t.ctrl, conv := some ⟨g, [], [], owed⟩ } ∧
        (∀ d, d ∈ owed ↔ d < 8 ∧ s.dom (144 + d) ≠ 1) ∧
        t.fld (DRAM_CODE.adr g) DRAM_CODE.LIGHT = (if light = true then 1 else 0) ∧
        t.fld (DRAM_CODE.adr g) DRAM_CODE.REFUSED = 0 ∧ t.fld (DRAM_CODE.adr g) DRAM_CODE.CONVERTING = 1 ∧
        ∀ a, a ≠ DRAM_CODE.adr g → t.rd a = s.rd a)) ∧
  ∀ (s : State) (d : Nat) (c : Conv), d < 8 → s.conv = some c → d ∉ c.done →
    (s.convPos c d < (granuleRange s.dramMode d c.g).2 → s.isOn (144 + d) = true → s.fld (MC_STATE.adr d) MC_STATE.STATE = 2 →
      ∃ t, exec (.conversionLine d) s = .next t ∧
        t = { (if s.blockedUnit (.dram d (s.convPos c d)) = true then s
               else s.recode (.dram d (s.convPos c d)) (!s.has (DRAM_CODE.adr c.g) DRAM_CODE.LIGHT)
                 (s.has (DRAM_CODE.adr c.g) DRAM_CODE.LIGHT) 0 16) with conv := t.conv } ∧
        ∃ c', t.conv = some c' ∧ c'.g = c.g ∧ c'.done = c.done ∧ c'.owed = c.owed ∧ t.convPos c' d = s.convPos c d + 64) ∧
    ((granuleRange s.dramMode d c.g).2 ≤ s.convPos c d →
      ∃ t, exec (.conversionPartDone d) s = .next t ∧
        (c.done.length < 7 → ∃ l, t = { s.pulse (6982 + 8 * d) with conv := some ⟨c.g, c.pos, l, c.owed⟩ } ∧
          ∀ x, x ∈ l ↔ x = d ∨ x ∈ c.done) ∧
        (c.done.length = 7 → t = { (s.pulse (6982 + 8 * d)).setF (DRAM_CODE.adr c.g) DRAM_CODE.CONVERTING 0 with conv := none }))

/-- O37. R252 to R257. -/
def Obligations.SparesAndRecurrence : Prop :=
  (∀ (s : State) (p loc : Nat), p < 136 → s.isOn p = true → s.hardWait.contains (tileBlk p, loc) = true →
    ∃ t, exec (.spareRowMap p loc) s = .next t ∧
      (∀ r u, s.freeRow p (loc / 0x40000 % 16) = some r → u = { s with hardWait := s.hardWait.erase (tileBlk p, loc) } →
        t = (u.mapRow p (loc / 0x40000 % 16) (loc / 256 % 1024) r).freeEntry (tileBlk p) loc) ∧
      (s.freeRow p (loc / 0x40000 % 16) = none → nbit (loc / 0x40000 % 16) (t.fld (SEG_REPAIR.adr p) SEG_REPAIR.RETIRED) = true)) ∧
  (∀ (s : State) (d loc i : Nat) (u : State), d < 8 → s.isOn (144 + d) = true → s.hardWait.contains (mcBlk d, loc) = true →
    s.freeBlock d = some i → u = { s with hardWait := s.hardWait.erase (mcBlk d, loc) } →
    exec (.dramBlockRemap d loc) s = .next ((u.mapBlock d (loc / 1024) i).freeEntry (mcBlk d) loc)) ∧
  (∀ (s : State) (p g r : Nat) (row : BitVec 10), p < 136 → g < 16 → r < 8 → s.isOn p = true →
    (s.has (SPARE_MAP.adr p g r) SPARE_MAP.VALID = true → exec (.spareMapWrite p g r row) s = .next s) ∧
    (s.has (SPARE_MAP.adr p g r) SPARE_MAP.VALID = false →
      exec (.spareMapWrite p g r row) s = .next (s.mapRow p g row.toNat r))) ∧
  (∀ (s : State) (d i : Nat) (b : BitVec 26), d < 8 → i < 1024 → s.isOn (144 + d) = true →
    (s.has (DRAM_REMAP.adr d i) DRAM_REMAP.VALID = true → exec (.dramRemapWrite d i b) s = .next s) ∧
    (s.has (DRAM_REMAP.adr d i) DRAM_REMAP.VALID = false →
      exec (.dramRemapWrite d i b) s = .next (s.mapBlock d b.toNat i))) ∧
  ∀ (s : State) (u : RUnit), s.unitOn u →
    (∀ i, i < 32 → exec (.recEntryFree u i) s = .next (s.wr (REC_ENTRY.adr (unitBlk u) i) 0)) ∧
    (s.fld (REC_CTL.adr (unitBlk u)) REC_CTL.DECAY = 0 → exec (.recDecayExpiry u) s = .next s) ∧
    (s.fld (REC_CTL.adr (unitBlk u)) REC_CTL.DECAY ≠ 0 → ∃ t, exec (.recDecayExpiry u) s = .next t ∧
      t = { s with ctrl := t.ctrl } ∧ ∀ i, i < 32 → t.rd (REC_ENTRY.adr (unitBlk u) i) =
        (let e := s.rd (REC_ENTRY.adr (unitBlk u) i)
         if fget REC_ENTRY.VALID e = 0 ∨ 2 ≤ fget REC_ENTRY.STATE e then e
         else if fget REC_ENTRY.COUNT e < 2 then 0 else fput REC_ENTRY.COUNT (fget REC_ENTRY.COUNT e / 2) e)) ∧
    ∀ (loc i d c : Nat) (e : Word) (v : State), s.recFind (unitBlk u) loc = some (i, e) → fget REC_ENTRY.STATE e = 0 →
      s.fld (REC_CTL.adr (unitBlk u)) REC_CTL.REWRITE_AT ≤ fget REC_ENTRY.COUNT e →
      s.rawRead (unitPlace u loc) (s.storeAt (unitPlace u loc) + 4 * wordNo loc) = (v, d, c) →
      s.emptyLine (unitPlace u loc) = false → s.beatPaused u = false →
      let x := eccDecode (s.lightAt (unitPlace u loc)) d c
      exec (.beaterRewrite u loc) s = .next
        ((if x.poisoned = true then v
          else v.rawWrite (unitPlace u loc) (s.storeAt (unitPlace u loc) + 4 * wordNo loc) x.data
            (eccEncode (s.lightAt (unitPlace u loc)) false x.data)).wr (REC_ENTRY.adr (unitBlk u) i) (recWord 1 0 loc))

/-- O38. R258 and R259. -/
def Obligations.BeaterAndDiagnostics : Prop :=
  ∀ (s : State) (u : RUnit), s.unitOn u →
    exec (.beatPass u) s = .next (s.setF (BEAT_CTL.adr (unitBlk u)) BEAT_CTL.PASS 1) ∧
    (∀ late : Bool, ∃ v : State, v = { s with ctrl := v.ctrl, beaten := v.beaten } ∧
      if s.beating (unitBlk u) = false ∨ s.beatPaused u = true ∨ s.beatAt u ≠ none then exec (.beaterPassEnd u late) s = .next s
      else
        exec (.beaterPassEnd u late) s = .next (v.pulse (match u with | .tile p => 7268 + 16 * (p / 17) | .mc d => 6980 + 8 * d)) ∧
        unitBlk u ∉ v.beaten ∧ v.fld (BEAT_STAT.adr (unitBlk u)) BEAT_STAT.LATE = (if late = true then 1 else 0) ∧
        v.fld (BEAT_STAT.adr (unitBlk u)) BEAT_STAT.POS = 0 ∧ v.fld (BEAT_CTL.adr (unitBlk u)) BEAT_CTL.PASS = 0 ∧
        v.fld (BEAT_STAT.adr (unitBlk u)) BEAT_STAT.PASSES = (s.fld (BEAT_STAT.adr (unitBlk u)) BEAT_STAT.PASSES + 1)
          % 2 ^ (BEAT_STAT.PASSES.hi - BEAT_STAT.PASSES.lo + 1)) ∧
    (∀ loc : Nat, s.beating (unitBlk u) = false ∨ s.beatPaused u = true ∨ s.beatAt u ≠ some loc →
      exec (.beaterVisit u loc) s = .next s) ∧
    (∀ (loc d c : Nat) (v : State), s.beating (unitBlk u) = true → s.beatPaused u = false → s.beatAt u = some loc →
      s.rawRead (unitPlace u loc) (s.storeAt (unitPlace u loc) + 4 * wordNo loc) = (v, d, c) →
      (eccDecode (s.lightAt (unitPlace u loc)) d c).cls = .clean →
      ∃ t, exec (.beaterVisit u loc) s = .next t ∧ t = { v with ctrl := t.ctrl, beaten := t.beaten } ∧
        (∀ a, a ≠ BEAT_STAT.adr (unitBlk u) → t.rd a = v.rd a) ∧
        (∀ n, s.beatFrom u (loc + 4) = some n → t.fld (BEAT_STAT.adr (unitBlk u)) BEAT_STAT.POS = n ∧ t.beaten = s.beaten) ∧
        (s.beatFrom u (loc + 4) = none →
          t.fld (BEAT_STAT.adr (unitBlk u)) BEAT_STAT.POS = 0 ∧ unitBlk u ∈ t.beaten)) ∧
    ∀ (loc : Nat) (raw : BitVec 39), ∃ t w, exec (.writeRaw u loc raw) s = .next t ∧ exec (.readRaw u loc) t = .next w ∧
      (w.rd (DIAG_RDATA.adr (unitBlk u))).extractLsb' 0 39 = raw ∧
      ∀ k, k = s.storeAt (unitPlace u loc) + 4 * wordNo loc → s.emptyLine (unitPlace u loc) = false →
        (∀ j, j < k ∨ k + 4 ≤ j → w.byteAt j = s.byteAt j) ∧ ∀ j, j ≠ k / 4 → w.chk.get 0 j = s.chk.get 0 j

/-- O39. R265, R267, R268 and R274 for pushes. -/
def Obligations.QueuePushes : Prop :=
  ∀ (s : State) (lt p q : Nat) (who : Who) (w : PW) (m : MQueue), lt < 128 → q < 32 → s.queue p q = m →
    (s.portGate (some who) lt = .run p →
      ∃ t u, exec (.qpush who lt q w) s = .next t ∧ exec (.qpushLast who lt q w) s = .next u ∧
        ((m.prod = .idle ∧ w.poison = false ∧ m.words.length + m.opened.length < 64) ∨
         (m.prod = .opened ∧ m.owner = who ∧ w.poison = false ∧ m.opened.length ≠ 64 ∧ m.words.length + m.opened.length < 64) →
          s.QueueIs t p q { m with opened := m.opened ++ [w], prod := .opened, owner := who } ∧
          s.QueueIs u p q { m with words := m.words ++ m.opened ++ [w], opened := [], prod := .idle }) ∧
        ((m.prod = .idle ∨ (m.prod = .opened ∧ m.owner = who)) → w.poison = true →
          s.QueueIs t p q { m with opened := [], prod := .absorbing, owner := who } ∧ t.has (Q_FLAGS.adr p q) Q_FLAGS.BAD = true ∧
          s.QueueIs u p q { m with opened := [], prod := .idle, owner := who } ∧ u.has (Q_FLAGS.adr p q) Q_FLAGS.BAD = true ∧
          t.fld (Q_COUNT.adr p q) Q_COUNT.REWINDS = min 0xFFFF (s.fld (Q_COUNT.adr p q) Q_COUNT.REWINDS + 1)) ∧
        (m.prod = .opened → m.owner = who → w.poison = false → m.opened.length = 64 →
          s.QueueIs t p q { m with opened := [], prod := .absorbing, owner := who } ∧
          t.has (Q_FLAGS.adr p q) Q_FLAGS.OVERSIZE = true ∧
          s.QueueIs u p q { m with opened := [], prod := .idle, owner := who } ∧
          t.fld (Q_COUNT.adr p q) Q_COUNT.DISCARDED = min 0xFFFFFFFF (s.fld (Q_COUNT.adr p q) Q_COUNT.DISCARDED + 1)) ∧
        (m.prod = .absorbing → m.owner = who →
          s.QueueIs t p q m ∧ s.QueueIs u p q { m with prod := .idle } ∧
          t.fld (Q_COUNT.adr p q) Q_COUNT.DISCARDED = min 0xFFFFFFFF (s.fld (Q_COUNT.adr p q) Q_COUNT.DISCARDED + 1)) ∧
        ((m.prod ≠ .idle ∧ m.owner ≠ who) ∨ (m.prod ≠ .absorbing ∧ w.poison = false ∧ m.opened.length ≠ 64 ∧
            64 ≤ m.words.length + m.opened.length) →
          t = s.setQueue p q { m with held := m.held ++ [⟨who, false, w⟩] } ∧
          u = s.setQueue p q { m with held := m.held ++ [⟨who, true, w⟩] })) ∧
    (s.physTile lt = none → exec (.qpush who lt q w) s = .next s ∧ exec (.qpushLast who lt q w) s = .next s ∧
      exec (.qabort who lt q) s = .next s ∧ exec (.qpop who lt q) s = .next s) ∧
    (s.physTile lt = some p → s.wayOpen who p = true → s.dom p = 2 → s.queues = [] → ∃ t, exec (.qpush who lt q w) s = .next t ∧ t.dom p = 4 ∧
      (t.queue p q).held = [⟨who, false, w⟩])

/-- O40. R265 to R273. -/
def Obligations.QueueRewindsPopsAndSettings : Prop :=
  ∀ (s : State) (lt p q : Nat) (who : Who) (m : MQueue), lt < 128 → q < 32 → s.queue p q = m → s.portGate (some who) lt = .run p →
    (∃ t, exec (.qabort who lt q) s = .next t ∧
      (m.prod = .idle ∨ m.owner ≠ who → t = s) ∧
      (m.prod = .opened → m.owner = who → s.QueueIs t p q { m with opened := [], prod := .idle } ∧
        t.fld (Q_COUNT.adr p q) Q_COUNT.REWINDS = min 0xFFFF (s.fld (Q_COUNT.adr p q) Q_COUNT.REWINDS + 1)) ∧
      (m.prod = .absorbing → m.owner = who → s.QueueIs t p q { m with prod := .idle })) ∧
    (∃ t, exec (.stale lt q) s = .next t ∧
      (m.prod = .idle ∨ m.openLimit = 0 → t = s) ∧
      (m.prod = .opened → m.openLimit ≠ 0 → s.QueueIs t p q { m with opened := [], prod := .absorbing } ∧
        t.has (Q_FLAGS.adr p q) Q_FLAGS.STALE = true) ∧
      (m.prod = .absorbing → m.openLimit ≠ 0 → s.QueueIs t p q { m with prod := .idle })) ∧
    (∃ t, exec (.qpop who lt q) s = .next t ∧
      (m.words = [] → t = (s.setF (Q_FLAGS.adr p q) Q_FLAGS.UNDERRUN 1).emit (.answer who m.last)) ∧
      ∀ w r, m.words = w :: r → m.flips = [] → s.QueueIs t p q { m with words := r, last := w } ∧ t.out.getLast? = some (.answer who w)) ∧
    (∃ t, exec (.queueFlush lt q) s = .next t ∧
      s.QueueIs t p q { m with words := [], opened := [], prod := if m.prod = .opened then .absorbing else m.prod } ∧
      t.fld (Q_COUNT.adr p q) Q_COUNT.DISCARDED =
        min 0xFFFFFFFF (s.fld (Q_COUNT.adr p q) Q_COUNT.DISCARDED + (m.words.length + m.opened.length))) ∧
    (∀ mode : BitVec 2, ∃ t, exec (.evmodeWrite lt q mode) s = .next t ∧ s.QueueIs t p q { m with evmode := mode.toNat } ∧
      (mode = 3 → m.evmode ≠ 3 → (t.src (2048 + p * 32 + q)).isLevel = true ∧ (t.src (2048 + p * 32 + q)).count = 0 ∧
        ((t.src (2048 + p * 32 + q)).level = true ↔ m.words ≠ [])) ∧
      (mode ≠ 3 → m.evmode = 3 → (t.src (2048 + p * 32 + q)).isLevel = false)) ∧
    (∀ v : Word, exec (.qwmWrite lt q v) s = .next (s.setQueue p q
      { m with wmHigh := min 64 (v.extractLsb' 16 8).toNat, wmLow := min 64 (v.extractLsb' 8 8).toNat })) ∧
    (m.held = [] → exec (.heldPushAccept lt q) s = .next s.goAll) ∧
    ∀ (h : HeldPush) (r : List HeldPush), m.held = h :: r → m.prod = .idle → h.w.poison = false → h.last = true →
      m.words.length + m.opened.length < 64 → s.wayOpen h.who p = true →
      ∃ u, exec (.heldPushAccept lt q) s = .next u.goAll ∧
        s.QueueIs u p q { m with words := m.words ++ m.opened ++ [h.w], opened := [], prod := .idle, held := r }

/-- O41. R277 to R281, R284 and R289; the order of the list of sources is the model's own. -/
def Obligations.EventSources : Prop :=
  (∀ (s : State) (n : Nat), n < 7712 →
    (∃ t, exec (.eventArrival n) s = .next t ∧
      ((s.src n).isLevel = true → t = s) ∧
      ((s.src n).isLevel = false → s.isOn 301 = true → (2048 ≤ n ∨ (s.physTile ((s.src n).target / 16)).isSome = true) →
        t.src n = (s.src n).arrived1 ∧ (∀ m, m ≠ n → t.src m = s.src m) ∧
        (s.Unwatched n → t = (s.setSrc n (s.src n).arrived1).noteCore (s.src n).target)) ∧
      ((s.src n).isLevel = false → s.isOn 301 = true → n < 2048 → s.physTile ((s.src n).target / 16) = none →
        t = s.satF EV_HUB_STAT.adr EV_HUB_STAT.DB_DROPPED 1) ∧
      ((s.src n).isLevel = false → s.isOn 301 = false → s.Unwatched n →
        t = if (6400 ≤ n ∧ n < 6976 ∧ n % 4 = 3) ∨ n ∈ [7040, 7041, 7042] then { s with aonPend := s.aonPend ++ [n] } else s)) ∧
    (∀ high : Bool, ∃ t, exec (.levelChange n high) s = .next t ∧
      ((s.src n).isLevel = false ∨ s.isOn 301 = false → t = s) ∧
      ((s.src n).isLevel = true → s.isOn 301 = true → t.src n = { s.src n with level := high } ∧
        (s.Unwatched n → t = if high = true then (s.setSrc n { s.src n with level := high }).noteCore (s.src n).target
          else s.setSrc n { s.src n with level := high }))) ∧
    (s.isOn 301 = true → ∀ v : Word, (v.extractLsb' 0 11).toNat = n → exec (.evRing v) s = exec (.eventArrival n) s) ∧
    ∀ mask : Word, s.isOn 301 = true →
      (∃ t, exec (.evPendClr (n / 64) mask) s = .next t ∧ t = { s with hub := t.hub } ∧
        t.src n = (if mask.getLsbD (n % 64) = true ∧ (s.src n).isLevel = false
          then { s.src n with count := 0, acked := ((s.src n).acked + (s.src n).count) % 2 ^ 32 } else s.src n) ∧
        ∀ m, m / 64 ≠ n / 64 → t.src m = s.src m) ∧
      ∃ t, exec (.evPendSet (n / 64) mask) s = .next t ∧
        (2048 ≤ n → t.src n = if mask.getLsbD (n % 64) = true ∧ (s.src n).isLevel = false then (s.src n).arrived1 else s.src n)) ∧
  (∀ (s : State) (c : Nat), c < 2048 → s.isOn 301 = true → s.HubSorted →
    ((∀ n, ¬ s.CanClaim c n) → exec (.evClaim c) s = .next (s.emit (.answer (.core c) ⟨0, false⟩))) ∧
    ∀ n, s.CanClaim c n → (∀ m, s.CanClaim c m → (s.src m).prio < (s.src n).prio ∨ ((s.src m).prio = (s.src n).prio ∧ n ≤ m)) →
      exec (.evClaim c) s = .next ((s.setSrc n { s.src n with insvc := true, svcCore := c }).emit
        (.answer (.core c) ⟨BitVec.ofNat 64 (2 ^ 63 + (if (s.src n).isLevel = true then 1 else (s.src n).count) * 2 ^ 32
          + (if (s.src n).isLevel = true then 1 else 0) * 2 ^ 28 + (s.src n).prio * 2 ^ 24 + n), false⟩))) ∧
  (∀ (s : State) (c : Nat) (v : Word) (n a : Nat), c < 2048 → s.isOn 301 = true → fget EV_EOI.SOURCE v = n →
    fget EV_EOI.AMOUNT v = a →
    (((s.src n).insvc = false ∨ (s.src n).svcCore ≠ c) →
      exec (.evEoi c v) s = .next (s.setF (EV_CORE_STAT.adr c) EV_CORE_STAT.BAD_EOI 1)) ∧
    ((s.src n).insvc = true → (s.src n).svcCore = c → (s.src n).isLevel = true →
      exec (.evEoi c v) s = .next ((s.setSrc n { s.src n with insvc := false }).noteCore (s.src n).target)) ∧
    ((s.src n).insvc = true → (s.src n).svcCore = c → (s.src n).isLevel = false →
      exec (.evEoi c v) s = .next ((s.setSrc n { s.src n with
        insvc := false, count := (s.src n).count - a, acked := ((s.src n).acked + min a (s.src n).count) % 2 ^ 32,
        ackOver := (s.src n).ackOver || decide ((s.src n).count < a) }).noteCore (s.src n).target))) ∧
  State.reset.HubSorted ∧ ∀ (s : State) (n : Nat) (e : EvSource), s.HubSorted → (s.setSrc n e).HubSorted

/-- O42. R304 to R307; each clause is followed by what waits on the link's state. -/
def Obligations.LinkTraining : Prop :=
  ∀ (s : State) (n : Nat), n < 144 →
    let may := s.lctl n LNK_CTL.ENABLE = 1 ∧ s.lctl n LNK_CTL.RETIRE = 0 ∧ s.lctl n LNK_CTL.TEST = 0 ∧ s.isOn (152 + n) = true
    let stays := s.lctl n LNK_CTL.ENABLE = 1 ∧ s.lctl n LNK_CTL.PWR_REQ ≠ 2 ∧ s.lctl n LNK_CTL.RETIRE = 0 ∧ (s.lk n).farRetire = false
    (s.ts n = 1 → may → s.LinkGives n (.detectProbe n true) (s.startLock n true)) ∧
    (s.ts n ≠ 1 ∨ ¬ may → s.LinkGives n (.detectProbe n true) s) ∧
    (s.LinkGives n (.detectProbe n false) s) ∧
    (s.ts n = 2 → ∃ u : State, s.LinkGives n (.rxLock n) u ∧ u.ts n = 3 ∧ u.fld (LNK_STAT.adr n) LNK_STAT.RX_LOCK = 1 ∧
      (u.lk n).lock100 = s.at100 n ∧ (u.lk n).txCw = [] ∧ (u.lk n).replay = (s.lk n).replay ∧
      u = { s with ctrl := u.ctrl, links := u.links, out := u.out, freeTick := u.freeTick }) ∧
    (s.ts n = 2 → s.trainRate n = 0 → (s.lk n).full = true →
      s.LinkGives n (.fallback n) (s.setLk n { s.lk n with try100 := true })) ∧
    (s.ts n = 3 → ∃ u : State, s.LinkGives n (.codewordLock n) u ∧ u.ts n = 4 ∧ (u.lk n).asked = some (0x10, 1) ∧
      (u.lk n).initGot = false ∧ ∃ f, u.out = s.out ++ [.flit n f]) ∧
    (∀ (exp : Nat) (m : InitMsg), s.ts n = 4 → (s.lk n).initGot = false →
      ∃ u v : State, u = ((((s.setF (LNK_STAT.adr n) LNK_STAT.FAR_DEVICE m.device).setF (LNK_STAT.adr n) LNK_STAT.FAR_LINK m.link).setF
          (LNK_STAT.adr n) LNK_STAT.FAR_SIDE (if m.side = true then 1 else 0)).setF (LNK_STAT.adr n) LNK_STAT.FAR_VALID 1) ∧
        v = u.setLk n { s.lk n with initGot := true } ∧
        let other := s.has (LNK_EXPECT.adr n) LNK_EXPECT.CHECK = true ∧
          (s.fld (LNK_EXPECT.adr n) LNK_EXPECT.DEVICE ≠ m.device ∨ s.fld (LNK_EXPECT.adr n) LNK_EXPECT.LINK ≠ m.link)
        let bad := m.rate100 ≠ (s.lk n).lock100 ∨ ¬ ((∀ x ∈ m.alloc, 16 ≤ x) ∧ m.alloc.foldl (· + ·) 0 ≤ 1024)
        (other → ¬ bad → s.LinkGives n (.init n exp m) (v.lkSet n LNK_EVT.ID_MISMATCH 2)) ∧
        (¬ other → bad → s.LinkGives n (.init n exp m) (v.lkSet n LNK_EVT.ALLOC_ERR 1)) ∧
        (other → bad → s.LinkGives n (.init n exp m) ((v.lkSet n LNK_EVT.ID_MISMATCH 2).lkSet n LNK_EVT.ALLOC_ERR 1)) ∧
        (¬ other → ¬ bad →
          s.LinkGives n (.init n exp m) (((v.setCredits n exp m).updLk n fun l => { l with initOk := true }).sendLctl n 0x11 false []))) ∧
    (∀ exp : Nat, s.ts n = 4 → (s.lk n).initOk = true → (s.lk n).wasUp = false → (s.lk n).replay = [] →
      (s.trainRate n ≠ 0 ∨ (s.lk n).lock100 = false) →
      ∃ u : State, s.LinkGives n (.initDone n exp) (u.lkSet n LNK_EVT.UP 0) ∧ u.ts n = 5 ∧ u.ps n = 0 ∧ (u.lk n).fresh = false ∧
        u.fld (LNK_STAT.adr n) LNK_STAT.RATE_NOW = (if (s.lk n).lock100 = true then 2 else 1) ∧
        (u.lk n).asked = none ∧ u = { s with ctrl := u.ctrl, links := u.links }) ∧
    (∀ p : Bool, (s.ts n < 2 ∨ 4 < s.ts n) → s.LinkGives n (.trainingFailure n p) s) ∧
    (∀ p : Bool, 2 ≤ s.ts n → s.ts n ≤ 4 → s.lctl n LNK_CTL.RETIRE = 1 → s.LinkGives n (.trainingFailure n p) (s.retired n)) ∧
    (∀ p : Bool, 2 ≤ s.ts n → s.ts n ≤ 4 → stays → (s.lk n).full = false → ((s.lk n).woke = false ∨ p = true) →
      s.LinkGives n (.trainingFailure n p) (s.startLock n true)) ∧
    (2 ≤ s.ts n → s.ts n ≤ 4 → stays → ((s.lk n).full = true ∨ (s.lk n).woke = true) →
      s.LinkGives n (.trainingFailure n false) (s.toDetect n 1 true)) ∧
    (2 ≤ s.ts n → s.ts n ≤ 4 → stays → (s.lk n).full = true →
      let u := s.setLk n { s.lk n with failedFull := (s.lk n).failedFull + 1 }
      s.LinkGives n (.trainingFailure n true)
        (if s.fld (LNK_HEALTH.adr n) LNK_HEALTH.RETRAIN_LIMIT ≤ (s.lk n).failedFull + 1 then
           (u.toDetect n 6 true).lkSet n LNK_EVT.RETIRE_CAND 2
         else u.toDetect n 1 (s.lk n).wasUp)) ∧
    (s.ts n = 5 → stays → ∃ u : State, s.LinkGives n (.linkRetrainCmd n) u ∧ u.ts n = 2 ∧ u.ps n = 0 ∧ u.lctl n LNK_CTL.RETRAIN = 1 ∧
      (u.lk n).full = false ∧ (u.lk n).wasUp = true ∧ (u.lk n).replay = (s.lk n).replay ∧ ∃ f, u.out = s.out ++ [.flit n f]) ∧
    (∀ exp, s.NoneAcked n exp → s.ts n = 5 → stays → ∃ u : State, s.LinkGives n (.retrain n exp) u ∧ u.ts n = 2 ∧ u.ps n = 0 ∧
      (u.lk n).full = false ∧ (u.lk n).wasUp = true ∧ (u.lk n).replay = (s.lk n).replay ∧ u.out = s.out) ∧
    (may → s.ts n ≠ 5 → ∃ u : State, s.LinkGives n (.fullTrain n) u ∧ u.ts n = 1 ∧ u.lctl n LNK_CTL.FULL_TRAIN = 1 ∧
        (u.lk n).replay = [] ∧ (u.lk n).fresh = true ∧ (u.lk n).failedFull = 0)

/-- O43. R302 and R308 to R314. -/
def Obligations.LinkFlitsAndReplay : Prop :=
  ∀ (s : State) (n : Nat), n < 144 →
    (s.LinkActive n → (s.lk n).replay.length < 512 →
      ∀ (t : TxPkt) (ty : Nat) (pl : List Byte) (r : List TxPkt) (fs : List (Nat × List Byte)),
        (s.lk n).txq = t :: r → t.flits = (ty, pl) :: fs → t.vc < 8 → s.has (LNK_VC.adr n t.vc) LNK_VC.CRED = true →
        ∃ (u : State) (f : List Byte), s.LinkGives n (.flitSend n) u ∧ u.out = s.out ++ [.flit n f] ∧ (u.lk n).replay = (s.lk n).replay ++ [f] ∧
          u.txNext n = (s.txNext n + 1) % 4096 ∧
          (u.lk n).txq = (if fs = [] then r else { t with flits := fs, begun := true } :: r) ∧
          (ty = 1 ∨ ty = 2 ∨ ty = 3 ∨ ty = 4 →
            u.fld (LNK_VC.adr n t.vc) LNK_VC.CRED = s.fld (LNK_VC.adr n t.vc) LNK_VC.CRED - 1)) ∧
    ((s.lk n).txq = [] → s.LinkGives n (.flitSend n) s) ∧
    (∀ f : List Byte, (s.ts n < 4 ∨ 5 < s.ts n ∨ s.ps n ≠ 0) → s.LinkGives n (.flitReceive n f) s) ∧
    (∀ f : List Byte, s.LinkActive n → (s.lk n).awaiting = false → flitOk f unseqSeed = false → flitOk f (s.lk n).rxNum = false →
      s.LinkGives n (.flitReceive n f) (((s.satF (LNK_ERRCNT.adr n) LNK_ERRCNT.CRC_ERR 1).sendLctl n 0x01 true []).updLk n
        fun l => { l with awaiting := true })) ∧
    (∀ f : List Byte, s.LinkActive n → (s.lk n).awaiting = true → flitOk f unseqSeed = false → s.LinkGives n (.flitReceive n f) s) ∧
    ((s.lk n).rx = [] → s.LinkGives n (.flitDequeue n) s) ∧
    (∀ (x : RxFlit) (r : List RxFlit), (s.lk n).rx = x :: r → x.type = 1 → x.counted = true → x.vc < 8 →
      s.fld (LNK_VC.adr n x.vc) LNK_VC.PEND + 1 < s.fld (LNK_TIMING.adr n) LNK_TIMING.CRD_THRESH →
      0 < s.fld (LNK_VC.adr n x.vc) LNK_VC.OCC →
      ∃ u : State, s.LinkGives n (.flitDequeue n) u ∧ (u.lk n).rx = r ∧
        u.fld (LNK_VC.adr n x.vc) LNK_VC.PEND = s.fld (LNK_VC.adr n x.vc) LNK_VC.PEND + 1 ∧
        u.fld (LNK_VC.adr n x.vc) LNK_VC.OCC = s.fld (LNK_VC.adr n x.vc) LNK_VC.OCC - 1) ∧
    (∀ (cvc cc : Nat) (cr : List Nat), s.LinkActive n → (s.lk n).awaiting = false → (s.lk n).ignoreUntil = none → cc = 0 →
      cr = [0, 0, 0, 0, 0, 0, 0, 0] → (s.lk n).sinceAck + 1 < s.fld (LNK_TIMING.adr n) LNK_TIMING.ACK_EVERY →
      ∃ u : State, s.LinkGives n (.crd n cvc cc cr) u ∧ u.rxExp n = (s.rxExp n + 1) % 4096 ∧ (u.lk n).sinceAck = (s.lk n).sinceAck + 1) ∧
    (∀ k, 0 < k → k ≤ (s.lk n).replay.length → k < 4096 → s.txOldest n < 4096 →
      ∃ u : State, s.LinkGives n (.ack n ((s.txOldest n + k) % 4096) false) u ∧ (u.lk n).replay = (s.lk n).replay.drop k ∧
        (u.lk n).noProgress = 0 ∧ u.txOldest n = (s.txOldest n + k) % 4096 ∧ u.out = s.out) ∧
    (∀ exp start, s.NoneAcked n exp →
      s.LinkGives n (.replay n exp start) (s.setLk n { s.lk n with awaiting := false, rxNum := start })) ∧
    (s.LinkActive n → (s.lk n).replay ≠ [] → (s.lk n).noProgress < s.fld (LNK_HEALTH.adr n) LNK_HEALTH.REPLAY_LIMIT →
      ∃ (u : State) (f : List Byte), s.LinkGives n (.replayTimeout n) u ∧ u.out = s.out ++ .flit n f :: (s.lk n).replay.map (Out.flit n) ∧
        (u.lk n).noProgress = (s.lk n).noProgress + 1 ∧ (u.lk n).replay = (s.lk n).replay) ∧
    (s.LinkActive n → (s.lk n).replay ≠ [] → s.fld (LNK_HEALTH.adr n) LNK_HEALTH.REPLAY_LIMIT ≤ (s.lk n).noProgress →
      s.LinkGives n (.replayTimeout n) ((s.lkSet n LNK_EVT.REPLAY_LIMIT 1).retrain n true)) ∧
    (s.ts n = 5 → 0 < (s.lk n).sinceAck → s.LinkGives n (.ackTimeExpiry n) (s.sendLctl n 0x01 false [])) ∧
    (s.LinkActive n → (s.lk n).replay.length < 512 → (∃ v, v < 8 ∧ s.has (LNK_VC.adr n v) LNK_VC.PEND = true) →
      ∃ (u : State) (f : List Byte), s.LinkGives n (.crdTimeExpiry n) u ∧ u.out = s.out ++ [.flit n f] ∧
        ∀ v, v < 8 → u.fld (LNK_VC.adr n v) LNK_VC.PEND = 0) ∧
    (∀ exp, s.NoneAcked n exp → s.LinkGives n (.lctlReserved n exp) ((s.setF (LNK_EVT.adr n) LNK_EVT.PROTO 1).pulse (6401 + 4 * n))) ∧
    ((s.lk n).asked = none → s.LinkGives n (.lctlResend n) s) ∧
    ∀ code k, (s.lk n).asked = some (code, k) →
      ((code = 0x20 ∨ code = 0x30) → s.quietReady n = false → s.LinkGives n (.lctlResend n) (s.setLk n { s.lk n with asked := none })) ∧
      (((code ≠ 0x20 ∧ code ≠ 0x30) ∨ s.quietReady n = true) →
        (k < 8 → code ≠ 0x10 →
          s.LinkGives n (.lctlResend n) ((s.sendLctl n code false []).updLk n fun l => { l with asked := some (code, k + 1) })) ∧
        (8 ≤ k → code ≠ 0x10 → code ≠ 0x50 →
          s.LinkGives n (.lctlResend n) (s.setLk n { s.lk n with asked := none, noAsk := nset (s.lk n).noAsk code })))

/-- O44. R318 to R321 and R327. -/
def Obligations.LinkPowerStates : Prop :=
  ∀ (s : State) (n : Nat), n < 144 →
    (∀ exp, s.NoneAcked n exp →
      ((s.lk n).asked = none → s.quietReady n = true → ∃ u : State, s.LinkGives n (.quietReq n exp) u ∧ u.ps n = 1 ∧
        ∃ f, u.out = s.out ++ [.flit n f]) ∧
      (s.ps n = 1 → s.LinkGives n (.quietReq n exp) s) ∧
      (s.ps n ≠ 1 → (s.lk n).asked = some (0x20, 1) → (s.lk n).txq = [] → (s.lk n).replay = [] →
        s.LinkGives n (.quietReq n exp) ((s.setPs n 1).updLk n fun l => { l with asked := none })) ∧
      (s.ps n ≠ 1 → (s.lk n).asked = none → s.quietReady n = false → s.ts n = 5 →
        s.LinkGives n (.quietReq n exp) (s.sendLctl n 0x22 false [])) ∧
      ((s.lk n).asked = some (0x20, 1) → (s.lk n).txq = [] → (s.lk n).replay = [] →
        s.LinkGives n (.quietAck n exp) ((s.setPs n 1).updLk n fun l => { l with asked := none })) ∧
      ((s.lk n).asked = none → s.LinkGives n (.quietAck n exp) s ∧ s.LinkGives n (.quietNak n exp) s ∧ s.LinkGives n (.offAck n exp) s) ∧
      ((s.lk n).asked = some (0x20, 1) → 
        s.LinkGives n (.quietNak n exp) (s.setLk n { s.lk n with asked := none, noAsk := nset (s.lk n).noAsk 0x20 })) ∧
      (s.ts n = 5 → (s.lk n).waking = false → ∃ u : State, s.LinkGives n (.offReq n exp) u ∧ u.dom (152 + n) = 0 ∧
        u.lk n = { LinkSt.reset with rate := (s.lk n).rate, try100 := (s.lk n).try100 } ∧ ∃ f, .flit n f ∈ u.out) ∧
      ((s.lk n).asked = some (0x30, 1) → ∃ u : State, s.LinkGives n (.offAck n exp) u ∧ u.dom (152 + n) = 0 ∧
        u.lk n = { LinkSt.reset with rate := (s.lk n).rate, try100 := (s.lk n).try100 })) ∧
    (s.quietReady n = true → (s.lk n).asked = none → s.lctl n LNK_CTL.AUTO_QUIET = 1 → s.LinkGives n (.quietIdleExpiry n)
      ((s.setLk n { s.lk n with noAsk := (s.lk n).noAsk.filter fun c => c ≠ 0x20 }).askLctl n 0x20 [])) ∧
    (s.lctl n LNK_CTL.AUTO_QUIET = 0 → s.wantQuiet n = false → s.LinkGives n (.quietIdleExpiry n)
      (s.setLk n { s.lk n with noAsk := (s.lk n).noAsk.filter fun c => c ≠ 0x20 })) ∧
    (s.ps n = 1 → s.lctl n LNK_CTL.ENERGY_DET ≠ 0 → s.lctl n LNK_CTL.RETIRE = 0 →
      s.LinkGives n (.wakeSeen n) (((s.setF (LNK_EVT.adr n) LNK_EVT.WAKE_SEEN 1).pulse (6403 + 4 * n)).startWake n)) ∧
    (s.ps n = 0 → (s.lk n).asked = none → s.LinkGives n (.wakeSeen n) s) ∧
    (s.ps n = 0 → s.lctl n LNK_CTL.ENERGY_DET ≠ 0 → s.lctl n LNK_CTL.RETIRE = 0 → (s.lk n).asked = some (0x20, 1) →
      s.LinkGives n (.wakeSeen n) (s.setLk n { s.lk n with asked := none })) ∧
    (1 < s.ps n → s.lctl n LNK_CTL.ENERGY_DET ≠ 0 → s.lctl n LNK_CTL.RETIRE = 0 → s.lctl n LNK_CTL.PWR_REQ = 2 →
      s.Unwatched (6403 + 4 * n) → s.LinkGives n (.wakeSeen n) (s.pulse (6403 + 4 * n))) ∧
    ((s.lctl n LNK_CTL.ENERGY_DET = 0 ∨ s.lctl n LNK_CTL.RETIRE = 1) → s.LinkGives n (.wakeSeen n) s) ∧
    ((s.lk n).waking = true → s.ps n = 1 → (∀ v, v < 8 → s.has (LNK_VC.adr n v) LNK_VC.PEND = false) →
      s.LinkGives n (.wakeComplete n) ((s.setPs n 0).updLk n fun l => { l with waking := false })) ∧
    ((s.lk n).waking = false → s.LinkGives n (.wakeComplete n) s) ∧
    s.LinkGives n (.pwrReq n 3) s ∧
    (s.ps n = 1 → (s.lk n).waking = false → ∃ u : State, s.LinkGives n (.pwrReq n 0) u ∧ u.lctl n LNK_CTL.PWR_REQ = 0 ∧
      (u.lk n).waking = true ∧ u.out = s.out ++ [.wakePattern n]) ∧
    (s.quietReady n = true → (s.lk n).asked = none → (s.lk n).farRetire = false → s.lctl n LNK_CTL.RETIRE = 0 →
      s.lctl n LNK_CTL.ENABLE = 1 → s.power.goingOff.contains (296 + n / 36) = false → s.fld PWR_DEV_STAT.adr PWR_DEV_STAT.STATE ≠ 3 →
      ∃ u : State, s.LinkGives n (.pwrReq n 1) u ∧ u.lctl n LNK_CTL.PWR_REQ = 1 ∧ (u.lk n).asked = some (0x20, 1)) ∧
    (s.quietReady n = true → (s.lk n).asked = none → (s.lk n).farRetire = false → s.lctl n LNK_CTL.RETIRE = 0 →
      ∃ u : State, s.LinkGives n (.pwrReq n 2) u ∧ u.lctl n LNK_CTL.PWR_REQ = 2 ∧ (u.lk n).asked = some (0x30, 1)) ∧
    (s.quietReady n = true → (s.lk n).asked = none → (s.lk n).farRetire = false → s.lctl n LNK_CTL.RETIRE = 0 →
      ∃ u : State, s.LinkGives n (.linkEnable n false) u ∧ u.lctl n LNK_CTL.ENABLE = 0 ∧ (u.lk n).asked = some (0x30, 1)) ∧
    (s.ps n = 2 → s.dom (152 + n) = 0 → s.lctl n LNK_CTL.RETIRE = 0 → s.lctl n LNK_CTL.PWR_REQ ≠ 2 →
      s.lctl n LNK_CTL.TEST = 0 → s.isOn (296 + n / 36) = true →
      ∃ u : State, s.LinkGives n (.linkEnable n true) u ∧ u.lctl n LNK_CTL.ENABLE = 1 ∧ u.dom (152 + n) = 1 ∧ u.ts n = 1 ∧ u.ps n = 0)

/-- O45. R296, R323, R324, R326 and R62's pulse crossing. -/
def Obligations.LinkHealthAndRetirement : Prop :=
  ∀ (s : State) (n : Nat), n < 144 →
    (∀ c : Codeword, s.LinkActive n → c.fec = .corrected → c.sync = 0x5A#8 → (s.lk n).cwSeq = none →
      s.LinkGives n (.codewordReceive n c)
        ((s.setLk n { s.lk n with cwBad := 0, cwSeq := some c.seq.toNat, winUncorr := (s.lk n).winUncorr + 0 }).satF
          (LNK_ERRCNT.adr n) LNK_ERRCNT.FEC_CORR 1)) ∧
    (∀ c : Codeword, s.LinkActive n → c.fec = .clean → c.sync ≠ 0x5A#8 → 3 ≤ (s.lk n).cwBad → s.lctl n LNK_CTL.ENABLE = 1 →
      s.lctl n LNK_CTL.PWR_REQ ≠ 2 → s.lctl n LNK_CTL.RETIRE = 0 → (s.lk n).farRetire = false →
      ∃ u : State, s.LinkGives n (.codewordReceive n c) u ∧ u.ts n = 2 ∧ (u.lk n).full = false) ∧
    (let bad := (s.has (LNK_HEALTH.adr n) LNK_HEALTH.UNCORR_MAX = true ∧ s.fld (LNK_HEALTH.adr n) LNK_HEALTH.UNCORR_MAX ≤ (s.lk n).winUncorr) ∨
        (s.has (LNK_HEALTH.adr n) LNK_HEALTH.RETRAIN_MAX = true ∧ s.fld (LNK_HEALTH.adr n) LNK_HEALTH.RETRAIN_MAX ≤ (s.lk n).winRetrain)
     ∃ u : State, u = s.setLk n { s.lk n with winUncorr := 0, winRetrain := 0 } ∧
      (bad → s.LinkGives n (.healthWindowExpiry n) ((u.setF (LNK_EVT.adr n) LNK_EVT.RETIRE_CAND 1).pulse (6402 + 4 * n))) ∧
      (¬ bad → s.LinkGives n (.healthWindowExpiry n) u)) ∧
    (s.ts n = 5 → s.lctl n LNK_CTL.RETIRE = 0 →
      ∃ u : State, s.LinkGives n (.linkRetireCmd n true) u ∧ u.lctl n LNK_CTL.RETIRE = 1 ∧ (u.lk n).retiring = true ∧ u.out = s.out ∧
        ((s.lk n).replay = [] → (s.lk n).txq = [] → (s.lk n).farRetire = false → ((u.linkSettle n).lk n).retiring = false ∧
          ((u.linkSettle n).lk n).asked = some (0x50, 1) ∧ ∃ f, (u.linkSettle n).out = s.out ++ [.flit n f])) ∧
    (s.lctl n LNK_CTL.RETIRE = 0 → ∃ u : State, s.LinkGives n (.linkRetireCmd n false) u ∧ u.lctl n LNK_CTL.RETIRE = 0 ∧ u.lk n = s.lk n) ∧
    (∀ exp, s.NoneAcked n exp → (s.lk n).asked = some (0x50, 1) →
      ∃ u : State, s.LinkGives n (.retire n exp) u ∧ u.ts n = 7 ∧ (u.lk n).asked = none ∧ (u.lk n).replay = []) ∧
    (∀ exp, s.NoneAcked n exp → (s.lk n).asked = none → s.ts n = 5 → (s.lk n).farRetire = false → s.Unwatched (6402 + 4 * n) →
      ∃ u : State, s.LinkGives n (.retire n exp) u ∧ u.has (LNK_EVT.adr n) LNK_EVT.FAR_RETIRED = true ∧ (u.lk n).farRetire = true ∧
        ((s.lk n).replay = [] → (s.lk n).txq = [] → (s.lk n).retiring = false → s.wantOff n = false →
          (u.linkSettle n).ts n = 6 ∧ ∃ f, .flit n f ∈ (u.linkSettle n).out)) ∧
    ((s.lk n).retiring = true → s.LinkGives n (.retireWaitExpiry n) ((s.setLk n { s.lk n with retiring := false }).askLctl n 0x50 [])) ∧
    ((s.lk n).retiring = false → s.LinkGives n (.retireWaitExpiry n) s) ∧
    (∀ m : BitVec 3, 4 ≤ m.toNat → s.LinkGives n (.linkTest n m) s) ∧
    (∀ m : BitVec 3, m.toNat < 4 → m ≠ 0 → s.ps n ≠ 2 → s.lctl n LNK_CTL.RETIRE = 0 → ∃ u : State, s.LinkGives n (.linkTest n m) u ∧ u.ts n = 8 ∧ u.lctl n LNK_CTL.TEST = m.toNat) ∧
    ∀ i, i < 4 → (s.xing (.slice i) 2).counter < 15 → s.xState (.slice i) 2 = 1 →
      exec (.pllLockLoss i) s = .next (s.putXing (.slice i) 2 { s.xing (.slice i) 2 with counter := (s.xing (.slice i) 2).counter + 1 })

/-- O46. R343, R347 and R349. How a command of several line parts is cut, and which slice answers, are the model's functions
`parts` and `replySlice` (R225, R331); reading the buffers is `readPkt` (R244). -/
def Obligations.RemoteRequestsAtTarget : Prop :=
  ∀ (s : State) (i : Nat) (p : Packet), i < 4 →
    (s.isOn (296 + i) = false → ∀ row ∈ [Instr.put i p, .get i p, .amo i p, .ctrl i p, .qmsg i p], exec row s = .next s) ∧
    (s.isOn (296 + i) = true →
      (s.takeIn i p = match s.rtWait.find? (fun r => r.slice == i && r.p == p) with
        | none => (s, some p)
        | some r => ({ s with rtWait := s.rtWait.erase r } : State).readPkt i r) ∧
      (∀ u, s.takeIn i p = (u, none) → ∀ row ∈ [Instr.put i p, .get i p, .amo i p, .ctrl i p, .qmsg i p], exec row s = .next u) ∧
      ∀ (u : State) (x : Packet), s.takeIn i p = (u, some x) →
      let no (v : State) : Host.Outcome State Fault Refusal :=
        .next ((((v.satF (RT_LOSS.adr i) RT_LOSS.FILTERED 1).setF (RT_EVT.adr i) RT_EVT.FILTERED 1).event (7458 + 16 * i)).inject
          i (responseTo x 0x0C [] []))
      let here (v : State) (k : Nat) : Host.Outcome State Fault Refusal :=
        .next (v.inject (u.replySlice i x.addr x.src) (responseTo x k [] []))
      (u.accepts x = false ∨ 2 ^ 40 ≤ x.addr → ∀ row ∈ [Instr.put i p, .get i p, .amo i p, .ctrl i p, .qmsg i p],
        exec row s = no u) ∧
      (u.accepts x = true → x.addr < 2 ^ 40 →
        (memAddr x.addr = false ∨ memAddr (x.addr + x.len - 1) = false → exec (.put i p) s = no u ∧ exec (.get i p) s = no u) ∧
        (memAddr x.addr = true → memAddr (x.addr + x.len - 1) = true →
          (∀ (v : State) (a : Ans) (bs : List Byte) (pz : List Bool), u.writeAll (pktWho x) true x.addr x.data x.mask = ⟨v, a, bs, pz⟩ →
            (a = .ok → exec (.put i p) s = here v 0x00) ∧ (a = .off → exec (.put i p) s = here v 0x0A) ∧
            (a = .held → exec (.put i p) s = .next { v with rtWait := v.rtWait ++ [RtPkt.new i 0 x] }) ∧
            (a ≠ .ok → a ≠ .off → a ≠ .held → exec (.put i p) s = no v)) ∧
          (∀ (v : State) (a : Ans) (bs : List Byte) (pz : List Bool), u.readAll (pktWho x) true (parts x.addr x.len) = ⟨v, a, bs, pz⟩ →
            (a = .ok → exec (.get i p) s = .next (v.inject (u.replySlice i x.addr x.src)
              (responseTo x 0x00 bs (if pz = [] then List.replicate (maskBits 3 x.addr x.len) false else pz)))) ∧
            (a = .off → exec (.get i p) s = here v 0x0A) ∧
            (a = .held → exec (.get i p) s = .next { v with rtWait := v.rtWait ++ [RtPkt.new i 0 x] }) ∧
            (a ≠ .ok → a ≠ .off → a ≠ .held → exec (.get i p) s = no v))) ∧
        (0x8020000000 ≤ x.addr ∨ x.addr % 8 ≠ 0 ∨ 3 ≤ bytesAt x.body 8 1 → exec (.amo i p) s = no u) ∧
        (x.addr < 0x8020000000 → x.addr % 8 = 0 → ∀ (o : Amo) (v : State) (a : Ans) (w : PW), bytesAt x.body 8 1 = o.code →
          u.memAmo (pktWho x) o x.addr ⟨BitVec.ofNat 64 (bytesAt x.data 0 8), x.mask.getD 0 false || x.mask.getD 1 false⟩
            ⟨BitVec.ofNat 64 (bytesAt x.data 8 8), x.mask.getD 2 false || x.mask.getD 3 false⟩ = (v, a, w) →
          (a = .ok → exec (.amo i p) s = .next (v.inject (u.replySlice i x.addr x.src)
            (responseTo x 0x00 (toBytes 8 w.val.toNat) [w.poison, w.poison]))) ∧
          (a = .off → exec (.amo i p) s = here v 0x0A) ∧
          (a = .held → exec (.amo i p) s = .next { v with rtWait := v.rtWait ++ [RtPkt.new i 0 x] }) ∧
          (a ≠ .ok → a ≠ .off → a ≠ .held → exec (.amo i p) s = no v)) ∧
        (∀ wr : Bool, nbit 0 (bytesAt x.body 8 1) = wr →
          (u.ctrlAdmits x.src wr = false ∨ regionOf (pktWho x) x.addr ≠ .ctrl ∨ x.addr % 8 ≠ 0 ∨ wr = true ∧ true ∈ x.mask →
            exec (.ctrl i p) s = no u) ∧
          (u.ctrlAdmits x.src wr = true → regionOf (pktWho x) x.addr = .ctrl → x.addr % 8 = 0 →
            (wr = true → true ∉ x.mask → ∀ v a, u.ctrlWrite (pktWho x) x.addr ⟨BitVec.ofNat 64 (bytesAt x.data 0 8), false⟩ = (v, a) →
              (a = .ok → exec (.ctrl i p) s = .next (v.inject i (responseTo x 0x00 [] []))) ∧
              (a = .off → exec (.ctrl i p) s = .next (v.inject i (responseTo x 0x0A [] []))) ∧
              (a = .held → exec (.ctrl i p) s = .next { v with rtWait := v.rtWait ++ [RtPkt.new i 0 x] }) ∧
              (a ≠ .ok → a ≠ .off → a ≠ .held → exec (.ctrl i p) s = no v)) ∧
            (wr = false → ∀ v a w, u.ctrlRead (pktWho x) x.addr = (v, a, w) →
              (a = .ok → exec (.ctrl i p) s =
                .next (v.inject i (responseTo x 0x00 (toBytes 8 w.val.toNat) [w.poison, w.poison]))) ∧
              (a = .off → exec (.ctrl i p) s = .next (v.inject i (responseTo x 0x0A [] []))) ∧
              (a = .held → exec (.ctrl i p) s = .next { v with rtWait := v.rtWait ++ [RtPkt.new i 0 x] }) ∧
              (a ≠ .ok → a ≠ .off → a ≠ .held → exec (.ctrl i p) s = no v)))) ∧
        (x.addr < 0xA000000000 ∨ 0xA000800000 ≤ x.addr ∨ 32 ≤ x.addr / 256 % 256 → exec (.qmsg i p) s = no u) ∧
        (∀ (t q : Nat) (ws : List PW), t < 128 → q < 32 → 0xA000000000 + t * 65536 + q * 256 ≤ x.addr →
          x.addr < 0xA000000000 + t * 65536 + q * 256 + 256 → ws = qmsgWords x → ∀ (v : State) (g : Option Ans),
          u.enter (pktWho x) true x.addr (match u.physTile t with
            | some k => u.fabricGates (pktWho x) (k / 17) (some k)
            | none => []) = (v, g) →
          (g = some .held → exec (.qmsg i p) s = .next { v with rtWait := v.rtWait ++ [RtPkt.new i 4 x] }) ∧
          (g = some .off → exec (.qmsg i p) s =
            .next (v.inject (v.replySlice i x.addr x.src) (responseTo x 0x0A [] []))) ∧
          (g = none →
            (v.qgate t = .absent → exec (.qmsg i p) s = no v) ∧
            (∀ k, v.qgate t = .off k →
              exec (.qmsg i p) s = .next (v.inject (v.replySlice i x.addr x.src) (responseTo x 0x0A [] []))) ∧
            (∀ k, v.qgate t = .sleeping k → exec (.qmsg i p) s =
              .next { v.wakeTile k 2 0 with rtWait := (v.wakeTile k 2 0).rtWait ++ [RtPkt.new i 4 x] }) ∧
            ∀ (k j : Nat), v.qgate t = .run k → j = v.replySlice i x.addr x.src →
              (x.oversize = true → exec (.qmsg i p) s = .next ((v.setF (Q_FLAGS.adr k q) Q_FLAGS.OVERSIZE 1).inject j (responseTo x 0x00 [] []))) ∧
              (x.oversize = false →
                ((∀ h ∈ v.qholds, h.ptile = k → h.queue ≠ q) → (v.queue k q).prod = .idle → (∀ w ∈ ws, w.poison = false) →
                  ws.length ≤ (v.queue k q).free →
                  exec (.qmsg i p) s = .next ((v.commitPacket k q ws).inject j (responseTo x 0x00 [] []))) ∧
                ((∀ h ∈ v.qholds, h.ptile = k → h.queue ≠ q) → (v.queue k q).prod = .idle → (∃ w ∈ ws, w.poison = true) →
                  exec (.qmsg i p) s = .next (((v.rewind k q .idle (pktWho x)).setF (Q_FLAGS.adr k q) Q_FLAGS.BAD 1).inject
                    j (responseTo x 0x00 [] []))) ∧
                (((∃ h ∈ v.qholds, h.ptile = k ∧ h.queue = q) ∨ (v.queue k q).prod ≠ .idle ∨
                    (∀ w ∈ ws, w.poison = false) ∧ (v.queue k q).free < ws.length) →
                  ((v.heldMsgs k).length < 4 → exec (.qmsg i p) s =
                    .next ((({ v with qholds := v.qholds ++ [⟨k, q, pktWho x, ws⟩] } : State).setF
                      (QHOLD.adr k) QHOLD.HELD ((v.heldMsgs k).length + 1)).inject j (responseTo x 0x00 [] []))) ∧
                  (4 ≤ (v.heldMsgs k).length → exec (.qmsg i p) s =
                    .next ((v.satF (QHOLD.adr k) QHOLD.RETRIES 1).inject j (responseTo x 0x01 [] []))))))))) ∧
    (∀ t q k : Nat, t < 128 → q < 32 → s.qgate t = .run k →
      ((∀ h ∈ s.qholds, h.ptile = k → h.queue ≠ q) → exec (.qmsgHoldDeliver t q) s = .next s) ∧
      ∀ h, (s.heldMsgs k).find? (fun h => h.queue == q) = some h →
        ((s.queue k q).prod = .idle → (∀ w ∈ h.words, w.poison = false) → h.words.length ≤ (s.queue k q).free →
          exec (.qmsgHoldDeliver t q) s = .next ((({ s with qholds := s.qholds.erase h } : State).showHold k).commitPacket k q h.words)) ∧
        ((s.queue k q).prod = .idle → (∃ w ∈ h.words, w.poison = true) →
          exec (.qmsgHoldDeliver t q) s = .next (((({ s with qholds := s.qholds.erase h } : State).showHold k).rewind
            k q .idle h.owner).setF (Q_FLAGS.adr k q) Q_FLAGS.BAD 1)) ∧
        ((s.queue k q).prod ≠ .idle ∨ (∀ w ∈ h.words, w.poison = false) ∧ (s.queue k q).free < h.words.length →
          exec (.qmsgHoldDeliver t q) s = .next s)) ∧
    s.inject i (responseTo p 0 [] []) = { s with rtWait := s.rtWait ++ [RtPkt.new i (injectVc (responseTo p 0 [] []))
      { responseTo p 0 [] [] with src := s.fld RT_DEVICE.adr RT_DEVICE.DEVICE, epb := s.has RT_EPOCH.adr RT_EPOCH.INJ_BANK,
                                  hops := 0 }] }

/-- O47. R335 and R338 to R340; `cred` counts the credits that no packet already given to the link takes (assumption log entry
71). A packet is read out of the slice's buffers as it leaves them (R244). -/
def Obligations.PacketRouting : Prop :=
  ∀ (s : State) (i : Nat), i < 4 →
    (i ∈ s.epochWait → s.oldPkts i = 0 → exec (.oldPktsDrained i) s =
      .next (({ s with epochWait := s.epochWait.filter fun j => j ≠ i } : State).event (7462 + 16 * i))) ∧
    ((i ∉ s.epochWait ∨ s.oldPkts i ≠ 0) → exec (.oldPktsDrained i) s = .next s) ∧
    ∀ (vc : Nat) (p : Packet) (r : RtPkt) (u : State), vc < 8 →
      r = (s.rtWait.find? (fun r => r.slice == i && r.vc == vc && r.p == p)).getD (RtPkt.new i vc p) →
      u = { s with rtWait := s.rtWait.erase r } →
      (s.isOn (296 + i) = false → exec (.packetRoute i vc p) s = .next s) ∧
      (s.isOn (296 + i) = true → p.dest = s.ownDev → s.devValid = true →
        exec (.packetRoute i vc p) s = .next { u with rtWait := u.rtWait ++ [r] }) ∧
      (s.isOn (296 + i) = true → (p.dest ≠ s.ownDev ∨ s.devValid = false) →
        let fin (t : State) : Host.Outcome State Fault Refusal := .next (if r.waited then t.tick else t)
        let wait : State := { u with rtWait := u.rtWait ++ [{ r with waited := true }] }
        let engine := p.op = 6 ∨ p.op = 7 ∨ p.op = 8 ∨ s.devValid = false ∧ p.hops = 0 ∧ p.src = s.ownDev
        let best (c : List Nat) (n : Nat) : Prop := ∃ l q, c = l ++ n :: q ∧ u.cred n vc ≠ 0 ∧
          (∀ m ∈ l, u.cred m vc < u.cred n vc) ∧ (∀ m ∈ q, u.cred m vc ≤ u.cred n vc)
        let active := (u.usable i p).filter fun n => u.ps n == 0
        (engine ∨ u.usable i p = [] →
          (∀ v, u.readPkt i r = (v, none) → exec (.packetRoute i vc p) s = fin v) ∧
          ∀ v x w, u.readPkt i r = (v, some x) →
            w = ((v.satF (RT_DISC.adr i) RT_DISC.NOROUTE 1).setF (RT_EVT.adr i) RT_EVT.NOROUTE 1).event (7456 + 16 * i) →
            (asksAnswer x = true → exec (.packetRoute i vc p) s = fin (w.inject i (responseTo x 0x0B [] []))) ∧
            (asksAnswer x = false → exec (.packetRoute i vc p) s = fin w)) ∧
        (¬ engine → u.usable i p ≠ [] → p.hops = 63 →
          (∀ v, u.readPkt i r = (v, none) → exec (.packetRoute i vc p) s = fin v) ∧
          ∀ v x w, u.readPkt i r = (v, some x) →
            w = ((v.satF (RT_DISC.adr i) RT_DISC.HOPLIMIT 1).setF (RT_EVT.adr i) RT_EVT.HOPLIMIT 1).event (7456 + 16 * i) →
            (asksAnswer x = true → exec (.packetRoute i vc p) s = fin (w.inject i (responseTo x 0x0B [] []))) ∧
            (asksAnswer x = false → exec (.packetRoute i vc p) s = fin w)) ∧
        (¬ engine → p.hops ≠ 63 → ∀ e c, u.usable i p = e :: c → ∀ (out : Nat → Nat → Host.Outcome State Fault Refusal),
          (∀ n m, out n m = match u.readPkt i r with
            | (v, none) => fin v
            | (v, some x) => fin (v.giveLink n m { x with hops := x.hops + 1 } { r with p := x, flips := [] })) →
          (vc = 0 ∨ vc = 2 →
            (r.waited = false ∨ u.cred e (vc + 1) = 0 →
              ((∃ n ∈ active, u.cred n vc ≠ 0) → ∃ n, exec (.packetRoute i vc p) s = out n vc ∧ best active n) ∧
              ((∀ n ∈ active, u.cred n vc = 0) → (∃ n ∈ u.usable i p, u.cred n vc ≠ 0) →
                ∃ n, exec (.packetRoute i vc p) s = out n vc ∧ best (u.usable i p) n)) ∧
            (r.waited = true → u.cred e (vc + 1) ≠ 0 → (∃ n ∈ u.usable i p, u.cred n vc ≠ 0) →
              exec (.packetRoute i vc p) s = out e (vc + 1) ∨
              ∃ n, exec (.packetRoute i vc p) s = out n vc ∧ (best active n ∨ (∀ n ∈ active, u.cred n vc = 0) ∧ best (u.usable i p) n)) ∧
            ((∀ n ∈ u.usable i p, u.cred n vc = 0) →
              (u.cred e (vc + 1) ≠ 0 → exec (.packetRoute i vc p) s = out e (vc + 1)) ∧
              (u.cred e (vc + 1) = 0 → exec (.packetRoute i vc p) s = fin wait))) ∧
          (vc ≠ 0 → vc ≠ 2 →
            (u.cred e vc ≠ 0 → exec (.packetRoute i vc p) s = out e vc) ∧
            (u.cred e vc = 0 → exec (.packetRoute i vc p) s = fin wait)))) ∧
      (r.flips = [] → u.readPkt i r = (u, some p))

/-- O48. R345 and R348 to R350; after a response or a timeout the cores that waited go on (assumption log entry 26). -/
def Obligations.ResponsesAndGather : Prop :=
  (∀ (s : State) (i : Nat), i < 4 →
    (∀ p : Packet,
      (s.isOn (296 + i) = false → exec (.responseReceive i p) s = .next s.goAll) ∧
      (s.isOn (296 + i) = true → (∀ u, s.takeIn i p = (u, none) → exec (.responseReceive i p) s = .next u.goAll) ∧
        ∀ (u : State) (x : Packet), s.takeIn i p = (u, some x) →
        (u.outst.find? (fun o => o.matches x) = none → exec (.responseReceive i p) s =
          .next ((((u.satF (RT_DISC.adr i) RT_DISC.LATE_RESP 1).setF (RT_EVT.adr i) RT_EVT.LATE_RESP 1).event (7457 + 16 * i)).goAll)) ∧
        ∀ o, u.outst.find? (fun o => o.matches x) = some o →
          (x.status = 1 → exec (.responseReceive i p) s =
            .next (({ u with outst := u.outst.map fun x => if x = o then { x with retry := true } else x } : State).goAll)) ∧
          (x.status ≠ 1 → o.kind = .load → exec (.responseReceive i p) s =
            .next ((({ u with outst := u.outst.erase o } : State).updCore o.core
              fun k => { k with resp := some ⟨x.status, x.data, x.mask⟩ }).goAll)) ∧
          (x.status = 0 → o.kind ≠ .load → exec (.responseReceive i p) s = .next (({ u with outst := u.outst.erase o } : State).goAll)) ∧
          (x.status = 0x0A ∨ x.status = 0x0B → o.kind ≠ .load → exec (.responseReceive i p) s =
            .next ((({ u with outst := u.outst.erase o } : State).pstoreFail o.core o.gaddr x.status).goAll)) ∧
          (x.status ≠ 0 → x.status ≠ 1 → x.status ≠ 0x0A → x.status ≠ 0x0B → o.kind ≠ .load → exec (.responseReceive i p) s =
            .next ((({ u with outst := u.outst.erase o } : State).pstoreFail o.core o.gaddr 0x0C).goAll)))) ∧
    (∀ tag : Nat,
      (s.outst.find? (fun o => o.p.tag == tag) = none → exec (.reqTimeout tag) s = .next s.goAll) ∧
      (∀ (o : Outst) (u : State), s.outst.find? (fun o => o.p.tag == tag) = some o →
        u = ((s.satF (RT_LOSS.adr o.slice) RT_LOSS.TIMEOUTS 1).setF (RT_EVT.adr o.slice) RT_EVT.TIMEOUT 1).event (7457 + 16 * o.slice) →
        (o.kind = .load → exec (.reqTimeout tag) s =
          .next ((({ u with outst := u.outst.erase o } : State).updCore o.core fun k => { k with resp := some ⟨0x0C, [], []⟩ }).goAll)) ∧
        (o.kind ≠ .load → exec (.reqTimeout tag) s =
          .next ((({ u with outst := u.outst.erase o } : State).pstoreFail o.core o.gaddr 0x0C).goAll))) ∧
      (s.outst.find? (fun o => o.p.tag == tag && o.retry) = none → exec (.retryDelayExpiry tag) s = .next s) ∧
      ∀ o, s.outst.find? (fun o => o.p.tag == tag && o.retry) = some o →
        (∀ j, s.coreSlice o.core o.p.dest = some j → exec (.retryDelayExpiry tag) s =
          .next (({ s with outst := s.outst.map fun x => if x = o then { x with retry := false, slice := j } else x } : State).inject j o.p)) ∧
        (s.coreSlice o.core o.p.dest = none →
          (o.kind = .load → exec (.retryDelayExpiry tag) s = .next (({ s with outst := s.outst.erase o } : State).updCore o.core
            fun k => { k with resp := some ⟨0x0B, [], []⟩ })) ∧
          (o.kind ≠ .load → exec (.retryDelayExpiry tag) s =
            .next (({ s with outst := s.outst.erase o } : State).pstoreFail o.core o.gaddr 0x0B))))) ∧
  ∀ (s : State) (c device t q ga : Nat) (w : PW), coreOk c = true → device < 65536 → t < 128 → q < 32 →
    ga = device * 2 ^ 40 + 0xA000000000 + t * 65536 + q * 256 →
    let busy := s.qmsgBusy c device = true ∨ s.outstFull c = true ∨ ∃ g ∈ s.ownFabric c, g.2 = .transition
    (((s.core c).gstate = 0 ∧ (s.core c).gather = [] ∨ (s.core c).gstate = 1 ∧ (s.core c).gaddr = ga ∧ (s.core c).gather.length < 64) →
      exec (.gatherQpush c device t q w) s = .next (s.setGather c ((s.core c).gather ++ [w]) 1 ga) ∧
      (¬ busy → exec (.gatherQpushLast c device t q w) s =
        .next ((s.setGather c [] 0 0).sendGather c ga 8 ((s.core c).gather ++ [w]))) ∧
      (busy → exec (.gatherQpushLast c device t q w) s = .next s)) ∧
    ((s.core c).gstate = 1 → (s.core c).gaddr = ga → (s.core c).gather.length = 64 →
      (busy → exec (.gatherQpush c device t q w) s = .next s ∧ exec (.gatherQpushLast c device t q w) s = .next s) ∧
      (¬ busy →
        exec (.gatherQpush c device t q w) s = .next (((s.gatherDrop c 65).setGather c [] 2 ga).sendGather c ga 0 []) ∧
        exec (.gatherQpushLast c device t q w) s = .next (((s.gatherDrop c 65).setGather c [] 0 0).sendGather c ga 8 []))) ∧
    ((s.core c).gstate = 2 → (s.core c).gaddr = ga → (s.core c).gather = [] →
      exec (.gatherQpush c device t q w) s = .next (s.gatherDrop c 1) ∧
      exec (.gatherQpushLast c device t q w) s = .next ((s.gatherDrop c 1).setGather c [] 0 0)) ∧
    ((s.core c).gstate ≠ 0 → (s.core c).gaddr = ga → exec (.gatherQabort c device t q) s =
      .next ((s.gatherDrop c (s.core c).gather.length).setGather c [] 0 0)) ∧
    ((s.core c).gstate = 0 → exec (.gatherQabort c device t q) s = .next s) ∧
    ((s.core c).gstate ≠ 0 → (s.core c).gaddr ≠ ga → ∀ u,
      u = ((s.gatherDrop c (s.core c).gather.length).setGather c [] 0 0).pstoreFail c (s.core c).gaddr 0x0C →
      exec (.gatherQpush c device t q w) s = .next (u.setGather c [w] 1 ga) ∧
      (busy → exec (.gatherQpushLast c device t q w) s = .next s) ∧
      (¬ busy → exec (.gatherQpushLast c device t q w) s = .next ((u.setGather c [] 0 0).sendGather c ga 8 [w])) ∧
      exec (.gatherQabort c device t q) s = .next u) ∧
    (∀ (n k : Nat), s.coreTile c = some k → s.gatherDrop c n = s.satF (QGATHER.adr k (c % 16)) QGATHER.DROPPED n) ∧
    (∀ (ws : List PW) (st a : Nat),
      ((s.setGather c ws st a).core c).gather = ws ∧ ((s.setGather c ws st a).core c).gstate = st ∧ ((s.setGather c ws st a).core c).gaddr = a ∧
      (st < 4 → ws.length < 128 → ∀ k, s.coreTile c = some k →
        (s.setGather c ws st a).fld (QGATHER.adr k (c % 16)) QGATHER.STATE = st ∧
        (s.setGather c ws st a).fld (QGATHER.adr k (c % 16)) QGATHER.WORDS = ws.length)) ∧
    ∀ (ws : List PW) (off : Nat), off < 256 → ws.length ≤ 64 →
      ((∃ g ∈ s.ownFabric c, g.2 = .off) → s.sendGather c ga off ws = s.pstoreFail c (ga + off) 0x0A) ∧
      ((∀ g ∈ s.ownFabric c, g.2 ≠ .off) →
        (s.coreSlice c device = none → s.sendGather c ga off ws = s.pstoreFail c (ga + off) 0x0B) ∧
        ∀ i, s.coreSlice c device = some i →
          ∃ o : Outst, s.sendGather c ga off ws =
            { s with rtWait := s.rtWait ++ [RtPkt.new i 4 o.p], outst := s.outst ++ [o], nextTag := (s.nextTag + 1) % 65536 } ∧
            o.core = c ∧ o.kind = .qmsg ∧ o.gaddr = ga + off ∧ o.slice = i ∧ o.p.op = 5 ∧ o.p.dest = device ∧ o.p.srcid = c ∧
            o.p.tag = s.nextTag ∧ o.p.addr = ga % 2 ^ 40 ∧ o.p.len = 8 * ws.length ∧ o.p.oversize = ws.isEmpty ∧ qmsgWords o.p = ws)

/-- O49. R357, R358, R432, R433 and R435. The stamps are the commands' operands. That a period passes when no command waits, the
rounding of what a slew adds and of the halves of an odd offset or delay (down) are the model's choices (assumption log
entries 4 and 41). -/
def Obligations.TimeBaseAndExchange : Prop :=
  (∀ (s : State) (n i d m : Nat) (left : Int), s.isOn 302 = true → left = (s.rd SLEW_LEFT.adr).toInt →
    i = s.fld TB_INCR.adr TB_INCR.INCR → d = i * s.fld TB_CTL.adr TB_CTL.SLEW_PPM / 1000000 → m = s.clock.slewed + d →
    n = s.clock.gt.toNat * 2 ^ 32 + s.clock.frac.toNat → ∃ v, s.refclk = v.alarmCheck s.clock.gt ∧
    (left = 0 → v = { s with clock := { s.clock with gt := BitVec.ofNat 64 ((n + i) / 2 ^ 32), frac := BitVec.ofNat 32 (n + i) } }) ∧
    (0 < left → v.clock.gt = BitVec.ofNat 64 ((n + (i + d)) / 2 ^ 32) ∧ v.clock.frac = BitVec.ofNat 32 (n + (i + d))) ∧
    (left < 0 → v.clock.gt = BitVec.ofNat 64 ((n + (i - d)) / 2 ^ 32) ∧ v.clock.frac = BitVec.ofNat 32 (n + (i - d))) ∧
    (left ≠ 0 → m / 2 ^ 32 < left.natAbs → v.clock.slewed = m % 2 ^ 32 ∧
      (v.rd SLEW_LEFT.adr).toInt = left - left.sign * (m / 2 ^ 32 : Nat)) ∧
    (left ≠ 0 → left.natAbs ≤ m / 2 ^ 32 → v.rd SLEW_LEFT.adr = 0 ∧ v.has TIME_STATUS.adr TIME_STATUS.SLEWING = false)) ∧
  (∀ s : State, s.power.aonGood = true → s.refclk.clock.phase + 32768 < 100000000 →
    s.clockTick = { s.refclk with clock := { s.refclk.clock with phase := s.refclk.clock.phase + 32768 } }) ∧
  (∀ (s : State) (old : Word),
    (s.clock.timeArmed = true → s.rd TIME_ALARM.adr ≠ BitVec.allOnes 64 → old.toNat < (s.rd TIME_ALARM.adr).toNat →
      (s.rd TIME_ALARM.adr).toNat ≤ s.clock.gt.toNat →
      s.alarmCheck old = ({ s with clock := { s.clock with timeArmed := false } } : State).pulse 7170) ∧
    (s.clock.timeArmed = false ∨ s.rd TIME_ALARM.adr = BitVec.allOnes 64 ∨ (s.rd TIME_ALARM.adr).toNat ≤ old.toNat ∨
      s.clock.gt.toNat < (s.rd TIME_ALARM.adr).toNat → s.alarmCheck old = s)) ∧
  (∀ (s : State) (x : Word),
    (s.isOn 302 = true → exec (.timeAdj x) s = .next (s.correct x)) ∧ (s.isOn 302 = false → exec (.timeAdj x) s = .next s) ∧
    ((s.fld TB_CTL.adr TB_CTL.STEP_MIN : Int) < x.toInt →
      s.correct x = (((((({ s with clock := { s.clock with gt := s.clock.gt + x, slewed := 0 } } : State).wr SLEW_LEFT.adr 0).setF
        TIME_STATUS.adr TIME_STATUS.SLEWING 0).setF TIME_STATUS.adr TIME_STATUS.STEPPED 1).setF TIME_STATUS.adr TIME_STATUS.VALID 1).pulse
          7169).alarmCheck s.clock.gt) ∧
    (x.toInt ≤ (s.fld TB_CTL.adr TB_CTL.STEP_MIN : Int) →
      s.correct x = (({ s with clock := { s.clock with slewed := 0 } } : State).wr SLEW_LEFT.adr x).setF TIME_STATUS.adr
        TIME_STATUS.SLEWING (if x = 0 then 0 else 1)) ∧
    (s.has TIME_STATUS.adr TIME_STATUS.INTERP = true →
      s.routerOffset x = ((s.setF TIME_STATUS.adr TIME_STATUS.INTERP 0).pulse 7168).correct x) ∧
    (s.has TIME_STATUS.adr TIME_STATUS.INTERP = false → s.routerOffset x = s.correct x)) ∧
  (∀ s : State, exec .slewEnd s = .next ((s.wr SLEW_LEFT.adr 0).setF TIME_STATUS.adr TIME_STATUS.SLEWING 0)) ∧
  (∀ (s : State) (p : BitVec 40), (s.isOn 302 = true → exec (.aonPeriodMeasure p) s = .next (s.setF AON_PERIOD.adr AON_PERIOD.PERIOD p.toNat)) ∧
    (s.isOn 302 = false → exec (.aonPeriodMeasure p) s = .next s)) ∧
  (∀ (s : State) (i : Bool), s.clock.internal = !i →
    (s.isOn 302 = true → exec (if i = true then .xtalAbsent else .xtalReturn) s =
      .next (((({ s with clock := { s.clock with internal := i, srcMoved := true } } : State).setF TIME_STATUS.adr TIME_STATUS.XTAL_ABSENT
        (if i = true then 1 else 0)).setF TIME_STATUS.adr TIME_STATUS.SRC_CHANGED 1).pulse 7171)) ∧
    (s.isOn 302 = false → exec (if i = true then .xtalAbsent else .xtalReturn) s =
      .next { s with clock := { s.clock with internal := i, srcMoved := true, srcChanged := true } }) ∧
    exec (if i = true then .xtalReturn else .xtalAbsent) s = .next s) ∧
  (∀ s : State,
    (s.isOn 302 = true → s.clock.timeArmed = true → s.clock.gt.toNat < (s.rd TIME_ALARM.adr).toNat →
      s.rd TIME_ALARM.adr ≠ BitVec.allOnes 64 → exec .timeAlarm s =
      .next (({ s with clock := { s.clock with gt := s.rd TIME_ALARM.adr, timeArmed := false } } : State).pulse 7170)) ∧
    (s.isOn 302 = false ∨ s.clock.timeArmed = false ∨ (s.rd TIME_ALARM.adr).toNat ≤ s.clock.gt.toNat ∨
      s.rd TIME_ALARM.adr = BitVec.allOnes 64 → exec .timeAlarm s = .next s)) ∧
  (∀ s : State,
    (s.clock.aonArmed = true → s.fld AON_ALARM.adr AON_ALARM.COUNT ≠ 0xFFFFFFFFFFFF → exec .aonAlarm s =
      .next (({ s with clock := { s.clock with aon := BitVec.ofNat 48 (s.fld AON_ALARM.adr AON_ALARM.COUNT), aonArmed := false } } :
        State).event 7041)) ∧
    ((s.clock.aonArmed = false ∨ s.fld AON_ALARM.adr AON_ALARM.COUNT = 0xFFFFFFFFFFFF) → exec .aonAlarm s = .next s)) ∧
  (∀ (s a b : State) (t1 : Word) (n : Nat), n = s.fld TSYNC_CTL.adr TSYNC_CTL.PARENT →
    ((s.has TSYNC_CTL.adr TSYNC_CTL.ENABLE = false ∨ s.has TSYNC_CTL.adr TSYNC_CTL.MASTER = true) →
      exec (.timeExchangeStart t1) s = .next s) ∧
    (s.has TSYNC_CTL.adr TSYNC_CTL.ENABLE = true → s.has TSYNC_CTL.adr TSYNC_CTL.MASTER = false →
      a = (if s.tsync.answered = true then s else s.satF TSYNC_STAT.adr TSYNC_STAT.MISSED 1) →
      (((3 ≤ a.fld TSYNC_STAT.adr TSYNC_STAT.MISSED ∨ a.linkUp n = false) ∧ a.has TSYNC_STAT.adr TSYNC_STAT.LOCKED = true ∧
          b = ((a.setF TSYNC_STAT.adr TSYNC_STAT.LOCKED 0).setF TSYNC_STAT.adr TSYNC_STAT.LOST 1).event 7521) ∨
        ((a.fld TSYNC_STAT.adr TSYNC_STAT.MISSED < 3 ∧ a.linkUp n = true ∨ a.has TSYNC_STAT.adr TSYNC_STAT.LOCKED = false) ∧ b = a)) →
      (b.linkUp n = true → b.devValid = true → ∃ t, exec (.timeExchangeStart t1) s = .next t ∧ b.AsksTime t n t1) ∧
      (b.linkUp n = true → b.devValid = false → exec (.timeExchangeStart t1) s =
        .next (((({ b with tsync := { b.tsync with seq := (b.tsync.seq + 1) % 65536, answered := false, t1 := t1 } } : State).satF
          (RT_DISC.adr (n / 36)) RT_DISC.NOROUTE 1).setF (RT_EVT.adr (n / 36)) RT_EVT.NOROUTE 1).event (7456 + 16 * (n / 36)))) ∧
      (b.linkUp n = false → exec (.timeExchangeStart t1) s =
        .next { b with tsync := { b.tsync with seq := (b.tsync.seq + 1) % 65536, answered := true, t1 := t1 } }))) ∧
  (∀ (s : State) (n : Nat) (p : Packet) (t2 t3 t4 : Word), n < 144 →
    (s.isOn (296 + n / 36) = false → exec (.timeReq n p t2 t3) s = .next s ∧ exec (.timeResp n p t4) s = .next s) ∧
    (s.isOn (296 + n / 36) = true → ∀ u, s.takeIn (n / 36) p = (u, none) →
      exec (.timeReq n p t2 t3) s = .next u ∧ exec (.timeResp n p t4) s = .next u)) ∧
  (∀ (s u : State) (n st nl : Nat) (p x : Packet) (t2 t3 : Word), n < 144 → s.isOn (296 + n / 36) = true → s.takeIn (n / 36) p = (u, some x) →
    ((u.has TSYNC_CTL.adr TSYNC_CTL.ENABLE = true ∧ u.has TSYNC_CTL.adr TSYNC_CTL.MASTER = true ∧ st = 0 ∧ nl = 0) ∨
     (u.has TSYNC_CTL.adr TSYNC_CTL.ENABLE = true ∧ u.has TSYNC_CTL.adr TSYNC_CTL.MASTER = false ∧
      u.has TSYNC_STAT.adr TSYNC_STAT.LOCKED = true ∧ st = u.fld TSYNC_STAT.adr TSYNC_STAT.STRATUM ∧ nl = 0) ∨
     (u.has TSYNC_CTL.adr TSYNC_CTL.ENABLE = true ∧ u.has TSYNC_CTL.adr TSYNC_CTL.MASTER = false ∧
      u.has TSYNC_STAT.adr TSYNC_STAT.LOCKED = false ∧ st = u.fld TSYNC_STAT.adr TSYNC_STAT.STRATUM ∧ nl = 1) ∨
     (u.has TSYNC_CTL.adr TSYNC_CTL.ENABLE = false ∧ st = u.fld TSYNC_STAT.adr TSYNC_STAT.STRATUM ∧ nl = 1)) →
    (u.linkUp n = true → u.devValid = true →
      ∃ r : Packet, exec (.timeReq n p t2 t3) s = .next (u.giveLink n 7 r (.new (n / 36) 7 r)) ∧ r.op = 7 ∧ r.resp = true ∧ r.dest = x.src ∧
        r.len = 0 ∧ r.hops = 1 ∧ bytesAt r.body 0 1 = 1 ∧ bytesAt r.body 1 1 = st ∧ bytesAt r.body 2 1 = nl ∧
        bytesAt r.body 4 2 = bytesAt x.body 4 2 ∧ bytesAt r.body 8 8 = bytesAt x.body 8 8 ∧ bytesAt r.body 16 8 = t2.toNat ∧
        bytesAt r.body 24 8 = t3.toNat) ∧
    (u.linkUp n = true → u.devValid = false → exec (.timeReq n p t2 t3) s =
      .next (((u.satF (RT_DISC.adr (n / 36)) RT_DISC.NOROUTE 1).setF (RT_EVT.adr (n / 36)) RT_EVT.NOROUTE 1).event (7456 + 16 * (n / 36)))) ∧
    (u.linkUp n = false → exec (.timeReq n p t2 t3) s = .next u)) ∧
  (∀ (s u v w : State) (n : Nat) (p x : Packet) (t4 : Word) (a off delay : Int), n < 144 → s.isOn (296 + n / 36) = true →
    s.takeIn (n / 36) p = (u, some x) →
    ((bytesAt x.body 4 2 ≠ u.tsync.seq ∨ u.tsync.answered = true) → exec (.timeResp n p t4) s = .next u) ∧
    (bytesAt x.body 4 2 = u.tsync.seq → u.tsync.answered = false →
      a = (BitVec.ofNat 16 (u.fld (TSYNC_ASYM.adr n) TSYNC_ASYM.ASYM)).toInt →
      off = (((bytesAt x.body 16 8 : Int) - bytesAt x.body 8 8) - ((t4.toNat : Int) - bytesAt x.body 24 8) - a) / 2 →
      delay = (((t4.toNat : Int) - bytesAt x.body 8 8) - ((bytesAt x.body 24 8 : Int) - bytesAt x.body 16 8)) / 2 →
      v = ((({ u with tsync := { u.tsync with answered := true } } : State).setF TSYNC_MEAS.adr TSYNC_MEAS.OFFSET
        ((max (-(2 ^ 31 - 1)) (min (2 ^ 31 - 1) off)) % 2 ^ 32).toNat).setF TSYNC_MEAS.adr TSYNC_MEAS.DELAY
          (delay % 2 ^ 32).toNat).setF TSYNC_STAT.adr TSYNC_STAT.MISSED 0 →
      (nbit 0 (bytesAt x.body 2 1) = true → exec (.timeResp n p t4) s = .next v) ∧
      (nbit 0 (bytesAt x.body 2 1) = false →
        w = (v.routerOffset (BitVec.ofInt 64 off)).setF TSYNC_STAT.adr TSYNC_STAT.STRATUM (min 255 (bytesAt x.body 1 1 + 1)) →
        (off.natAbs * 1000000000 ≤ 5 * 2 ^ 32 → w.tsync.good < 3 ∨ w.has TSYNC_STAT.adr TSYNC_STAT.LOCKED = true →
          exec (.timeResp n p t4) s = .next { w with tsync := { w.tsync with good := w.tsync.good + 1 } }) ∧
        (off.natAbs * 1000000000 ≤ 5 * 2 ^ 32 → 3 ≤ w.tsync.good → w.has TSYNC_STAT.adr TSYNC_STAT.LOCKED = false →
          exec (.timeResp n p t4) s = .next (((({ w with tsync := { w.tsync with good := w.tsync.good + 1 } } : State).setF
            TSYNC_STAT.adr TSYNC_STAT.LOCKED 1).setF TSYNC_STAT.adr TSYNC_STAT.GAINED 1).event 7520)) ∧
        (5 * 2 ^ 32 < off.natAbs * 1000000000 → off.natAbs * 1000000000 ≤ 50 * 2 ^ 32 →
          exec (.timeResp n p t4) s = .next { w with tsync := { w.tsync with good := 0 } }) ∧
        (50 * 2 ^ 32 < off.natAbs * 1000000000 →
          (w.has TSYNC_STAT.adr TSYNC_STAT.LOCKED = true →
            exec (.timeResp n p t4) s = .next (((({ w with tsync := { w.tsync with good := 0 } } : State).setF TSYNC_STAT.adr
              TSYNC_STAT.LOCKED 0).setF TSYNC_STAT.adr TSYNC_STAT.LOST 1).event 7521)) ∧
          (w.has TSYNC_STAT.adr TSYNC_STAT.LOCKED = false →
            exec (.timeResp n p t4) s = .next { w with tsync := { w.tsync with good := 0 } })))))

/-- O50. R351 to R356. The pieces a record is written in are the model's. -/
def Obligations.CollectiveContexts : Prop :=
  (∀ (s : State) (c : Nat) (v w : Word), c < 64 → s.isOn (296 + c / 16) = true → s.has (collCfg c) COLL_CFG.ENABLE = false →
    w = collCfgValue (fput COLL_CFG.ENABLE 1 v) →
    (s.RefusedCfg c w → exec (.collEnable c v) s =
      .next ((s.wr (collCfg c) (fput COLL_CFG.ENABLE 0 w)).setF (collStat c) COLL_STAT.STATE 4)) ∧
    (¬ s.RefusedCfg c w → exec (.collEnable c v) s =
      .next (((s.wr (collCfg c) w).setCollSt c CollSt.reset).setF (collStat c) COLL_STAT.STATE 1))) ∧
  (∀ (s : State) (c : Nat), c < 64 → s.isOn (296 + c / 16) = true → s.has (collCfg c) COLL_CFG.ENABLE = true →
    (∀ v, exec (.collEnable c v) s = .next s) ∧
    ((s.collState c ≠ 1 ∧ s.collState c ≠ 2 ∨ s.collState c = 1 ∧ (s.collSt c).locals = [] ∧ (s.collSt c).heard = []) →
      exec (.collDisable c) s =
        .next (((s.setF (collCfg c) COLL_CFG.ENABLE 0).setCollSt c CollSt.reset).setF (collStat c) COLL_STAT.STATE 0)) ∧
    ((s.collState c = 2 ∨ s.collState c = 1 ∧ ((s.collSt c).locals ≠ [] ∨ (s.collSt c).heard ≠ [])) → exec (.collDisable c) s =
      .next ((((s.collEnd c 2).setF (collCfg c) COLL_CFG.ENABLE 0).setCollSt c CollSt.reset).setF (collStat c) COLL_STAT.STATE 0))) ∧
  (∀ (s : State) (c : Nat), c < 64 → s.isOn (296 + c / 16) = false →
    exec (.collDisable c) s = .next s ∧ ∀ v, exec (.collEnable c v) s = .next s ∧ exec (.collSubmit c v) s = .next s) ∧
  (∀ (s u : State) (c code : Nat) (w : Word),
    u = (if s.has (collCfg c) COLL_CFG.ROOT = true then s else s.sendColl c (s.fld (collCfg c) COLL_CFG.PARENT) false true [] []) →
    w = BitVec.ofNat 64 (u.collSeq c * 2 ^ 48 + code * 2 ^ 8) →
    s.collEnd c code = ((u.collOwe c (u.collResult c + collLen (s.rd (collCfg c))) w).sendDown c true (toBytes 8 w.toNat)
      [false, false]).event (7392 + c)) ∧
  (∀ (s v : State) (c a : Nat) (w : Word),
    (s.deckleWrite true a (toBytes 8 w.toNat) [false, false] = (v, true) → s.collOwe c a w = v) ∧
    (s.deckleWrite true a (toBytes 8 w.toNat) [false, false] = (v, false) →
      s.collOwe c a w = { v with collOwed := v.collOwed ++ [(c, a, w)] })) ∧
  (∀ (s : State) (c q a : Nat) (v : Word) (k : CollSt), c < 64 → s.isOn (296 + c / 16) = true →
    q = fget COLL_SUBMIT.SEQ v → a = fget COLL_SUBMIT.ADDR v → k = s.collSt c →
    (s.collState c = 1 → q = s.collSeq c → k.locals.length < s.fld (collCfg c) COLL_CFG.NLOCAL →
      exec (.collSubmit c v) s = .next (s.setCollSt c { k with locals := k.locals ++ [a] })) ∧
    ((s.collState c = 1 ∨ s.collState c = 2) → q = (s.collSeq c + 1) % 65536 → k.ahead.length < s.fld (collCfg c) COLL_CFG.NLOCAL →
      exec (.collSubmit c v) s = .next (s.setCollSt c { k with ahead := k.ahead ++ [a] })) ∧
    ((s.collState c ≠ 1 ∧ s.collState c ≠ 2 ∨ s.collState c ≠ 1 ∧ q = s.collSeq c ∨ q ≠ s.collSeq c ∧ q ≠ (s.collSeq c + 1) % 65536 ∨
        q = s.collSeq c ∧ s.fld (collCfg c) COLL_CFG.NLOCAL ≤ k.locals.length ∨
        q = (s.collSeq c + 1) % 65536 ∧ s.fld (collCfg c) COLL_CFG.NLOCAL ≤ k.ahead.length) →
      exec (.collSubmit c v) s = .next (s.satF (collCnt c) COLL_CNT.REFUSED 1))) ∧
  (∀ (s : State) (n : Nat) (p : Packet), n < 144 →
    (s.isOn (296 + n / 36) = false → exec (.collUp n p) s = .next s ∧ exec (.collDown n p) s = .next s) ∧
    (s.isOn (296 + n / 36) = true → ∀ u, s.takeIn (n / 36) p = (u, none) →
      exec (.collUp n p) s = .next u ∧ exec (.collDown n p) s = .next u)) ∧
  (∀ (s u : State) (n c : Nat) (p x : Packet), n < 144 → s.isOn (296 + n / 36) = true → s.takeIn (n / 36) p = (u, some x) →
    c = bytesAt x.body 0 1 →
    (64 ≤ c → exec (.collUp n p) s = .next u ∧ exec (.collDown n p) s = .next u) ∧
    (c < 64 → u.isOn (296 + c / 16) = true →
      ((u.collState c ≠ 1 ∧ u.collState c ≠ 2 ∨ bytesAt x.body 4 2 ≠ u.collSeq c ∨ n ∉ u.collChildren c ∨
          nbit 0 (bytesAt x.body 2 1) = false ∧ (u.collState c = 2 ∨ n ∈ (u.collSt c).heard)) →
        exec (.collUp n p) s = .next (u.satF (collCnt c) COLL_CNT.DISCARDED 1)) ∧
      (bytesAt x.body 4 2 = u.collSeq c → n ∈ u.collChildren c →
        (u.collState c = 1 → n ∉ (u.collSt c).heard → nbit 0 (bytesAt x.body 2 1) = false →
          exec (.collUp n p) s = .next (u.setCollSt c { u.collSt c with
            heard := nset (u.collSt c).heard n, ups := (u.collSt c).ups ++ [partOf (u.rd (collCfg c)) x] })) ∧
        ((u.collState c = 1 ∨ u.collState c = 2) → nbit 0 (bytesAt x.body 2 1) = true →
          exec (.collUp n p) s = .next (u.collFail c))) ∧
      ((u.collState c ≠ 1 ∧ u.collState c ≠ 2 ∨ bytesAt x.body 4 2 ≠ u.collSeq c ∨ u.has (collCfg c) COLL_CFG.ROOT = true ∨
          u.fld (collCfg c) COLL_CFG.PARENT ≠ n ∨ u.collState c = 1 ∧ nbit 0 (bytesAt x.body 2 1) = false) →
        exec (.collDown n p) s = .next (u.satF (collCnt c) COLL_CNT.DISCARDED 1)) ∧
      (bytesAt x.body 4 2 = u.collSeq c → u.has (collCfg c) COLL_CFG.ROOT = false → u.fld (collCfg c) COLL_CFG.PARENT = n →
        ((u.collState c = 1 ∨ u.collState c = 2) → nbit 0 (bytesAt x.body 2 1) = true → exec (.collDown n p) s = .next (u.collFail c)) ∧
        (u.collState c = 2 → nbit 0 (bytesAt x.body 2 1) = false → ∀ v b,
          u.writePieces (u.collResult c) (downPieces (u.rd (collCfg c)) x) = (v, b) →
          (b = true → exec (.collDown n p) s = .next ((v.sendDown c false x.data x.mask).collNext c)) ∧
          (b = false → exec (.collDown n p) s = .next { v with rtWait := v.rtWait ++ [RtPkt.new (n / 36) 5 x] }))))) ∧
  (∀ (s : State) (c : Nat), c < 64 →
    ((s.collState c ≠ 1 ∨ (s.collSt c).locals.length ≠ s.fld (collCfg c) COLL_CFG.NLOCAL ∨
      (s.collSt c).heard.length ≠ (s.collChildren c).length) → exec (.collCombine c) s = .next s) ∧
    (s.collState c = 1 → (s.collSt c).locals.length = s.fld (collCfg c) COLL_CFG.NLOCAL →
      (s.collSt c).heard.length = (s.collChildren c).length →
      (∀ u, s.readLocals (s.rd (collCfg c)) (s.collSt c).locals = (u, none) → exec (.collCombine c) s = .next u) ∧
      ∀ (u : State) (ls r : List CollPart) (x y : CollPart), s.readLocals (s.rd (collCfg c)) (s.collSt c).locals = (u, some ls) →
        ls ++ (s.collSt c).ups = x :: r → y = r.foldl (CollPart.join (s.fld (collCfg c) COLL_CFG.OP)) x →
        (s.has (collCfg c) COLL_CFG.ROOT = false → exec (.collCombine c) s =
          .next ((u.sendColl c (s.fld (collCfg c) COLL_CFG.PARENT) false false
            (y.reams.flatMap Ream.bytes ++ y.words.flatMap fun w => toBytes 8 w.val.toNat)
            ((y.reams.flatMap fun r => pieceMask r.bytes r.poison) ++ y.words.flatMap fun w => [w.poison, w.poison])).setF
              (collStat c) COLL_STAT.STATE 2)) ∧
        (s.has (collCfg c) COLL_CFG.ROOT = true → ∀ (v : State) (b : Bool) (ps : List Piece) (d : List Byte × List Bool),
          ps = (collRecord (s.rd (collCfg c)) y).1 ++ [⟨collLen (s.rd (collCfg c)),
            toBytes 8 (u.collSeq c * 2 ^ 48 + (collRecord (s.rd (collCfg c)) y).2.toNat), false⟩] →
          u.writePieces (u.collResult c) ps = (v, b) →
          (b = true → d = pieceData (Config.freeWord v.freeTick) 0 ps →
            exec (.collCombine c) s = .next ((v.tick.sendDown c false d.1 d.2).collNext c)) ∧
          (b = false → exec (.collCombine c) s = .next v)))) ∧
  (∀ (s : State) (c : Nat), c < 64 →
    ((s.collState c = 2 ∨ s.collState c = 1 ∧ ((s.collSt c).locals ≠ [] ∨ (s.collSt c).heard ≠ [])) →
      s.fld (COLL_TIMEOUT.adr (c / 16) (c % 16)) COLL_TIMEOUT.LIMIT ≠ 0 → exec (.collTimeout c) s = .next (s.collFail c)) ∧
    ((s.collState c ≠ 1 ∧ s.collState c ≠ 2 ∨ s.collState c = 1 ∧ (s.collSt c).locals = [] ∧ (s.collSt c).heard = [] ∨
        s.fld (COLL_TIMEOUT.adr (c / 16) (c % 16)) COLL_TIMEOUT.LIMIT = 0) →
      exec (.collTimeout c) s = .next s) ∧
    s.collFail c = ((s.collEnd c 1).setCollSt c CollSt.reset).setF (collStat c) COLL_STAT.STATE 3 ∧
    (s.collFail c).collState c = 3 ∧ (s.collFail c).collSt c = CollSt.reset ∧
    (s.Unwatched (7392 + c) →
      (s.collNext c).collState c = 1 ∧ (s.collNext c).collSeq c = (s.collSeq c + 1) % 65536 ∧
      (s.collNext c).collSt c = { locals := (s.collSt c).ahead, ups := [], ahead := [], heard := [] })) ∧
  (∀ (op : Nat) (x : PW) (l r : List PW), 2 ≤ op → op ≤ 9 → l.Perm r → l.foldl (collWord op) x = r.foldl (collWord op) x)

/-- O51. R371, R372, R374 to R376, R378, R381, R386 and R387, with slice 3, which holds the engine, on. -/
def Obligations.MirrorEpochs : Prop :=
  ∀ s : State, s.isOn 299 = true →
    (s.has CE_CTL.adr CE_CTL.ENABLE = true → s.ceState = 1 → s.has CE_STAT.adr CE_STAT.BUDDY_UP = true → s.couch.dirty.length < 2 ^ 24 →
      ∃ u : State, exec .ceMark s = .next (u.couchAsk 0 (couchBody 1 0 0 u.ceEpoch s.couch.dirty.length 0) [] []) ∧
        u = { s with ctrl := u.ctrl, couch := u.couch } ∧ u.ceEpoch = (s.ceEpoch + 1) % 2 ^ 32 ∧ u.ceState = 3 ∧
        u.couch.pend = s.couch.dirty ∧ u.couch.dirty = [] ∧ u.couch.pre = [] ∧ u.couch.flight = [] ∧ u.couch.reqs = [] ∧
        u.couch.waiting = [] ∧ u.couch.began = false ∧ u.fld CE_BOOK_0.adr CE_BOOK_0.MARKED = s.couch.dirty.length ∧
        u.fld CE_BOOK_0.adr CE_BOOK_0.PENDING = s.couch.dirty.length ∧ u.fld CE_BOOK_1.adr CE_BOOK_1.SENT = 0 ∧
        u.fld CE_BOOK_1.adr CE_BOOK_1.PREIMAGED = 0) ∧
    ((s.has CE_CTL.adr CE_CTL.ENABLE = false ∨ s.ceState ≠ 1 ∨ s.has CE_STAT.adr CE_STAT.BUDDY_UP = false) → exec .ceMark s = .next s) ∧
    (2 ≤ s.ceState → s.ceState ≤ 4 → ∃ t, exec .ceAbort s = .next t ∧ s.EpochFailed t false) ∧
    ((s.ceState < 2 ∨ 4 < s.ceState) → exec .ceAbort s = .next s) ∧
    (∀ i, i < 256 →
      (2 ≤ s.ceState → s.ceState ≤ 4 → exec (.extentFull i) s = .next ((s.setF CE_EVT.adr CE_EVT.EXT_ERR 1).event 7188)) ∧
      ((s.ceState < 2 ∨ 4 < s.ceState) →
        (s.has (CE_EXT_SRC.adr i) CE_EXT_SRC.VALID = false → exec (.extentFull i) s = .next s) ∧
        (s.has (CE_EXT_SRC.adr i) CE_EXT_SRC.VALID = true →
          ∃ m : SMap Nat, exec (.extentFull i) s = .next { s with couch := { s.couch with marks := m } } ∧
            ∀ g, m.get 0 g = if s.fld (CE_EXT_SRC.adr i) CE_EXT_SRC.BASE ≤ g ∧
                g < s.fld (CE_EXT_SRC.adr i) CE_EXT_SRC.BASE + s.fld (CE_EXT_SRC.adr i) CE_EXT_SRC.GRANULES then
              s.couch.marks.get 0 g ||| s.trackers [0, 1, 2, 3, 4, 5, 6, 7] else s.couch.marks.get 0 g))) ∧
    ((s.ceState ≠ 3 ∨ s.couch.began = false ∨ 496 < s.dataOut ∨ s.nextGranule = none) → exec .granuleRead s = .next s) ∧
    (∀ g, s.ceState = 3 → s.couch.began = true → s.dataOut ≤ 496 → s.nextGranule = some g →
      (∀ a, ((∀ x ∈ s.couch.pre, x.1 ≠ g) ∧ a = g * 65536 ∨
          ∃ k, s.couch.pre.find? (fun x => x.1 == g) = some (g, k) ∧ a = (s.fld CE_PRE.adr CE_PRE.BASE + k) * 65536) →
        (∀ v : State, s.readChunks a 0 16 = (v, none) → exec .granuleRead s = .next v) ∧
        ∀ (v : State) cs, s.readChunks a 0 16 = (v, some cs) → ∃ u : State,
          exec .granuleRead s = .next (u.sendChunks g v.couch.next (v.extTarget g) 0 cs) ∧
          u = { v with ctrl := u.ctrl, couch := u.couch, freeTick := v.freeTick + 1 } ∧
          u.couch.pend = v.couch.pend.filter (· ≠ g) ∧ u.couch.pre = v.couch.pre.filter (fun x => x.1 ≠ g) ∧
          u.couch.waiting = v.couch.waiting.filter (fun w => w.1 ≠ g) ∧
          u.couch.flight = v.couch.flight ++ [(g, v.couch.next)] ∧ u.couch.next = v.couch.next + 1)) ∧
    (∀ w, s.couch.waiting.find? (fun w => w.2.isNone && s.couch.pend.contains w.1) = some w → s.nextGranule = some w.1) ∧
    ((∀ w ∈ s.couch.waiting, w.2 = none → w.1 ∉ s.couch.pend) →
      s.nextGranule = (s.couch.pend.filter (fun g => !(s.couch.waiting.any fun w => w.1 == g)) ++ s.couch.pre.map (·.1)).min?) ∧
    (∀ g i, i < 256 → s.has (CE_EXT_SRC.adr i) CE_EXT_SRC.VALID = true → s.fld (CE_EXT_SRC.adr i) CE_EXT_SRC.BASE ≤ g →
      g < s.fld (CE_EXT_SRC.adr i) CE_EXT_SRC.BASE + s.fld (CE_EXT_SRC.adr i) CE_EXT_SRC.GRANULES →
      (∀ j, j < i → s.has (CE_EXT_SRC.adr j) CE_EXT_SRC.VALID = false ∨ g < s.fld (CE_EXT_SRC.adr j) CE_EXT_SRC.BASE ∨
        s.fld (CE_EXT_SRC.adr j) CE_EXT_SRC.BASE + s.fld (CE_EXT_SRC.adr j) CE_EXT_SRC.GRANULES ≤ g) →
      s.extTarget g = s.fld (CE_EXT_DST.adr i) CE_EXT_DST.BASE + (g - s.fld (CE_EXT_SRC.adr i) CE_EXT_SRC.BASE)) ∧
    (∀ g, g < 2 ^ 26 → ∀ k : Option Nat, k = (s.couch.waiting.find? (fun w => w.1 == g)).bind (fun w => w.2) →
      ((g ∉ s.couch.pend ∨ k = none) → exec (.preimageCopy g) s = .next s) ∧
      (g ∈ s.couch.pend → k ≠ none →
        (∀ v, s.readChunks (g * 65536) 0 16 = (v, none) → exec (.preimageCopy g) s = .next v) ∧
        ∀ (v w : State) cs, s.readChunks (g * 65536) 0 16 = (v, some cs) →
          (v.writeChunks true ((v.fld CE_PRE.adr CE_PRE.BASE + k.getD 0) * 65536) cs = (w, false) → exec (.preimageCopy g) s = .next w) ∧
          (v.writeChunks true ((v.fld CE_PRE.adr CE_PRE.BASE + k.getD 0) * 65536) cs = (w, true) →
            ∃ u : State, exec (.preimageCopy g) s = .next u ∧ u = { w with ctrl := u.ctrl, couch := u.couch } ∧
              u.couch.pend = w.couch.pend.filter (· ≠ g) ∧ u.couch.waiting = w.couch.waiting.filter (fun x => x.1 ≠ g) ∧
              u.couch.pre = w.couch.pre ++ [(g, k.getD 0)] ∧ u.couch.busy = w.couch.busy ++ [(k.getD 0, g)] ∧
              u.couch.marks = w.couch.marks ∧ u.couch.reqs = w.couch.reqs))) ∧
    (∀ (n : Nat) (p : Packet), n < 144 →
      (s.isOn (296 + n / 36) = false → exec (.couchResponse n p) s = .next s ∧ exec (.couchHb n p) s = .next s) ∧
      (s.isOn (296 + n / 36) = true → ∀ u, s.takeIn (n / 36) p = (u, none) →
        exec (.couchResponse n p) s = .next u ∧ exec (.couchHb n p) s = .next u) ∧
      (s.isOn (296 + n / 36) = true → ∀ u x, s.takeIn (n / 36) p = (u, some x) → u.misfit n = true →
        exec (.couchResponse n p) s = .next u ∧ exec (.couchHb n p) s = .next u)) ∧
    (∀ (n : Nat) (p x : Packet) (u : State), n < 144 → s.isOn (296 + n / 36) = true → s.takeIn (n / 36) p = (u, some x) → u.misfit n = false →
      (u.couch.reqs.find? (fun q => q.p.tag == x.tag && cKind q.p == cKind x) = none → exec (.couchResponse n p) s = .next u) ∧
      ∀ (q : CouchReq) (v : State), u.couch.reqs.find? (fun q => q.p.tag == x.tag && cKind q.p == cKind x) = some q →
        v = { u with couch := { u.couch with reqs := u.couch.reqs.erase q } } →
        (cRcode x ≠ 0 →
          (2 ≤ u.ceState → u.ceState ≤ 4 → ∃ t, exec (.couchResponse n p) s = .next t ∧ v.EpochFailed t true) ∧
          ((u.ceState < 2 ∨ 4 < u.ceState) → exec (.couchResponse n p) s = .next v)) ∧
        (cRcode x = 0 → cKind x = 1 →
          exec (.couchResponse n p) s = .next ({ v with couch := { v.couch with began := true } } : State).maybeEnd) ∧
        (cRcode x = 0 → cKind x = 2 → (∃ r ∈ v.couch.reqs, cKind r.p = 2 ∧ r.g = q.g) → exec (.couchResponse n p) s = .next v) ∧
        (cRcode x = 0 → cKind x = 2 → (∀ r ∈ v.couch.reqs, cKind r.p = 2 → r.g ≠ q.g) → exec (.couchResponse n p) s =
          .next ({ v with couch := { v.couch with busy := v.couch.busy.filter fun b => b.2 ≠ q.g } } : State).maybeEnd) ∧
        (cRcode x = 0 → cKind x ≠ 1 → cKind x ≠ 2 → ∃ w : State, exec (.couchResponse n p) s = .next (w.event 7184) ∧
          w = { v with ctrl := w.ctrl, couch := { v.couch with flight := [], busy := [] } } ∧ w.ceState = 1 ∧
          w.fld CE_BOOK_1.adr CE_BOOK_1.SENT = u.fld CE_BOOK_0.adr CE_BOOK_0.MARKED ∧
          w.fld CE_COMMIT.adr CE_COMMIT.COMMITTED = u.ceEpoch ∧ w.fld CE_EVT.adr CE_EVT.COMMITTED = 1)) ∧
    ((s.ceState = 3 ∧ s.couch.began = true ∧ s.couch.pend = [] ∧ s.couch.pre = [] ∧ s.couch.reqs = [] → ∀ w : State,
        w = s.setF CE_STAT.adr CE_STAT.STATE 4 →
        s.maybeEnd = w.couchAsk 0 (couchBody 3 0 0 w.ceEpoch (w.fld CE_BOOK_0.adr CE_BOOK_0.MARKED) 0) [] []) ∧
      (s.ceState ≠ 3 ∨ s.couch.began = false ∨ s.couch.pend ≠ [] ∨ s.couch.pre ≠ [] ∨ s.couch.reqs ≠ [] → s.maybeEnd = s)) ∧
    (∀ tag, (s.couch.reqs.find? (fun q => q.p.tag == tag) = none → exec (.couchResend tag) s = .next s) ∧
      ∀ q, s.couch.reqs.find? (fun q => q.p.tag == tag) = some q →
        (s.fld CE_TIMING.adr CE_TIMING.RESEND_LIMIT ≤ q.sends →
          (2 ≤ s.ceState → s.ceState ≤ 4 → ∃ t, exec (.couchResend tag) s = .next t ∧ s.EpochFailed t false) ∧
          ((s.ceState < 2 ∨ 4 < s.ceState) → exec (.couchResend tag) s = .next s)) ∧
        (q.sends < s.fld CE_TIMING.adr CE_TIMING.RESEND_LIMIT → exec (.couchResend tag) s = .next ((({ s with couch := { s.couch with
          reqs := s.couch.reqs.map fun x => if x = q then { x with sends := x.sends + 1 } else x } } : State).satF CE_CNT.adr
            CE_CNT.RESENDS 1).couchSend q.p))) ∧
    (∀ (n : Nat) (p x : Packet) (u : State), n < 144 → s.isOn (296 + n / 36) = true → s.takeIn (n / 36) p = (u, some x) → u.misfit n = false →
      (x.src ≠ u.buddy → exec (.couchHb n p) s = .next u) ∧
      (x.src = u.buddy → ∀ v : State, v = (({ u with couch := { u.couch with heard := true } } : State).setF CE_COMMIT.adr
          CE_COMMIT.BUDDY_COMMITTED (bytesAt x.body 16 4)).setF CE_STAT.adr CE_STAT.MISSED 0 →
        (v.has CE_STAT.adr CE_STAT.BUDDY_UP = true → exec (.couchHb n p) s = .next v) ∧
        (v.has CE_STAT.adr CE_STAT.BUDDY_UP = false → ∀ w : State,
          w = ((v.setF CE_STAT.adr CE_STAT.BUDDY_UP 1).setF CE_EVT.adr CE_EVT.BUDDY_FOUND 1).event 7187 →
          (bytesAt x.body 16 4 = w.fld CE_COMMIT.adr CE_COMMIT.COMMITTED → exec (.couchHb n p) s = .next w) ∧
          (bytesAt x.body 16 4 ≠ w.fld CE_COMMIT.adr CE_COMMIT.COMMITTED →
            exec (.couchHb n p) s = .next (w.setF CE_EVT.adr CE_EVT.RESYNC_NEEDED 1))))) ∧
    (∀ (u : State) (was lim : Nat), (s.has CE_CTL.adr CE_CTL.HB = true → ∃ v : State, v = s.couchSend (s.couchPkt s.hbBody [] []) ∧
        u = { v with couch := { v.couch with tag := (v.couch.tag + 1) % 65536 } }) →
      (s.has CE_CTL.adr CE_CTL.HB = false → u = s) →
      was = u.fld CE_STAT.adr CE_STAT.MISSED → lim = u.fld CE_TIMING.adr CE_TIMING.MISS_LIMIT →
      (u.couch.heard = true → exec .hbPeriodExpiry s = .next { u with couch := { u.couch with heard := false } }) ∧
      (u.couch.heard = false → was + 1 < lim ∨ lim ≤ was ∧ u.has CE_STAT.adr CE_STAT.BUDDY_UP = false →
        exec .hbPeriodExpiry s = .next (u.satF CE_STAT.adr CE_STAT.MISSED 1)) ∧
      (u.couch.heard = false → lim ≤ was + 1 → was < lim ∨ u.has CE_STAT.adr CE_STAT.BUDDY_UP = true → ∀ y : State,
        y = (((u.satF CE_STAT.adr CE_STAT.MISSED 1).setF CE_STAT.adr CE_STAT.BUDDY_UP 0).setF CE_EVT.adr CE_EVT.BUDDY_LOST 1).event 7186 →
        (2 ≤ y.ceState → y.ceState ≤ 4 → ∃ z, y.EpochFailed z false ∧ exec .hbPeriodExpiry s = .next z.rxDiscard) ∧
        ((y.ceState < 2 ∨ 4 < y.ceState) → exec .hbPeriodExpiry s = .next y.rxDiscard)))

/-- O52. R365, R366, R380, R381 and R383 to R385, with slice 3, which holds the engine, on. -/
def Obligations.ReceiveLog : Prop :=
  (∀ (p : Packet) (r : Nat), r < 256 → 0 < p.body.length → (couchAnswer p r).op = 8 ∧ (couchAnswer p r).resp = true ∧ (couchAnswer p r).len = 0 ∧
    (couchAnswer p r).dest = p.src ∧ (couchAnswer p r).tag = p.tag ∧ cKind (couchAnswer p r) = cKind p ∧ cRcode (couchAnswer p r) = r ∧
    (couchAnswer p r).status = if r = 0 then 0 else 0x0C) ∧
  (∀ (s : State) (n r : Nat) (p a : Packet), a = couchAnswer p r →
    (s.linkUp n = true → s.misfit n = false → s.devValid = true → s.rxAnswer n p r = s.giveLink n 6 a (RtPkt.new 3 6 a)) ∧
    (s.linkUp n = false ∨ s.misfit n = true →
      (∀ k, s.groupNext = some k → s.devValid = true → s.rxAnswer n p r =
        ({ s with couch := { s.couch with rot := (k + 1) % 8 } } : State).giveLink (s.groupLink k) 6 a (RtPkt.new 3 6 a)) ∧
      (s.groupNext = none → s.rxAnswer n p r = s))) ∧
  (∀ (s : State) (n : Nat) (p : Packet), s.isOn 299 = true → n < 144 →
    ∀ row ∈ [Instr.couchBegin n p, .couchData n p, .couchEnd n p, .couchAbort n p],
      (s.isOn (296 + n / 36) = false → exec row s = .next s) ∧
      (s.isOn (296 + n / 36) = true → (∀ u, s.takeIn (n / 36) p = (u, none) → exec row s = .next u) ∧
        ∀ u x, s.takeIn (n / 36) p = (u, some x) → u.misfit n = true → exec row s = .next u)) ∧
  (∀ (s u : State) (n : Nat) (p x : Packet), s.isOn 299 = true → n < 144 → s.isOn (296 + n / 36) = true →
    s.takeIn (n / 36) p = (u, some x) → u.misfit n = false → exec (.couchBegin n p) s = .next (u.beginLog n x)) ∧
  (∀ (s : State) (n : Nat) (p : Packet),
    (s.has RX_CTL.adr RX_CTL.ENABLE = false → s.beginLog n p = s.rxAnswer n p 2) ∧
    (s.has RX_CTL.adr RX_CTL.ENABLE = true →
      (p.src ≠ s.fld RX_CTL.adr RX_CTL.SRC → s.beginLog n p = s.rxAnswer n p 3) ∧
      (p.src = s.fld RX_CTL.adr RX_CTL.SRC →
        (s.rxState = 2 → cEpoch p = s.fld RX_LOGSTAT.adr RX_LOGSTAT.EPOCH → s.beginLog n p = s.rxAnswer n p 0) ∧
        (s.rxState = 3 → s.beginLog n p = { s with couch := { s.couch with rxBegin := s.couch.rxBegin ++ [(n, p)] } }) ∧
        (s.rxState ≠ 3 → (s.rxState ≠ 2 ∨ cEpoch p ≠ s.fld RX_LOGSTAT.adr RX_LOGSTAT.EPOCH) →
          (newer (cEpoch p) s.rxCommitted = false → s.beginLog n p = s.rxAnswer n p 5) ∧
          (newer (cEpoch p) s.rxCommitted = true → s.fld RX_LOG.adr RX_LOG.SIZE < cCount p →
            s.beginLog n p = ((s.setF RX_EVT.adr RX_EVT.REJECTED 1).event 7190).rxAnswer n p 1) ∧
          (newer (cEpoch p) s.rxCommitted = true → cCount p ≤ s.fld RX_LOG.adr RX_LOG.SIZE → ∀ w : State,
            w = (if s.rxState = 2 then (s.rxRest.setF RX_EVT.adr RX_EVT.DISCARDED 1).event 7190 else s) →
            ∃ v : State, s.beginLog n p = v.rxAnswer n p 0 ∧ v = { w with ctrl := v.ctrl, couch := v.couch } ∧
              v.LogOpen (cEpoch p) (cCount p)))))) ∧
  (∀ (s : State) (off e count : Nat) (bs : List Byte) (b : Bool) (m : MemRes),
    (m = s.dramWrite .engine true true (s.fld RX_IDX.adr RX_IDX.BASE * 65536 + off) bs (List.replicate (bs.length / 4) false) →
      s.writeIndex off bs = (m.st, m.ans != .held)) ∧
    s.writeHeader e count b = s.writeIndex 0 (toBytes 4 e ++ toBytes 4 count ++ toBytes 1 (if b = true then 1 else 0) ++
      List.replicate 55 0)) ∧
  (∀ (s u : State) (n k g : Nat) (p x : Packet), s.isOn 299 = true → n < 144 → s.isOn (296 + n / 36) = true →
    s.takeIn (n / 36) p = (u, some x) → u.misfit n = false → k = cCount x → g = cTarget x / 65536 →
    (16 ≤ cChunk x → exec (.couchData n p) s =
      .next (((u.satF (RT_DISC.adr (n / 36)) RT_DISC.BADPKT 1).setF (RT_EVT.adr (n / 36)) RT_EVT.BADPKT 1).event (7456 + 16 * (n / 36)))) ∧
    (cChunk x < 16 →
      (x.src ≠ u.fld RX_CTL.adr RX_CTL.SRC → exec (.couchData n p) s = .next (u.rxAnswer n x 3)) ∧
      (x.src = u.fld RX_CTL.adr RX_CTL.SRC →
        ((u.rxState ≠ 2 ∨ cEpoch x ≠ u.fld RX_LOGSTAT.adr RX_LOGSTAT.EPOCH) → exec (.couchData n p) s = .next (u.rxAnswer n x 5)) ∧
        (u.rxState = 2 → cEpoch x = u.fld RX_LOGSTAT.adr RX_LOGSTAT.EPOCH →
          ((u.couch.rxCount ≤ k ∨ g < u.fld RX_WIN.adr RX_WIN.BASE ∨ u.fld RX_WIN.adr RX_WIN.LIMIT < g) →
            exec (.couchData n p) s = .next ((u.setF RX_LOGSTAT.adr RX_LOGSTAT.BAD 1).rxAnswer n x 4)) ∧
          (k < u.couch.rxCount → u.fld RX_WIN.adr RX_WIN.BASE ≤ g → g ≤ u.fld RX_WIN.adr RX_WIN.LIMIT → ∀ (had : Nat) (w : State) (b : Bool),
            had = u.couch.rxChunks.get 0 k →
            u.writeChunks true ((u.fld RX_LOG.adr RX_LOG.BASE + k) * 65536 + 4096 * cChunk x) [(x.data, x.mask)] = (w, b) →
            (b = false → exec (.couchData n p) s = .next { w with rtWait := w.rtWait ++ [RtPkt.new (n / 36) 6 x] }) ∧
            (b = true → nbit (cChunk x) had = true → exec (.couchData n p) s =
              .next (({ w with couch := { w.couch with rxChunks := w.couch.rxChunks.put 0 k had } } : State).rxAnswer n x 0)) ∧
            (b = true → nbit (cChunk x) had = false → had + 2 ^ cChunk x ≠ 65535 → exec (.couchData n p) s =
              .next (({ w with couch := { w.couch with rxChunks := w.couch.rxChunks.put 0 k (had + 2 ^ cChunk x) } } : State).rxAnswer n x 0)) ∧
            (b = true → nbit (cChunk x) had = false → had + 2 ^ cChunk x = 65535 → ∀ y c,
              w.writeIndex (64 + 8 * k) (toBytes 8 (2 ^ 63 + g)) = (y, c) →
              (c = false → exec (.couchData n p) s = .next { y with rtWait := y.rtWait ++ [RtPkt.new (n / 36) 6 x] }) ∧
              (c = true → exec (.couchData n p) s = .next ((({ y with couch := { y.couch with
                rxChunks := y.couch.rxChunks.put 0 k 65535 } } : State).incF RX_LOGSTAT.adr RX_LOGSTAT.SLOTS 1).rxAnswer n x 0)))))))) ∧
  (∀ (s u : State) (n : Nat) (p x : Packet), s.isOn 299 = true → n < 144 → s.isOn (296 + n / 36) = true →
    s.takeIn (n / 36) p = (u, some x) → u.misfit n = false →
    (x.src ≠ u.fld RX_CTL.adr RX_CTL.SRC → exec (.couchEnd n p) s = .next (u.rxAnswer n x 3)) ∧
    (x.src = u.fld RX_CTL.adr RX_CTL.SRC →
      (cEpoch x = u.rxCommitted → exec (.couchEnd n p) s = .next (u.rxAnswer n x 0)) ∧
      (cEpoch x ≠ u.rxCommitted →
        ((u.rxState ≠ 2 ∨ cEpoch x ≠ u.fld RX_LOGSTAT.adr RX_LOGSTAT.EPOCH) → exec (.couchEnd n p) s = .next (u.rxAnswer n x 5)) ∧
        (u.rxState = 2 → cEpoch x = u.fld RX_LOGSTAT.adr RX_LOGSTAT.EPOCH →
          (u.has RX_LOGSTAT.adr RX_LOGSTAT.BAD = true → exec (.couchEnd n p) s = .next (u.rxRest.rxAnswer n x 4)) ∧
          (u.has RX_LOGSTAT.adr RX_LOGSTAT.BAD = false →
            (cCount x ≠ u.couch.rxCount ∨ u.fld RX_LOGSTAT.adr RX_LOGSTAT.SLOTS ≠ u.couch.rxCount →
              exec (.couchEnd n p) s = .next (u.rxRest.rxAnswer n x 6)) ∧
            (cCount x = u.couch.rxCount → u.fld RX_LOGSTAT.adr RX_LOGSTAT.SLOTS = u.couch.rxCount → ∀ v b,
              u.writeHeader (cEpoch x) (cCount x) true = (v, b) →
              (b = false → exec (.couchEnd n p) s = .next { v with rtWait := v.rtWait ++ [RtPkt.new (n / 36) 6 x] }) ∧
              (b = true → ∀ w : State, w = v.setF RX_STAT.adr RX_STAT.STATE 3 →
                exec (.couchEnd n p) s = .next { w with couch := { w.couch with rxNext := 0, rxEnd := some (n, x) } })))))) ∧
    ((x.src ≠ u.fld RX_CTL.adr RX_CTL.SRC ∨ cEpoch x ≠ u.fld RX_LOGSTAT.adr RX_LOGSTAT.EPOCH ∨ u.rxState ≠ 2) →
      exec (.couchAbort n p) s = .next u) ∧
    (x.src = u.fld RX_CTL.adr RX_CTL.SRC → cEpoch x = u.fld RX_LOGSTAT.adr RX_LOGSTAT.EPOCH → u.rxState = 2 →
      exec (.couchAbort n p) s = .next ((u.rxRest.setF RX_EVT.adr RX_EVT.DISCARDED 1).event 7190))) ∧
  (∀ s : State, s.isOn 299 = true →
    (s.rxState = 2 → exec .discard s = .next ((s.rxRest.setF RX_EVT.adr RX_EVT.DISCARDED 1).event 7190)) ∧
    (s.rxState ≠ 2 → exec .discard s = .next s) ∧
    (s.rxState ≠ 3 → exec .applyDone s = .next s) ∧
    (s.rxState = 3 → (∀ u, s.applySlots (s.couch.rxCount + 1) = (u, false) → exec .applyDone s = .next u) ∧
      ∀ (u v w : State) (e : Nat) (b : Bool), s.applySlots (s.couch.rxCount + 1) = (u, true) →
        e = u.fld RX_LOGSTAT.adr RX_LOGSTAT.EPOCH →
        (u.setF RX_STAT.adr RX_STAT.COMMITTED e).writeHeader e u.couch.rxCount false = (v, b) →
        w = (({ v with couch := { v.couch with rxEnd := none, rxBegin := [], rxNext := 0 } } : State).setF RX_STAT.adr RX_STAT.STATE
          (if v.has RX_CTL.adr RX_CTL.ENABLE = true then 1 else 0)).setF RX_CTL.adr RX_CTL.REAPPLY 0 →
        (b = false → exec .applyDone s = .next v) ∧
        (b = true → (∀ n p, v.couch.rxEnd = some (n, p) → exec .applyDone s = .next (v.couch.rxBegin.foldl (fun s b => s.beginLog b.1 b.2)
            (((w.rxAnswer n p 0).setF RX_EVT.adr RX_EVT.COMMITTED 1).event 7189))) ∧
          (v.couch.rxEnd = none → exec .applyDone s = .next (v.couch.rxBegin.foldl (fun s b => s.beginLog b.1 b.2)
            ((w.setF RX_EVT.adr RX_EVT.COMMITTED 1).event 7189))))) ∧
    (s.rxState ≠ 1 → exec .reapply s = .next s) ∧
    (∀ h : MemRes, s.rxState = 1 → h = s.dramRead .engine false (s.fld RX_IDX.adr RX_IDX.BASE * 65536) 16 →
      (h.ans = .held → exec .reapply s = .next (h.st.setF RX_CTL.adr RX_CTL.REAPPLY 1)) ∧
      (h.ans ≠ .held → h.ans ≠ .ok ∨ nbit 0 (bytesAt h.bytes 8 1) = false →
        exec .reapply s = .next (h.st.setF RX_CTL.adr RX_CTL.REAPPLY 0)) ∧
      (h.ans = .ok → nbit 0 (bytesAt h.bytes 8 1) = true → ∃ t : State, exec .reapply s = .next t ∧
        t = { h.st with ctrl := t.ctrl, couch := t.couch } ∧ t.has RX_CTL.adr RX_CTL.REAPPLY = true ∧
        t.rxState = 3 ∧ t.fld RX_LOGSTAT.adr RX_LOGSTAT.EPOCH = bytesAt h.bytes 0 4 ∧ t.couch.rxCount = bytesAt h.bytes 4 4 ∧
        t.couch.rxNext = 0 ∧ t.couch.rxEnd = none)))

/-- O53. R390 to R393 and R464. A frame that awaits its answer is the model's `chain.sent` or `chain.enum`; DEST of an ENUM is a
free byte; that ENUM is sent eight times in all and another frame nine is the model's reading (NOTES.md, Assumptions). -/
def Obligations.ChainAndServiceFrames : Prop :=
  (∀ (s u : State) (conn : Bool), u = s.setF CHAIN_STAT.adr CHAIN_STAT.UP_CONN (if conn = true then 1 else 0) →
    (s.chStat CHAIN_STAT.ROLE = 0 → exec (.chainInConnect conn) s = .next u) ∧
    (s.chStat CHAIN_STAT.ROLE = 1 →
      (conn = true → s.chStat CHAIN_STAT.UP_CONN = 0 → exec (.chainInConnect conn) s =
        .next ((((((({ u with chain := { u.chain with enum := none, demoted := true } } : State).setF CHAIN_CMD.adr CHAIN_CMD.ENUM 0).setF
          CHAIN_STAT.adr CHAIN_STAT.DEMOTED 1).setF CHAIN_STAT.adr CHAIN_STAT.MEMBERS 0).setF CHAIN_EVT.adr CHAIN_EVT.RX 1)).event 7191)) ∧
      (conn = true → s.chStat CHAIN_STAT.UP_CONN ≠ 0 → exec (.chainInConnect conn) s = .next u) ∧
      (conn = false → exec (.chainInConnect conn) s =
        .next ((u.setF CHAIN_STAT.adr CHAIN_STAT.DEMOTED 0).setF CHAIN_STAT.adr CHAIN_STAT.POSITION 0))) ∧
    (2 ≤ s.chStat CHAIN_STAT.ROLE → exec (.chainInConnect conn) s =
      .next (u.setF CHAIN_STAT.adr CHAIN_STAT.NO_MASTER (if conn = true then 0 else 1))) ∧
    exec (.chainOutConnect conn) s = .next (s.setF CHAIN_STAT.adr CHAIN_STAT.DOWN_CONN (if conn = true then 1 else 0))) ∧
  (∀ (s : State) (f : List Byte),
    (s.chStat CHAIN_STAT.DOWN_CONN = 1 → s.chainOut true f = { s with out := s.out ++ [.chainFrame true ([0xAA, 0xAB] ++ f ++ crc16 f)] }) ∧
    (s.chStat CHAIN_STAT.UP_CONN = 1 → s.chainOut false f = { s with out := s.out ++ [.chainFrame false ([0xAA, 0xAB] ++ f ++ crc16 f)] }) ∧
    (s.chStat CHAIN_STAT.DOWN_CONN ≠ 1 → s.chainOut true f = s) ∧ (s.chStat CHAIN_STAT.UP_CONN ≠ 1 → s.chainOut false f = s) ∧
    ∀ down, s.chainAsk down f =
      ({ s with chain := { s.chain with sent := some f, times := 1, enumFirst := true, seq := (s.chain.seq + 1) % 256 } } : State).chainOut down f) ∧
  (∀ s : State,
    (s.chainMaster = true → s.chain.demoted = false → ∃ (b : Nat) (f : List Byte), f = mkFrame 1 b 0 s.chain.seq 1 ∧
      exec .chainEnumCmd s = .next (({ (s.setF CHAIN_CMD.adr CHAIN_CMD.ENUM 1) with
        freeTick := s.freeTick + 1
        chain := { s.chain with enum := some f, enumTimes := 1, enumFirst := false, seq := (s.chain.seq + 1) % 256 } } : State).chainOut true f)) ∧
    (s.chainMaster = false ∨ s.chain.demoted = true → exec .chainEnumCmd s = .next s) ∧
    (∀ p, p < 256 → ∀ u, u = s.chainEnum p →
      (u.phase ≠ 4 → exec (.chainEnum p) s = .next u) ∧ (u.phase = 4 → exec (.chainEnum p) s = .next u.bootReq)) ∧
    (∀ p, s.chainMember = false → s.chainEnum p = s) ∧
    (s.chainMember = true →
      s.chainEnum 16 = (s.setF CHAIN_STAT.adr CHAIN_STAT.OVERFLOW 1).chainOut false (mkFrame 2 0 s.chainPos s.chain.seq 15)) ∧
    (∀ p, 1 ≤ p → p ≤ 15 → s.chainMember = true →
      (s.chStat CHAIN_STAT.DOWN_CONN ≠ 1 → s.chainEnum p =
        (s.setF CHAIN_STAT.adr CHAIN_STAT.POSITION p).chainOut false (mkFrame 2 0 p s.chain.seq p)) ∧
      (s.chStat CHAIN_STAT.DOWN_CONN = 1 → ∃ b, s.chainEnum p =
        (s.setF CHAIN_STAT.adr CHAIN_STAT.POSITION p).tick.chainOut true (mkFrame 1 b p s.chain.seq (p + 1)))) ∧
    (∀ src seq n, (s.chainMaster = true → exec (.chainEnumDone ⟨src, seq, n⟩) s =
        .next (((({ s with chain := { s.chain with enum := none } } : State).setF CHAIN_CMD.adr CHAIN_CMD.ENUM 0).setF
          CHAIN_STAT.adr CHAIN_STAT.MEMBERS n).setF CHAIN_EVT.adr CHAIN_EVT.RX 1 |>.event 7191)) ∧
      (s.chainMaster = false → s.chainMember = true → exec (.chainEnumDone ⟨src, seq, n⟩) s =
        .next (s.chainOut false (mkFrame 2 0 src seq n))) ∧
      (s.chainMaster = false → s.chainMember = false → exec (.chainEnumDone ⟨src, seq, n⟩) s = .next s)) ∧
    (∀ up bs, (s.chainOn = false ∨ bs.take 2 ≠ [0xAA, 0xAB] → exec (.chainFrameReceive up bs) s = .next s) ∧
      (s.chainOn = true → bs.take 2 = [0xAA, 0xAB] → bs.length ≠ 20 →
        exec (.chainFrameReceive up bs) s = .next ((s.setF CHAIN_EVT.adr CHAIN_EVT.ERR 1).event 7192))) ∧
    (∀ up f c x, s.chainOn = true → f.length = 16 → c.length = 2 → x = .chainFrameReceive up ([0xAA, 0xAB] ++ f ++ c) →
      (c ≠ crc16 f ∨ bytesAt f 0 1 = 0 ∨ 3 < bytesAt f 0 1 ∧ bytesAt f 0 1 < 0x10 ∨ 0x7F < bytesAt f 0 1 →
        exec x s = .next ((s.setF CHAIN_EVT.adr CHAIN_EVT.ERR 1).event 7192)) ∧
      (c = crc16 f →
        (bytesAt f 0 1 = 1 → exec x s = exec (.chainEnum (bytesAt f 4 1)) s) ∧
        (bytesAt f 0 1 = 2 → exec x s = exec (.chainEnumDone ⟨bytesAt f 2 1, bytesAt f 3 1, bytesAt f 4 1⟩) s) ∧
        (bytesAt f 0 1 = 3 → exec x s = exec (.chainAck up (bytesAt f 1 1) (bytesAt f 2 1) (bytesAt f 3 1)) s) ∧
        (0x10 ≤ bytesAt f 0 1 → bytesAt f 0 1 ≤ 0x7F →
          (bytesAt f 1 1 = 0xFF → s.chainMember = false → exec x s = .next (s.chainOut up f)) ∧
          (bytesAt f 1 1 = 0xFF → s.chainMember = true →
            exec x s = .next ((s.chainDeliver f (s.chStat CHAIN_STAT.DOWN_CONN == 0)).chainOut up f)) ∧
          (bytesAt f 1 1 ≠ 0xFF → bytesAt f 1 1 ≠ s.chainPos → exec x s = .next (s.chainOut up f)) ∧
          (bytesAt f 1 1 ≠ 0xFF → bytesAt f 1 1 = s.chainPos → exec x s = .next (s.chainDeliver f true))))) ∧
    (∀ f answer v, v = ((((s.wr CHAIN_RX_0.adr (BitVec.ofNat 64 (bytesAt f 0 8))).wr CHAIN_RX_1.adr (BitVec.ofNat 64 (bytesAt f 8 8))).setF
        CHAIN_STAT.adr CHAIN_STAT.RX_FULL 1).setF CHAIN_EVT.adr CHAIN_EVT.RX 1).event 7191 →
      (s.chStat CHAIN_STAT.RX_FULL = 1 → s.chainDeliver f answer = s) ∧
      (s.chStat CHAIN_STAT.RX_FULL ≠ 1 → answer = false → s.chainDeliver f answer = v) ∧
      (s.chStat CHAIN_STAT.RX_FULL ≠ 1 → answer = true → s.chainDeliver f answer =
        v.chainOut (decide (v.chainPos < bytesAt f 2 1)) (mkFrame 3 (bytesAt f 2 1) v.chainPos (bytesAt f 3 1) 0))) ∧
    (∀ up dest src seq, (s.chainOn = false → exec (.chainAck up dest src seq) s = .next s) ∧ (s.chainOn = true →
      (dest ≠ s.chainPos → exec (.chainAck up dest src seq) s = .next (s.chainOut up (mkFrame 3 dest src seq 0))) ∧
      (dest = s.chainPos → s.chain.sent = none → exec (.chainAck up dest src seq) s = .next s) ∧
      ∀ f, dest = s.chainPos → s.chain.sent = some f →
        (bytesAt f 3 1 = seq → exec (.chainAck up dest src seq) s =
          .next (({ s with chain := { s.chain with sent := none } } : State).setF CHAIN_CMD.adr CHAIN_CMD.SEND 0)) ∧
        (bytesAt f 3 1 ≠ seq → exec (.chainAck up dest src seq) s = .next s))) ∧
    (s.chainOn = false → exec .chainSend s = .next s) ∧
    (∀ f, s.chainOn = true → f = toBytes 8 (s.rd CHAIN_TX_0.adr).toNat ++ toBytes 8 (s.rd CHAIN_TX_1.adr).toNat →
      exec .chainSend s = .next ((s.setF CHAIN_CMD.adr CHAIN_CMD.SEND 1).chainAsk (decide (s.chainPos < bytesAt f 1 1))
        (f.take 2 ++ toBytes 1 s.chainPos ++ toBytes 1 s.chain.seq ++ f.drop 4))) ∧
    exec .chainRelease s = .next (s.setF CHAIN_STAT.adr CHAIN_STAT.RX_FULL 0) ∧
    (s.chain.sent = none → s.chain.enum = none → exec .chainResend s = .next s) ∧
    (∀ f, s.chain.sent = some f → (s.chain.enum = none ∨ s.chain.enumFirst = false) →
      (s.chain.times ≤ 8 → exec .chainResend s = .next (({ s with chain := { s.chain with
        times := s.chain.times + 1, enumFirst := true } } : State).chainOut (decide (s.chainPos < bytesAt f 1 1)) f)) ∧
      (9 ≤ s.chain.times → exec .chainResend s = .next (((({ s with chain := { s.chain with sent := none } } : State).setF
        CHAIN_CMD.adr CHAIN_CMD.SEND 0).setF CHAIN_EVT.adr CHAIN_EVT.ERR 1).event 7192))) ∧
    (∀ f, s.chain.enum = some f → (s.chain.sent = none ∨ s.chain.enumFirst = true) →
      (s.chain.enumTimes ≤ 7 → exec .chainResend s = .next (({ s with chain := { s.chain with
        enumTimes := s.chain.enumTimes + 1, enumFirst := false } } : State).chainOut true f)) ∧
      (8 ≤ s.chain.enumTimes → exec .chainResend s = .next (((({ s with chain := { s.chain with enum := none } } : State).setF
        CHAIN_CMD.adr CHAIN_CMD.ENUM 0).setF CHAIN_EVT.adr CHAIN_EVT.ERR 1).event 7192)))) ∧
  (∀ s : State, (s.isOn 301 = false ∨ s.has MGMT_CTL.adr MGMT_CTL.ENABLE = false) →
    exec .txKick s = .next s ∧ exec .mgmtFrameSent s = .next s ∧ (∀ up, exec (.mgmtLinkChange up) s = .next s) ∧
    ∀ f ok, exec (.mgmtFrameReceive f ok) s = .next s) ∧
  (∀ s : State, s.isOn 301 = true → s.has MGMT_CTL.adr MGMT_CTL.ENABLE = true →
    exec .txKick s = .next { s with mgmtSending := true } ∧
    (∀ up, exec (.mgmtLinkChange up) s = .next (s.event 7656)) ∧
    (∀ f ok, (s.mgmtFor f = false ∨ f.length < 60 ∨ 9212 < f.length) → exec (.mgmtFrameReceive f ok) s = .next s) ∧
    (∀ (f : List Byte) (n i a : Nat), s.mgmtFor f = true → 60 ≤ f.length → f.length ≤ 9212 → n = s.fld MGMT_RXR.adr MGMT_RXR.COUNT →
      i = s.fld MGMT_IDX.adr MGMT_IDX.RX_NEXT → a = s.fld MGMT_RXR.adr MGMT_RXR.BASE + 16 * i →
      exec (.mgmtFrameReceive f false) s = .next (s.satF MGMT_CNT.adr MGMT_CNT.RX_DROP 1) ∧
      (n = 0 → exec (.mgmtFrameReceive f true) s = .next (s.satF MGMT_CNT.adr MGMT_CNT.RX_DROP 1)) ∧
      ∀ (u : State) (b len own : Nat), n ≠ 0 → s.descriptor a = (u, b, len, own) →
        (own < 128 ∨ len < f.length → exec (.mgmtFrameReceive f true) s = .next (u.satF MGMT_CNT.adr MGMT_CNT.RX_DROP 1)) ∧
        (128 ≤ own → f.length ≤ len → exec (.mgmtFrameReceive f true) s =
          .next (((((u.engineWrite b f).engineWrite (a + 8) (toBytes 2 f.length ++ toBytes 1 (own - 128))).setF MGMT_IDX.adr
            MGMT_IDX.RX_NEXT ((i + 1) % n)).satF MGMT_CNT.adr MGMT_CNT.RX_FRAMES 1).event 7654))) ∧
    (s.mgmtSending = false → exec .mgmtFrameSent s = .next s) ∧
    (s.mgmtSending = true → s.fld MGMT_TXR.adr MGMT_TXR.COUNT = 0 → exec .mgmtFrameSent s = .next { s with mgmtSending := false }) ∧
    (∀ (u v : State) (a n i b len own : Nat) (x : Option (List Byte × Bool)), s.mgmtSending = true →
      n = s.fld MGMT_TXR.adr MGMT_TXR.COUNT → n ≠ 0 →
      i = s.fld MGMT_IDX.adr MGMT_IDX.TX_NEXT → a = s.fld MGMT_TXR.adr MGMT_TXR.BASE + 16 * i → s.descriptor a = (u, b, len, own) →
      (own < 128 → exec .mgmtFrameSent s = .next { u with mgmtSending := false }) ∧
      (128 ≤ own → u.engineRead b len = (v, x) →
        (∀ bs, x = some (bs, false) → exec .mgmtFrameSent s =
          .next ((((({ v with out := v.out ++ [.mgmt bs false] } : State).engineWrite (a + 10) (toBytes 1 (own - 128))).setF MGMT_IDX.adr
            MGMT_IDX.TX_NEXT ((i + 1) % n)).satF MGMT_CNT.adr MGMT_CNT.TX_FRAMES 1).event 7655)) ∧
        (∀ bs, (x = some (bs, true) ∨ x = none ∧ bs = []) → exec .mgmtFrameSent s =
          .next (((((({ v with out := v.out ++ [.mgmt bs true] } : State).engineWrite (a + 10) (toBytes 1 ((own - 128) ||| 2))).satF MGMT_CNT.adr
            MGMT_CNT.TX_POISON 1).setF MGMT_IDX.adr MGMT_IDX.TX_NEXT ((i + 1) % n)).satF MGMT_CNT.adr MGMT_CNT.TX_FRAMES 1).event 7655)))))

/-- O54. R454 to R456, R462, R465 and R469. -/
def Obligations.ServiceCoresAndTileCores : Prop :=
  (∀ s : State, exec .kick s = .next s ∧
    (s.isOn 301 = false → ∀ page count v, exec .handover s = .next s ∧ exec .watchdogExpiry s = .next s ∧ exec .standbyRun s = .next s ∧
      exec (.svcXrel page count) s = .next s ∧ exec (.tileMove v) s = .next s ∧ exec .bbWrGo s = .next s) ∧
    (s.isOn 301 = true → (s.standby = none → exec .handover s = .next (s.setF SVC_STAT.adr SVC_STAT.NO_STANDBY 1)) ∧
      (∀ (o : Nat) (u v w : State), s.standby = some o → u = (s.setF SVC_CTL.adr SVC_CTL.STANDBY_RUN 0).stopCore s.activeSvc →
        v = ((u.setF SVC_STAT.adr SVC_STAT.ACTIVE o).setF SVC_STAT.adr SVC_STAT.CAUSE 1).incF SVC_STAT.adr SVC_STAT.HANDOVERS 1 →
        w = (if (v.core (0x1000 + o)).running = true then v else v.runCore (0x1000 + o) (v.rd SVC_VEC.adr)) →
        exec .handover s = .next ((w.event 7648).bbWrite 4 (toBytes 4 1))) ∧
      (s.has SVC_WDOG.adr SVC_WDOG.PERIOD = false → exec .watchdogExpiry s = .next s) ∧
      (s.has SVC_WDOG.adr SVC_WDOG.PERIOD = true →
        (s.standby = none → exec .watchdogExpiry s = .next ((s.setCore s.activeSvc Core.reset).runCore s.activeSvc (s.rd SVC_VEC.adr))) ∧
        ∀ (o : Nat) (u v w : State), s.standby = some o →
          u = ((s.setCore s.activeSvc Core.reset).setF SVC_CTL.adr SVC_CTL.STANDBY_RUN 0).stopCore s.activeSvc →
          v = ((u.setF SVC_STAT.adr SVC_STAT.ACTIVE o).setF SVC_STAT.adr SVC_STAT.CAUSE 2).incF SVC_STAT.adr SVC_STAT.HANDOVERS 1 →
          w = (if (v.core (0x1000 + o)).running = true then v else v.runCore (0x1000 + o) (v.rd SVC_VEC.adr)) →
          exec .watchdogExpiry s = .next ((w.event 7648).bbWrite 4 (toBytes 4 2))) ∧
      ∀ u : State, u = s.setF SVC_CTL.adr SVC_CTL.STANDBY_RUN 1 → (s.standby = none → exec .standbyRun s = .next u) ∧
        ∀ o, s.standby = some o →
          (s.has SVC_STAT.adr SVC_STAT.CAUSE = true → (s.core (0x1000 + o)).running = false →
            exec .standbyRun s = .next (u.runCore (0x1000 + o) (s.rd SVC_VEC.adr))) ∧
          ((s.has SVC_STAT.adr SVC_STAT.CAUSE = false ∨ (s.core (0x1000 + o)).running = true) → exec .standbyRun s = .next u))) ∧
  (∀ (s : State) (c : Nat) (a : Word), ((s.runCore c a).core c).running = true ∧ ((s.runCore c a).core c).pc = a ∧
    ((s.runCore c a).core c).pl = 2 ∧ ((s.runCore c a).core c).sb = (s.core c).sb) ∧
  (∀ (s : State) (page count : Nat), s.isOn 301 = true → ∃ t : State, exec (.svcXrel page count) s = .next t ∧ t = { s with ctrl := t.ctrl } ∧
    ∀ p, p < 128 → t.svcPageX (p * 65536) = (s.svcPageX (p * 65536) && !(decide (page ≤ p) && decide (p < page + count)))) ∧
  (∀ (s u : State) (v : Word) (t q : Nat), s.isOn 301 = true → t = fget TILE_MOVE.DIE v * 16 + fget TILE_MOVE.SLOT v →
    q = fget TILE_MOVE.DIE v * 17 + fget TILE_MOVE.POSITION v →
    u = (((s.setF TILE_MOVE.adr TILE_MOVE.DIE (fget TILE_MOVE.DIE v)).setF TILE_MOVE.adr TILE_MOVE.SLOT (fget TILE_MOVE.SLOT v)).setF
      TILE_MOVE.adr TILE_MOVE.POSITION (fget TILE_MOVE.POSITION v)).setF TILE_MOVE.adr TILE_MOVE.SEGMASK (fget TILE_MOVE.SEGMASK v) →
    ((16 < fget TILE_MOVE.POSITION v ∨ s.isOn q = false ∨ (∃ o, s.logTile q = some o ∧ o ≠ t) ∨
        ∃ e, e < 1024 ∧ s.has (HOME_MAP.adr e) HOME_MAP.VALID = true ∧ s.fld (HOME_MAP.adr e) HOME_MAP.LTILE = t) →
      exec (.tileMove v) s = .next ((u.setF TILE_MOVE.adr TILE_MOVE.REFUSED 1).event 7652)) ∧
    (fget TILE_MOVE.POSITION v ≤ 16 → s.isOn q = true → (s.logTile q = none ∨ s.logTile q = some t) →
      (∀ e, e < 1024 → s.has (HOME_MAP.adr e) HOME_MAP.VALID = false ∨ s.fld (HOME_MAP.adr e) HOME_MAP.LTILE ≠ t) → ∀ w : State,
      w = (match s.physTile t with
           | none => u
           | some p => if p = q then u
                       else ((numsFrom 0 16).filter fun g => nbit g (fget TILE_MOVE.SEGMASK v)).foldl (fun s g => s.moveSeg p q g) u) →
      exec (.tileMove v) s = .next ((((w.wr (TILE_MAP.adr (fget TILE_MOVE.DIE v) (fget TILE_MOVE.SLOT v)) (fput TILE_MAP.POSITION
        (fget TILE_MOVE.POSITION v) 0)).recore w (fget TILE_MOVE.DIE v)).setF TILE_MOVE.adr TILE_MOVE.REFUSED 0).event 7652))) ∧
  (∀ (s : State) (p c : Nat) (b : Word), p < 136 → c < 16 → b = BitVec.ofNat 64 (2 ^ c) →
    (∀ t, s.logTile p = some t → s.tileCore p c = t * 16 + c) ∧ (s.logTile p = none → s.tileCore p c = 0x2000 + p * 16 + c) ∧
    (s.isOn p = true →
      (nbit c (s.rd (TILE_BOOT_RUN.adr p)).toNat = false → exec (.tileCoreStart p c) s =
        .next ((s.wr (TILE_BOOT_RUN.adr p) (s.rd (TILE_BOOT_RUN.adr p) ||| b)).runCore (s.tileCore p c)
          (s.rd (TILE_BOOT_START.adr p))) ∧ exec (.tileCoreReset p c) s = .next s) ∧
      (nbit c (s.rd (TILE_BOOT_RUN.adr p)).toNat = true → exec (.tileCoreStart p c) s = .next s ∧ exec (.tileCoreReset p c) s =
        .next ((s.wr (TILE_BOOT_RUN.adr p) (s.rd (TILE_BOOT_RUN.adr p) &&& ~~~ b)).stopCore (s.tileCore p c)))) ∧
    (s.isOn p = false → ∀ u : State, u = s.accessWake p →
      (u.dom p = 0 → exec (.tileCoreStart p c) s = .next u ∧ exec (.tileCoreReset p c) s = .next u) ∧
      (u.dom p ≠ 0 →
        exec (.tileCoreStart p c) s =
          .next { u with ctrlHeld := u.ctrlHeld ++ [⟨.svc 0, TILE_BOOT_RUN.adr p, u.rd (TILE_BOOT_RUN.adr p) ||| b⟩] } ∧
        exec (.tileCoreReset p c) s =
          .next { u with ctrlHeld := u.ctrlHeld ++ [⟨.svc 0, TILE_BOOT_RUN.adr p, u.rd (TILE_BOOT_RUN.adr p) &&& ~~~ b⟩] }))) ∧
  (∀ s : State, s.isOn 301 = true →
    (s.fld BB_WR_TYPE.adr BB_WR_TYPE.TYPE < 0x100 → exec .bbWrGo s = .next s) ∧
    (0x100 ≤ s.fld BB_WR_TYPE.adr BB_WR_TYPE.TYPE →
      (s.has BB_STAT.adr BB_STAT.FREEZE = true → 0 < s.fld BB_STAT.adr BB_STAT.DROPPED → exec .bbWrGo s = .next (s.satF BB_STAT.adr BB_STAT.DROPPED 1)) ∧
      (s.has BB_STAT.adr BB_STAT.FREEZE = true → s.fld BB_STAT.adr BB_STAT.DROPPED = 0 →
        exec .bbWrGo s = .next ((s.setF BB_STAT.adr BB_STAT.DROPPED 1).event 7653)) ∧
      ∀ w, s.has BB_STAT.adr BB_STAT.FREEZE = false → w = s.bbPtr → ∃ t : State, exec .bbWrGo s = .next t ∧
        t = { s with ctrl := t.ctrl, bb := t.bb, wptr := t.wptr } ∧ t.wptr = [(w + 1) % 8192, (w + 1) % 8192, (w + 1) % 8192] ∧
        t.fld BB_STAT.adr BB_STAT.WPTR = (w + 1) % 8192 ∧ bbGood (t.bbRec w) = true ∧ (∀ i, i ≠ w → t.bbRec i = s.bbRec i) ∧
        (t.bbRec w).take 28 = toBytes 6 s.clock.aon.toNat ++ toBytes 2 (s.fld BB_WR_TYPE.adr BB_WR_TYPE.TYPE) ++
          toBytes 8 (if s.isOn 302 = true then s.clock.gt.toNat else 0) ++ toBytes 8 (s.rd BB_WR_DATA_0.adr).toNat ++
          toBytes 4 (s.rd BB_WR_DATA_1.adr).toNat) ∧
    (∀ a b c, s.wptr = [a, b, c] → (a = b ∨ a = c → a < 8192 → s.bbPtr = a) ∧ (a ≠ b → b = c → b < 8192 → s.bbPtr = b)))

/-- O55. R442, R444 and R457 to R459.  That an effect happens at the start and its result shows at the end, that programming
only clears bits, and the codes of a source that cannot be read outside LOAD, are the model's choices (assumption log entries
22, 43 and 44, and NOTES.md). -/
def Obligations.FuseCommandsAndFlash : Prop :=
  (∀ s : State, s.isOn 301 = false ∨ s.has FUSE_CMD.adr FUSE_CMD.BUSY = true → ∀ v,
    ∀ row ∈ [Instr.rollbackAdv, .revoke, .keyProg, .closeDebug, .closeUpdate, .fuseCmdInvalid v], exec row s = .next s) ∧
  (∀ (s : State) (arg slot : Nat), s.isOn 301 = true → s.has FUSE_CMD.adr FUSE_CMD.BUSY = false → arg = (s.rd FUSE_ARG.adr).toNat →
    slot = nbits 49 48 arg →
    let ends (cmd k : Nat) : Host.Outcome State Fault Refusal :=
      .next (((s.setF FUSE_CMD.adr FUSE_CMD.RESULT k).event 7651).bbWrite 8 (toBytes 1 cmd ++ toBytes 1 k))
    let starts (u : State) (cmd : Nat) (h : List Word) : Host.Outcome State Fault Refusal :=
      .next (({ u with fuse := some ⟨cmd, s.rd FUSE_ARG.adr, h⟩ } : State).setF FUSE_CMD.adr FUSE_CMD.BUSY 1)
    (∀ v, fget FUSE_CMD.CONFIRM v ≠ 0x4B58 → exec (.fuseCmdInvalid v) s = ends (fget FUSE_CMD.CMD v) 2) ∧
    (∀ v, fget FUSE_CMD.CONFIRM v = 0x4B58 →
      ((fget FUSE_CMD.CMD v = 0 ∨ 5 < fget FUSE_CMD.CMD v) → exec (.fuseCmdInvalid v) s = ends (fget FUSE_CMD.CMD v) 1) ∧
      ∀ x ∈ [(1, Instr.rollbackAdv), (2, .revoke), (3, .keyProg), (4, .closeDebug), (5, .closeUpdate)], fget FUSE_CMD.CMD v = x.1 →
        exec (.fuseCmdInvalid v) s = exec x.2 s) ∧
    (s.booted.rollback < nbits 6 0 arg → exec .rollbackAdv s = ends 1 1) ∧
    (nbits 6 0 arg ≤ s.booted.rollback → exec .rollbackAdv s = starts s 1 []) ∧
    (s.goodSlots = [slot] → exec .revoke s = ends 2 1) ∧
    (s.goodSlots ≠ [slot] → exec .revoke s = starts s 2 []) ∧
    ((nbit slot (s.fuseSt FUSE_STATE.PROG) = true ∨ nbit slot (s.fuseSt FUSE_STATE.DAMAGED) = true ∨ s.fuseSt FUSE_STATE.UPDATE_CLOSE = 1) →
      exec .keyProg s = ends 3 1) ∧
    (nbit slot (s.fuseSt FUSE_STATE.PROG) = false → nbit slot (s.fuseSt FUSE_STATE.DAMAGED) = false → s.fuseSt FUSE_STATE.UPDATE_CLOSE = 0 →
      ∀ u : State,
        (∀ (bs : List Byte) (pz : Bool), s.engineRead (0xF000000000 + nbits 22 0 arg) 64 = (u, some (bs, pz)) →
          exec .keyProg s = starts u 3 (hashWords bs)) ∧
        (s.engineRead (0xF000000000 + nbits 22 0 arg) 64 = (u, none) → exec .keyProg s = starts u 3 [])) ∧
    exec .closeDebug s = starts s 4 [] ∧ exec .closeUpdate s = starts s 5 []) ∧
  (∀ s : State, (s.fuse = none → exec .fuseCmdDone s = .next s) ∧
    ∀ (j : FuseJob) (n slot : Nat), s.fuse = some j → n = nbits 6 0 j.arg.toNat → slot = nbits 49 48 j.arg.toNat → ∃ u : State,
      exec .fuseCmdDone s = .next ((u.event 7651).bbWrite 8 (toBytes 1 j.cmd ++ toBytes 1 0)) ∧
      u = { s with ctrl := u.ctrl, fuse := none } ∧ u.fld FUSE_CMD.adr FUSE_CMD.BUSY = 0 ∧ u.fld FUSE_CMD.adr FUSE_CMD.RESULT = 0 ∧
      (j.cmd = 1 → s.fuseSt FUSE_STATE.LEVEL < n → u.rd FUSE_ROLLBACK.adr = s.rd FUSE_ROLLBACK.adr ||| BitVec.ofNat 64 (2 ^ n - 1) ∧
        u.fuseSt FUSE_STATE.LEVEL = ((numsFrom 0 64).takeWhile fun i => (u.rd FUSE_ROLLBACK.adr).getLsbD i).length) ∧
      (j.cmd = 1 → n ≤ s.fuseSt FUSE_STATE.LEVEL → u.rd FUSE_STATE.adr = s.rd FUSE_STATE.adr ∧ u.rd FUSE_ROLLBACK.adr = s.rd FUSE_ROLLBACK.adr) ∧
      (j.cmd = 2 → u.fuseSt FUSE_STATE.REVOKED = s.fuseSt FUSE_STATE.REVOKED ||| 2 ^ slot) ∧
      (j.cmd = 3 → u.fuseSt FUSE_STATE.PROG = s.fuseSt FUSE_STATE.PROG ||| 2 ^ slot ∧
        ∀ w, w < 8 → u.rd (KEYHASH.adr slot w) = s.rd (KEYHASH.adr slot w) ||| j.hash.getD w 0) ∧
      (j.cmd = 4 → u.fuseSt FUSE_STATE.DEBUG_CLOSE = 1) ∧
      (j.cmd = 5 → u.fuseSt FUSE_STATE.UPDATE_CLOSE = 1 ∧
        ∀ w, w < 8 → u.rd (CLOSED_DIGEST.adr w) = s.rd (CLOSED_DIGEST.adr w) ||| s.booted.digest.getD w 0) ∧
      (∀ i, i < 18 → (s.rd FUSE_STATE.adr).getLsbD i = true → (i < 8 ∨ 15 < i) → (u.rd FUSE_STATE.adr).getLsbD i = true) ∧
      (∀ i, (s.rd FUSE_ROLLBACK.adr).getLsbD i = true → (u.rd FUSE_ROLLBACK.adr).getLsbD i = true)) ∧
  (∀ s : State, s.isOn 301 = false ∨ s.has SIG_CMD.adr SIG_CMD.GO = true → ∀ k r, ∀ row ∈ [Instr.verify r, .sigLoad k r, .attest],
    exec row s = .next s) ∧
  (∀ (s : State) (remote : List Byte), s.isOn 301 = true → s.has SIG_CMD.adr SIG_CMD.GO = false →
    let runs (u : State) (c : Nat) : Host.Outcome State Fault Refusal :=
      .next (({ u with sigCode := some c } : State).setF SIG_CMD.adr SIG_CMD.GO 1)
    (∀ (u v : State) (h : List Byte) (src : Nat), u = (s.setF SIG_CMD.adr SIG_CMD.OP 1).setF SIG_CMD.adr SIG_CMD.KIND 0 →
      src = s.fld SIG_SRC.adr SIG_SRC.ADDR →
      (u.imgRead src remote 0 4096 = (v, none) → ∃ c, 1 ≤ c ∧ c ≤ 9 ∧ exec (.verify remote) s = runs v.tick c) ∧
      (u.imgRead src remote 0 4096 = (v, some h) →
        (v.checkHeader h true ≠ 0 → exec (.verify remote) s = runs v (v.checkHeader h true)) ∧
        (v.checkHeader h true = 0 → ∀ w,
          (v.imgRead src remote 4096 (imgLen h) = (w, none) → ∃ c, 1 ≤ c ∧ c ≤ 9 ∧ exec (.verify remote) s = runs w.tick c) ∧
          ∀ body, v.imgRead src remote 4096 (imgLen h) = (w, some body) →
            exec (.verify remote) s = runs w (if bodyGood h body = true then 0 else 7)))) ∧
    (∀ (k : Nat) (u v : State) (src : Nat),
      u = (s.setF SIG_CMD.adr SIG_CMD.OP 2).setF SIG_CMD.adr SIG_CMD.KIND k → src = s.fld SIG_SRC.adr SIG_SRC.ADDR →
      (u.imgRead src remote 0 4096 = (v, none) → exec (.sigLoad k remote) s = runs v 0xB) ∧
      ∀ h, u.imgRead src remote 0 4096 = (v, some h) →
        (v.checkHeader h true ≠ 0 → exec (.sigLoad k remote) s = runs v (v.checkHeader h true)) ∧
        (v.checkHeader h true = 0 →
          ((imgSections h).find? (fun x => x.kind == k) = none → ∃ c, c ≠ 0 ∧ exec (.sigLoad k remote) s = runs v.tick c) ∧
          ∀ (y : Section) (w x : State) (dst : Nat), (imgSections h).find? (fun x => x.kind == k) = some y →
            dst = (if s.fld SIG_DST.adr SIG_DST.ADDR = 0 then y.dest else s.fld SIG_DST.adr SIG_DST.ADDR) →
            (v.imgRead src remote (4096 + y.off) y.len = (w, none) → exec (.sigLoad k remote) s = runs w 0xB) ∧
            ∀ data, v.imgRead src remote (4096 + y.off) y.len = (w, some data) →
              (inSram dst y.len = true → (∃ p ∈ pagesOf dst y.len, w.svcPageX (p * 65536) = true) →
                exec (.sigLoad k remote) s = runs w (if Config.sha512 data = y.digest then 0xA else 8)) ∧
              ((inSram dst y.len = false ∨ ∀ p ∈ pagesOf dst y.len, w.svcPageX (p * 65536) = false) → x = w.engineWrite dst data →
                (Config.sha512 data ≠ y.digest → exec (.sigLoad k remote) s = runs x 8) ∧
                (Config.sha512 data = y.digest → exec (.sigLoad k remote) s = runs (x.loaded y dst) 0)))) ∧
    (∀ (u v : State) (nonce : List Byte), u = (s.setF SIG_CMD.adr SIG_CMD.OP 3).setF SIG_CMD.adr SIG_CMD.KIND 0 →
      (u.engineRead (s.fld SIG_SRC.adr SIG_SRC.ADDR) 64 = (v, none) ∨ u.engineRead (s.fld SIG_SRC.adr SIG_SRC.ADDR) 64 = (v, some (nonce, true)) →
        ∃ c, 1 ≤ c ∧ c ≤ 9 ∧ exec .attest s = runs v.tick c) ∧
      (u.engineRead (s.fld SIG_SRC.adr SIG_SRC.ADDR) 64 = (v, some (nonce, false)) → exec .attest s =
        runs (v.engineWrite (v.fld SIG_DST.adr SIG_DST.ADDR) (v.report nonce ++ Config.identitySign (Config.sha512 (v.report nonce)))) 0))) ∧
  (∀ s : State, (s.sigCode = none → exec .sigDone s = .next s) ∧
    ∀ c, s.sigCode = some c → exec .sigDone s =
      .next (((({ s with sigCode := none } : State).setF SIG_CMD.adr SIG_CMD.GO 0).setF SIG_STAT.adr SIG_STAT.CODE c).event 7649)) ∧
  (∀ (s : State) (y : Section) (dst : Nat) (c : List Word), c = Config.sha512 (hashBytes ((numsFrom 0 8).map fun w => s.rd (LOAD_CHAIN.adr w)) ++ hashBytes y.digest) →
    (s.loaded y dst).fld SIG_STAT.adr SIG_STAT.LOADS = (s.fld SIG_STAT.adr SIG_STAT.LOADS + 1) % 2 ^ 32 ∧
    (∀ w, w < 8 → (s.loaded y dst).rd (LOAD_CHAIN.adr w) = c.getD w 0) ∧
    (y.kind = 1 → ∀ p, p < 128 → (s.loaded y dst).svcPageX (p * 65536) = (s.svcPageX (p * 65536) || decide (p ∈ pagesOf dst y.len))) ∧
    (y.kind ≠ 1 → ∀ p, p < 128 → (s.loaded y dst).svcPageX (p * 65536) = s.svcPageX (p * 65536))) ∧
  (∀ s : State, s.isOn 301 = false ∨ s.has XSPI_CMD.adr XSPI_CMD.GO = true → ∀ b,
    ∀ row ∈ [Instr.xspiRead b, .xspiProgram b, .xspiErase b], exec row s = .next s) ∧
  (∀ (s u : State) (op dev o n b : Nat) (row : Instr), s.isOn 301 = true → s.has XSPI_CMD.adr XSPI_CMD.GO = false →
    (op = 1 ∧ row = .xspiRead (dev == 1) ∨ op = 2 ∧ row = .xspiProgram (dev == 1) ∨ op = 3 ∧ row = .xspiErase (dev == 1)) → dev < 2 →
    o = s.fld XSPI_ADDR.adr XSPI_ADDR.OFFSET → n = s.fld XSPI_LEN.adr XSPI_LEN.BYTES → b = s.fld XSPI_BUF.adr XSPI_BUF.ADDR →
    u = (s.setF XSPI_CMD.adr XSPI_CMD.OP op).setF XSPI_CMD.adr XSPI_CMD.DEV dev →
    let runs (v : State) (c : Nat) : Host.Outcome State Fault Refusal :=
      .next (({ v with xspiRes := some c } : State).setF XSPI_CMD.adr XSPI_CMD.GO 1)
    (op ≠ 1 → s.fuseSt FUSE_STATE.UPDATE_CLOSE = 1 → o < 0x20000000 → exec row s = runs u 1) ∧
    ((op = 1 ∨ s.fuseSt FUSE_STATE.UPDATE_CLOSE = 0 ∨ 0x20000000 ≤ o) →
      ((if dev = 0 then s.flashCap.1 else s.flashCap.2) < o + n ∨ op ≠ 3 ∧ inSram b n = false → exec row s = runs u 3) ∧
      (o + n ≤ (if dev = 0 then s.flashCap.1 else s.flashCap.2) → (op = 3 ∨ inSram b n = true) →
        (op = 1 → exec row s = runs (u.engineWrite b (u.flashBytes dev o n)) 0) ∧
        (∀ v, op = 2 → u.engineRead b n = (v, none) → exec row s = runs v 0) ∧
        (∀ v bs pz, op = 2 → u.engineRead b n = (v, some (bs, pz)) → exec row s = runs (v.flashProgram (dev * 2 ^ 32 + o) bs) 0) ∧
        (op = 3 → n = 0 → exec row s = runs u 0) ∧
        (op = 3 → 0 < n → ∃ t : State, exec row s = .next t ∧ t = { s with ctrl := t.ctrl, flash := t.flash, xspiRes := some 0 } ∧
          t.has XSPI_CMD.adr XSPI_CMD.GO = true ∧ ∀ a, t.flashByte a =
            if dev * 2 ^ 32 + o / 65536 * 65536 ≤ a ∧ a < dev * 2 ^ 32 + ((o + n - 1) / 65536 + 1) * 65536 then 0xFF else s.flashByte a)))) ∧
  (∀ (s : State) (o : Nat) (bs : List Byte) (a : Nat), (s.flashProgram o bs).flashByte a =
    if o ≤ a ∧ a < o + bs.length then s.flashByte a &&& bs.getD (a - o) 0 else s.flashByte a) ∧
  (∀ (s : State) (ok : Bool), (s.xspiRes = none → exec (.xspiDone ok) s = .next s.goAll) ∧
    ∀ c, s.xspiRes = some c → exec (.xspiDone ok) s = .next (((((({ s with xspiRes := none } : State).setF XSPI_CMD.adr XSPI_CMD.GO 0).setF
      XSPI_CMD.adr XSPI_CMD.RESULT (if ok = true ∨ c ≠ 0 then c else 2)).event 7650)).goAll))

/-- O56. R446 to R450. The images a flash or the far device returns are read whole, the model's cut. -/
def Obligations.ImageChecksAndBoot : Prop :=
  (∀ (s : State) (h : List Byte) (load : Bool) (k : Nat), k = bytesAt h 0x00C 4 →
    (imgEmpty h = true → s.checkHeader h load = 1) ∧
    (imgEmpty h = false → imgBadFormat h load = true → s.checkHeader h load = 2) ∧
    (imgEmpty h = false → imgBadFormat h load = false →
      ((3 < k ∨ nbit k (s.fuseSt FUSE_STATE.PROG) = false ∨ nbit k (s.fuseSt FUSE_STATE.REVOKED) = true ∨
        nbit k (s.fuseSt FUSE_STATE.DAMAGED) = true) → s.checkHeader h load = 3) ∧
      (k ≤ 3 → nbit k (s.fuseSt FUSE_STATE.PROG) = true → nbit k (s.fuseSt FUSE_STATE.REVOKED) = false →
        nbit k (s.fuseSt FUSE_STATE.DAMAGED) = false →
        (Config.sha512 ((h.drop 0x380).take 512) ≠ (numsFrom 0 8).map (fun w => s.rd (KEYHASH.adr k w)) → s.checkHeader h load = 4) ∧
        (Config.sha512 ((h.drop 0x380).take 512) = (numsFrom 0 8).map (fun w => s.rd (KEYHASH.adr k w)) →
          (Config.rsaGood ((h.drop 0x380).take 512) (imgDigest h) ((h.drop 0x580).take 512) = false → s.checkHeader h load = 5) ∧
          (Config.rsaGood ((h.drop 0x380).take 512) (imgDigest h) ((h.drop 0x580).take 512) = true →
            (imgRollback h < s.fuseSt FUSE_STATE.LEVEL → s.checkHeader h load = 6) ∧
            (s.fuseSt FUSE_STATE.LEVEL ≤ imgRollback h →
              (s.fuseSt FUSE_STATE.UPDATE_CLOSE = 1 → imgDigest h ≠ (numsFrom 0 8).map (fun w => s.rd (CLOSED_DIGEST.adr w)) →
                s.checkHeader h load = 9) ∧
              ((s.fuseSt FUSE_STATE.UPDATE_CLOSE = 0 ∨ imgDigest h = (numsFrom 0 8).map (fun w => s.rd (CLOSED_DIGEST.adr w))) →
                s.checkHeader h load = 0))))))) ∧
  (∀ (s : State) (h body : List Byte), (s.checkHeader h false ≠ 0 → s.checkBoot h body = s.checkHeader h false) ∧
    (s.checkHeader h false = 0 → bodyGood h body = false → s.checkBoot h body = 7) ∧
    (s.checkHeader h false = 0 → bodyGood h body = true →
      ((∃ x ∈ imgSections h, (x.kind = 1 ∨ x.kind = 2) ∧ x.good body = false) → s.checkBoot h body = 8) ∧
      ((∀ x ∈ imgSections h, x.kind = 1 ∨ x.kind = 2 → x.good body = true) → s.checkBoot h body = 0))) ∧
  (∀ (s : State) (h body : List Byte), (s.bootImage h body).phase = 2 ∧ (s.bootImage h body).booted = ⟨imgDigest h, imgRollback h, imgVersion h⟩ ∧
    ((s.bootImage h body).core (s.bootImage h body).activeSvc).pc = BitVec.ofNat 64 (bytesAt h 0x020 8 / 4 * 4)) ∧
  (∀ s : State, (s.isOn 301 = false ∨ s.phase ≠ 1) → exec .bootSelect s = .next s) ∧
  (∀ s : State, s.isOn 301 = true → s.phase = 1 →
    (∀ u, s.bootTry = (u, false) → exec .bootSelect s = .next (((u.setF BOOT_STAT.adr BOOT_STAT.PHASE 3).bbWrite 5
      (toBytes 8 ((u.setF BOOT_STAT.adr BOOT_STAT.PHASE 3).rd BOOT_STAT.adr).toNat)).setF SVC_CTL.adr SVC_CTL.FAULT 1)) ∧
    (s.fuseSt FUSE_STATE.LOAD_ERR = 1 → s.bootTry = (s, false)) ∧
    (s.fuseSt FUSE_STATE.LOAD_ERR = 0 →
      ((∀ x ∈ s.candidates, (s.candidate x.1 x.2).2.1 ≠ 0) → ∃ u : State, u = { s with ctrl := u.ctrl } ∧ s.bootTry = (u, false)) ∧
      ∀ (d sl : Nat) (l r : List (Nat × Nat)) (p : Bool) (body : List Byte), s.candidates = l ++ (d, sl) :: r → d < 2 → sl < 2 →
        (∀ x ∈ l, (s.candidate x.1 x.2).2.1 ≠ 0) → s.candidate d sl = (p, 0, body) → ∃ u : State, u = { s with ctrl := u.ctrl } ∧
        exec .bootSelect s = .next (u.bootImage (s.slotHeader d sl) body) ∧ u.fld BOOT_STAT.adr BOOT_STAT.CHOSEN = l.length ∧
        u.fld BOOT_STAT.adr BOOT_STAT.DEV = d ∧ u.fld BOOT_STAT.adr BOOT_STAT.SLOT = sl ∧ u.fld BOOT_STAT.adr BOOT_STAT.PAIRED = b2n p ∧
        ∀ i, i < 4 → nbits (4 * i + 3) (4 * i) (u.fld BOOT_STAT.adr BOOT_STAT.CODES) =
          match l[i]? with
          | some x => (s.candidate x.1 x.2).2.1
          | none => if i = l.length then 0 else 15) ∧
    s.candidates = [s.straps.bootSrc % 2, 1 - s.straps.bootSrc % 2].flatMap (fun d =>
      if s.slotVersion d 0 < s.slotVersion d 1 then [(d, 1), (d, 0)] else [(d, 0), (d, 1)])) ∧
  (∀ (s : State) (img : List Byte), s.isOn 301 = true → s.phase = 3 →
    exec .recoveryRecheck s = .next s.bootTry.1 ∧
    (s.fuseSt FUSE_STATE.LOAD_ERR = 0 → s.checkBoot (img.take 4096) ((img.drop 4096).take (imgLen (img.take 4096))) = 0 →
      exec (.recoveryImage img) s = .next (s.bootImage (img.take 4096) ((img.drop 4096).take (imgLen (img.take 4096))))) ∧
    (s.fuseSt FUSE_STATE.LOAD_ERR = 1 ∨ s.checkBoot (img.take 4096) ((img.drop 4096).take (imgLen (img.take 4096))) ≠ 0 →
      exec (.recoveryImage img) s = .next s)) ∧
  (∀ (s : State) (img : List Byte), s.isOn 301 = false ∨ s.phase ≠ 3 → exec .recoveryRecheck s = .next s ∧ exec (.recoveryImage img) s = .next s) ∧
  (∀ s : State, (s.isOn 301 = false ∨ s.phase ≠ 4 ∨ s.chStat CHAIN_STAT.UP_CONN ≠ 1 → exec .bootReqResend s = .next s) ∧
    (s.isOn 301 = true → s.phase = 4 → s.chStat CHAIN_STAT.UP_CONN = 1 → exec .bootReqResend s =
      .next (s.chainAsk false (toBytes 1 0x10 ++ toBytes 1 0 ++ toBytes 1 s.chainPos ++ toBytes 1 s.chain.seq ++
        toBytes 8 (s.rd FUSE_ID_0.adr).toNat ++ List.replicate 4 0)))) ∧
  (∀ (s : State) (dev m l o : Nat) (img : List Byte), s.isOn 301 = false ∨ s.phase ≠ 4 → exec (.bootGo dev m l o img) s = .next s) ∧
  (∀ (s p u w v : State) (dev m l o c : Nat) (img : List Byte), s.isOn 301 = true → s.phase = 4 →
    p = [0, 1, 2, 3].foldl (fun s i =>
      if s.isOn (296 + i) then s else (s.setF (DOM_CTL.adr (296 + i)) DOM_CTL.OFF 0).powerUp (296 + i)) s →
    u = (p.setF RT_DEVICE.adr RT_DEVICE.DEVICE dev).setF RT_DEVICE.adr RT_DEVICE.VALID 1 →
    w = [0, 1, 2, 3].foldl (fun s i => (s.setF (RT_ENTRY.adr i 0 (m % 65536)) RT_ENTRY.CAND_0 l).setF (RT_ENTRY.adr i 0 (m % 65536))
      RT_ENTRY.CVALID 1) u →
    v = (if l < 144 then w.linkEnable l true else w) →
    c = (if v.fuseSt FUSE_STATE.LOAD_ERR = 1 then 0xF
         else v.checkBoot (img.take 4096) ((img.drop 4096).take (imgLen (img.take 4096)))) →
    (c ≠ 0 → exec (.bootGo dev m l o img) s = .next (v.chainAsk false (mkFrame 0x12 0 v.chainPos v.chain.seq c))) ∧
    (c = 0 → ∀ w, w = (v.bootImage (img.take 4096) ((img.drop 4096).take (imgLen (img.take 4096)))).setF BOOT_STAT.adr
        BOOT_STAT.CHAIN 1 → exec (.bootGo dev m l o img) s = .next (w.chainAsk false (mkFrame 0x12 0 w.chainPos w.chain.seq 0))))

/-- O57. R401, R404, R405, R411, R412, R414, R415, R417, R424 and R437.  An OFF request is a write that changes OFF; that A1, A2
and PNR pass in one command is the model's cut. -/
def Obligations.TileAndDomainStates : Prop :=
  (∀ (s : State) (p : Nat), p < 136 →
    (∀ n, (s.dom p ≠ 2 ∨ ∃ g, g < 16 ∧ s.segPolicy p g = 2) → exec (.retentionShed p n) s = .next s) ∧
    (∀ n, s.dom p = 2 → (∀ g, g < 16 → s.segPolicy p g ≠ 2) →
      let kept := ((numsFrom 0 16).filter fun g => s.segPolicy p g = 1 && !nbit g (s.fld (TILE_RET.adr p) TILE_RET.LOST)).reverse
      exec (.retentionShed p n) s = .next ((kept.take n).foldl (fun v g => (((v.eraseSeg p g).setF (TILE_RET.adr p) TILE_RET.LOST
        (v.fld (TILE_RET.adr p) TILE_RET.LOST ||| 2 ^ g)).setF (DOM_STAT.adr p) DOM_STAT.RET_LOST 1).event 7045) s)) ∧
    ((s.isOn p = false ∨ s.has (DOM_CTL.adr p) DOM_CTL.NAP_EN = false ∨ (∃ c ∈ s.tileCores p, s.heldCore c = false) ∨
        (∃ h ∈ s.power.held, h.dom = p) ∨ ((∀ c ∈ s.tileCores p, (s.core c).sleeping = false) ∧
          s.has (DOM_CTL.adr p) DOM_CTL.IDLE_LIMIT = false)) → exec (.napEntryStart p) s = .next s) ∧
    (s.isOn p = true → s.has (DOM_CTL.adr p) DOM_CTL.NAP_EN = true →
      (∀ c ∈ s.tileCores p, (s.core c).running = false ∨ (((s.core c).waiting = true ∨ (s.core c).sleeping = true) ∧
        (s.core c).sleepRes = none ∧ s.pendingAt c = false ∧ c ∉ s.woken)) →
      (∀ h ∈ s.power.held, h.dom ≠ p) → ((∃ c ∈ s.tileCores p, (s.core c).sleeping = true) ∨ s.has (DOM_CTL.adr p) DOM_CTL.IDLE_LIMIT = true) →
      exec (.napEntryStart p) s = .next (((s.setF (DOM_STAT.adr p) DOM_STAT.STATE 3).calAbandon (winBase (.tile p))).fireLevels)) ∧
    (s.isOn p = true → s.isOn 301 = true → exec (.napNow p) s = .next ((((s.setF (DOM_CTL.adr p) DOM_CTL.NAP_NOW 1).setF (DOM_STAT.adr p)
      DOM_STAT.STATE 3).calAbandon (winBase (.tile p))).fireLevels)) ∧
    ((s.isOn p = false ∨ s.isOn 301 = false) → exec (.napNow p) s = .next s) ∧
    ((s.dom p ≠ 3 ∨ s.napDrained p = false) → exec (.napEntryComplete p) s = .next s) ∧
    (s.dom p = 3 → s.napDrained p = true → ∀ u : State, u = s.napWriteBack p →
      ((∀ t ∈ s.tags, t.seg / 16 = p → t.dirty = true → s.homeNamed p (t.seg % 16) = true) → u = s) ∧
      ((u.dom p ≠ 3 ∨ ∃ t ∈ u.tags, t.seg / 16 = p ∧ t.dirty = true ∧ u.homeNamed p (t.seg % 16) = false) → exec (.napEntryComplete p) s = .next u) ∧
      (u.dom p = 3 → (∀ t ∈ u.tags, t.seg / 16 = p → t.dirty = true → u.homeNamed p (t.seg % 16) = true) →
        (p ∉ u.power.goingOff → ∃ t : State, exec (.napEntryComplete p) s = .next t ∧ t.dom p = 2 ∧ t.fld (TILE_RET.adr p) TILE_RET.LOST = 0 ∧
          t.fld (DOM_CTL.adr p) DOM_CTL.NAP_NOW = 0 ∧ t.mem = u.mem ∧ t.power.napFrom.get 0 p = u.clock.aon.toNat ∧
          (∀ c ∈ u.tileCores p, (t.core c).l1d = [] ∧ (t.core c).l1i = [] ∧ (t.core c).g = (u.core c).g ∧ (t.core c).v = (u.core c).v ∧
            (t.core c).acc = (u.core c).acc ∧ (t.core c).sys = (u.core c).sys ∧ (t.core c).etlb = (u.core c).etlb ∧ (t.core c).pc = (u.core c).pc ∧
            ((u.core c).idle = true → (t.core c).cur = (u.core c).cur) ∧ ((u.core c).idle = false → (t.core c).cur = none)) ∧
          ∀ k, k ∈ t.segLines ↔ k ∈ u.segLines ∧ ¬ (k / 4096 / 16 = p ∧ u.segPolicy p (k / 4096 % 16) = 0)) ∧
        (p ∈ u.power.goingOff → (∀ g, g < 16 → u.homeNamed p g = false) →
          ∃ t : State, exec (.napEntryComplete p) s = .next t ∧ t.dom p = 0))) ∧
    (∀ cause, cause < 16 →
      (s.dom p = 2 → ∃ t : State, exec (.napWake p cause false) s = .next t ∧ t.dom p = 4 ∧
        t.fld (LAST_WAKE.adr p) LAST_WAKE.CAUSE = cause ∧ t.fld (LAST_WAKE.adr p) LAST_WAKE.AON = s.clock.aon.toNat ∧
        t.fld (LAST_WAKE.adr p) LAST_WAKE.DURING_ENTRY = 0 ∧ t = { s with ctrl := t.ctrl, power := t.power } ∧
        (s.power.napFrom.get 0 p ≤ s.clock.aon.toNat → t.fld (NAP_RES.adr p) NAP_RES.TICKS =
          (s.fld (NAP_RES.adr p) NAP_RES.TICKS + (s.clock.aon.toNat - s.power.napFrom.get 0 p)) % 2 ^ 64)) ∧
      (s.dom p = 3 → ∃ t : State, exec (.napWake p cause false) s = .next t ∧ t.dom p = 1 ∧ t.fld (DOM_CTL.adr p) DOM_CTL.NAP_NOW = 0 ∧
        t.fld (LAST_WAKE.adr p) LAST_WAKE.CAUSE = cause ∧
        ∀ c ∈ s.tileCores p, t.core c = if (s.core c).sleeping = true then { s.core c with sleepRes := some 2 } else s.core c) ∧
      (s.dom p ≠ 2 → s.dom p ≠ 3 → exec (.napWake p cause false) s = .next s) ∧
      ∀ u : State, exec (.napEntryComplete p) s = .next u →
        ((s.dom p ≠ 3 ∨ u.dom p ≠ 2) → exec (.napWake p cause true) s = .next s) ∧
        (s.dom p = 3 → u.dom p = 2 → ∃ t : State, exec (.napWake p cause true) s = .next t ∧ t.dom p = 4 ∧
          t.fld (LAST_WAKE.adr p) LAST_WAKE.CAUSE = cause ∧ t.fld (LAST_WAKE.adr p) LAST_WAKE.DURING_ENTRY = 1 ∧
          t = { u with ctrl := t.ctrl, power := t.power })) ∧
    (s.dom p ≠ 4 → exec (.napExitComplete p) s = .next s.goAll) ∧
    (s.dom p = 4 → ∃ u : State, exec (.napExitComplete p) s = .next u.goAll ∧
      (p ∈ s.power.goingOff → (∀ g, g < 16 → s.homeNamed p g = false) → u.dom p = 0) ∧
      (p ∉ s.power.goingOff → u.dom p = 1 ∧
        ∀ c ∈ s.tileCores p, u.core c = if (s.core c).waiting = true ∨ (s.core c).sleeping = true then { s.core c with sleepRes := some 0 } else s.core c))) ∧
  (∀ (s : State) (k : Nat), k < 303 →
    (((152 ≤ k ∧ k < 296) ∨ s.isOn 301 = false) → exec (.domainOffRequest k) s = .next s ∧ exec (.domainPowerUp k) s = .next s) ∧
    ((k < 152 ∨ 296 ≤ k) → s.isOn 301 = true →
      (s.has (DOM_CTL.adr k) DOM_CTL.OFF = true → exec (.domainOffRequest k) s = .next s) ∧
      (s.has (DOM_CTL.adr k) DOM_CTL.OFF = false → (∃ t : State, exec (.domainOffRequest k) s = .next t) ∧
        ((k = 301 ∨ (k < 136 ∧ ∃ g, g < 16 ∧ s.homeNamed k g = true) ∨ ((144 ≤ k ∧ k < 152 ∨ k = 299) ∧
            (s.has CE_CTL.adr CE_CTL.ENABLE = true ∨ s.has RX_CTL.adr RX_CTL.ENABLE = true))) →
          exec (.domainOffRequest k) s = .next ((s.setF (DOM_STAT.adr k) DOM_STAT.REFUSED 1).event 7046)) ∧
        (k ≠ 301 → (k < 136 → ∀ g, g < 16 → s.homeNamed k g = false) →
            ((144 ≤ k ∧ k < 152 ∨ k = 299) → s.has CE_CTL.adr CE_CTL.ENABLE = false ∧ s.has RX_CTL.adr RX_CTL.ENABLE = false) →
          (s.dom k = 0 → exec (.domainOffRequest k) s = .next (s.setF (DOM_CTL.adr k) DOM_CTL.OFF 1)) ∧
          (k < 136 → (s.dom k = 3 ∨ s.dom k = 4) → exec (.domainOffRequest k) s = .next { s.setF (DOM_CTL.adr k) DOM_CTL.OFF 1 with
            power := { s.power with goingOff := nset s.power.goingOff k } }) ∧
          (k < 136 → s.dom k ≠ 0 → s.dom k ≠ 3 → s.dom k ≠ 4 → ∃ t : State, exec (.domainOffRequest k) s = .next t ∧ t.dom k = 0 ∧
            (∀ c ∈ s.tileCores k, t.core c = Core.reset) ∧ (∀ q, q < 32 → t.queue k q = MQueue.reset) ∧
            (∀ l ∈ t.segLines, l / 4096 / 16 ≠ k) ∧ (∀ x ∈ t.tags, x.seg / 16 ≠ k)) ∧
          (136 ≤ k → (k < 296 ∨ 299 < k) → s.dom k ≠ 0 → ∃ t : State, exec (.domainOffRequest k) s = .next t ∧ t.dom k = 0 ∧
            t.fld (DOM_STAT.adr k) DOM_STAT.RAMPING = 0 ∧ t.fld (DOM_STAT.adr k) DOM_STAT.LEVEL_NOW = 0) ∧
          (296 ≤ k → k < 300 → s.dom k ≠ 0 → (∀ n, 36 * (k - 296) ≤ n → n < 36 * (k - 296) + 36 → s.dom (152 + n) = 0) →
            ∃ t : State, exec (.domainOffRequest k) s = .next t ∧ t.dom k = 0 ∧ (∀ r ∈ t.rtWait, r.slice ≠ k - 296)))) ∧
      (s.dom k = 0 → ∃ t : State, exec (.domainPowerUp k) s = .next t ∧ t = { s with ctrl := t.ctrl, power := t.power } ∧ t.dom k = 5 ∧
        t.fld (DOM_CTL.adr k) DOM_CTL.OFF = 0 ∧ k ∉ t.power.goingOff) ∧
      (s.dom k ≠ 0 → ∃ t : State, exec (.domainPowerUp k) s = .next t ∧ t.fld (DOM_CTL.adr k) DOM_CTL.OFF = 0 ∧
        ((136 ≤ k ∨ (s.dom k ≠ 2 ∧ s.dom k ≠ 3)) → t.dom k = s.dom k) ∧
        (k < 136 → s.dom k = 2 → t.dom k = 4) ∧ (k < 136 → s.dom k = 3 → t.dom k = 1))) ∧
    (s.dom k ≠ 5 → exec (.domainPowerUpDone k) s = .next s) ∧
    (s.dom k = 5 → ∃ t : State, exec (.domainPowerUpDone k) s = .next t ∧ t.dom k = 1 ∧ t.volt k = 500 ∧
      (144 ≤ k → k < 152 → t.fld (MC_STATE.adr (k - 144)) MC_STATE.STATE = 1)) ∧
    exec (.gateHoldTimeout k) s = .next ((({ s with power := { s.power with
      held := s.power.held.map fun h => if h.dom = k then { h with expired := true } else h } } : State).ctrlRetry).goAll) ∧
    (s.dom k = 0 → exec (.regFault k) s = .next s) ∧
    (s.dom k ≠ 0 → exec (.regFault k) s =
      .next ((((s.bbWrite 3 (toBytes 2 k)).setF (DOM_STAT.adr k) DOM_STAT.REG_FAULT 1).event 7048).lose k))) ∧
  (∀ (s u : State) (k e : Nat), k < 303 → u = (s.setF (DOM_STAT.adr k) DOM_STAT.LEVEL_EFF e).setF (DOM_STAT.adr k) DOM_STAT.LIMITED
      (if e < s.fld (DOM_CTL.adr k) DOM_CTL.LEVEL then 1 else 0) → e = s.effLevel k →
    let up := s.power.ramping.filter fun j => j ≠ k
    let wt := s.power.waiting.filter fun j => j ≠ k
    let freed : State → State := fun v => match v.power.waiting with
      | [] => v
      | j :: r => if v.power.ramping.length < 32 then
          ({ v with power := { v.power with ramping := nset v.power.ramping j, waiting := r } } : State).setF (DOM_STAT.adr j) DOM_STAT.RAMPING 1
        else v
    ((levelled k = false ∨ s.isOn k = false) → exec (.levelRampStart k) s = .next s) ∧
    (levelled k = true → s.isOn k = true →
      (s.volt k < levelVolt e → up.length < 32 → exec (.levelRampStart k) s =
        .next (({ u with power := { s.power with ramping := nset up k, waiting := wt } } : State).setF (DOM_STAT.adr k) DOM_STAT.RAMPING 1)) ∧
      (s.volt k < levelVolt e → 32 ≤ up.length → exec (.levelRampStart k) s =
        .next { u with power := { s.power with ramping := up, waiting := nset wt k } }) ∧
      (levelVolt e < s.volt k → exec (.levelRampStart k) s = .next (freed
        (({ u with power := { s.power with ramping := up, waiting := wt } } : State).setF (DOM_STAT.adr k) DOM_STAT.RAMPING 1))) ∧
      (s.volt k = levelVolt e → exec (.levelRampStart k) s = .next (freed
        (({ u with power := { s.power with ramping := up, waiting := wt } } : State).setF (DOM_STAT.adr k) DOM_STAT.RAMPING 0)))) ∧
    (s.power.devHold = true → e = 0) ∧
    (s.power.devHold = false → e ≤ s.fld (DOM_CTL.adr k) DOM_CTL.LEVEL ∧ e ≤ 7 - s.power.capped.get 0 (thermalDie k) ∧ e ≤ 7 - s.power.pkgDrop ∧
      (k < 136 → s.has PCAP_POOL.adr PCAP_POOL.ENABLE = true → e ≤ s.capLevel (s.fld (TILE_ALLOC.adr k) TILE_ALLOC.TOKENS))) ∧
    (s.has (DOM_STAT.adr k) DOM_STAT.RAMPING = false → exec (.levelRampEnd k) s = .next s) ∧
    (s.has (DOM_STAT.adr k) DOM_STAT.RAMPING = true → ∀ l, l = s.fld (DOM_STAT.adr k) DOM_STAT.LEVEL_EFF →
      exec (.levelRampEnd k) s = .next (freed { ((s.setF (DOM_STAT.adr k) DOM_STAT.RAMPING 0).setF (DOM_STAT.adr k) DOM_STAT.LEVEL_NOW l) with
        power := { s.power with volt := s.power.volt.put 500 k (levelVolt l), ramping := s.power.ramping.filter fun j => j ≠ k } })))

/-- O58. R398, R418 to R422, R426 to R429, R440, R448, R465, R482 and R483.  That a request is ignored while the service
complex is off, that a pin already low resets nothing again, and the free values of a cut fuse command are the model's
choices. -/
def Obligations.DeviceStatesAndResets : Prop :=
  (∀ s : State, s.isOn 301 = false →
    exec .devReqOn s = .next s ∧ exec .devReqHold s = .next s ∧ exec .devReqDormant s = .next s ∧ exec .devReqOff s = .next s) ∧
  (∀ s : State, s.isOn 301 = true → s.devStat PWR_DEV_STAT.RESULT = 5 →
    exec .devReqHold s = .next s ∧ exec .devReqDormant s = .next s ∧ exec .devReqOff s = .next s ∧
    ((3 ≤ s.devStat PWR_DEV_STAT.POINT ∨ (s.devStat PWR_DEV_STAT.STATE = 3 ∧ s.power.devWake ≠ none)) → exec .devReqOn s = .next s) ∧
    (s.devStat PWR_DEV_STAT.POINT < 3 → s.devStat PWR_DEV_STAT.STATE = 3 → s.power.devWake = none →
      exec .devReqOn s = .next { s with power := { s.power with devWake := some ⟨3, 0⟩ } })) ∧
  (∀ s : State, s.isOn 301 = true → s.devStat PWR_DEV_STAT.RESULT ≠ 5 →
    (s.devStat PWR_DEV_STAT.STATE = 0 → exec .devReqOn s =
      .next ((((s.setF PWR_DEV_CMD.adr PWR_DEV_CMD.REQ 0).setF PWR_DEV_STAT.adr PWR_DEV_STAT.RESULT 0).setF PWR_DEV_CMD.adr
        PWR_DEV_CMD.GO 0).event 7047)) ∧
    (s.devStat PWR_DEV_STAT.STATE = 1 → ∃ u : State, exec .devReqOn s =
        .next (((u.setF PWR_DEV_STAT.adr PWR_DEV_STAT.RESULT 0).setF PWR_DEV_CMD.adr PWR_DEV_CMD.GO 0).event 7047) ∧
      u.devStat PWR_DEV_STAT.STATE = 0 ∧ u.fld DEV_LAST_WAKE.adr DEV_LAST_WAKE.CAUSE = 3 ∧ u.power.devHold = false) ∧
    (2 ≤ s.devStat PWR_DEV_STAT.STATE →
      exec .devReqOn s = .next (((s.setF PWR_DEV_CMD.adr PWR_DEV_CMD.REQ 0).setF PWR_DEV_STAT.adr PWR_DEV_STAT.RESULT 6).event 7046) ∧
      exec .devReqHold s = .next (((s.setF PWR_DEV_CMD.adr PWR_DEV_CMD.REQ 1).setF PWR_DEV_STAT.adr PWR_DEV_STAT.RESULT 6).event 7046) ∧
      exec .devReqDormant s = .next (((s.setF PWR_DEV_CMD.adr PWR_DEV_CMD.REQ 2).setF PWR_DEV_STAT.adr PWR_DEV_STAT.RESULT 6).event 7046)) ∧
    (s.devStat PWR_DEV_STAT.STATE < 2 →
      (∃ t : State, exec .devReqHold s = .next t ∧ t.devStat PWR_DEV_STAT.STATE = 3 ∧ t.devStat PWR_DEV_STAT.RESULT = 5 ∧
        t.devStat PWR_DEV_STAT.POINT = 0 ∧ t.fld PWR_DEV_CMD.adr PWR_DEV_CMD.REQ = 1 ∧ t.power.devDorm = false ∧
        ((∀ i, i < 64 → fset? WW_SLOT.ENABLE (s.rd (WW_SLOT.adr i)) = false) →
          ∀ p, p < 136 → t.dom p = if s.dom p = 1 then 3 else s.dom p)) ∧
      ((s.has CE_CTL.adr CE_CTL.ENABLE = true ∨ s.has RX_CTL.adr RX_CTL.ENABLE = true) → exec .devReqDormant s =
        .next (((s.setF PWR_DEV_CMD.adr PWR_DEV_CMD.REQ 2).setF PWR_DEV_STAT.adr PWR_DEV_STAT.RESULT 3).event 7046)) ∧
      (s.has CE_CTL.adr CE_CTL.ENABLE = false → s.has RX_CTL.adr RX_CTL.ENABLE = false →
        ((∀ i, i < 64 → fset? WW_SLOT.ENABLE (s.rd (WW_SLOT.adr i)) = true → fget WW_SLOT.ACTION (s.rd (WW_SLOT.adr i)) ≠ 0 →
            aonSource (fget WW_SLOT.SOURCE (s.rd (WW_SLOT.adr i))) = false) →
          exec .devReqDormant s =
            .next (((s.setF PWR_DEV_CMD.adr PWR_DEV_CMD.REQ 2).setF PWR_DEV_STAT.adr PWR_DEV_STAT.RESULT 4).event 7046)) ∧
        (∀ i, i < 64 → fset? WW_SLOT.ENABLE (s.rd (WW_SLOT.adr i)) = true → fget WW_SLOT.ACTION (s.rd (WW_SLOT.adr i)) ≠ 0 →
            aonSource (fget WW_SLOT.SOURCE (s.rd (WW_SLOT.adr i))) = true →
          ∃ t : State, exec .devReqDormant s = .next t ∧ t.devStat PWR_DEV_STAT.STATE = 3 ∧ t.devStat PWR_DEV_STAT.RESULT = 5 ∧
            t.devStat PWR_DEV_STAT.POINT = 0 ∧ t.fld PWR_DEV_CMD.adr PWR_DEV_CMD.REQ = 2 ∧ t.power.devDorm = true))) ∧
    (∃ t : State, exec .devReqOff s = .next t ∧ s.fuseCut.OffNow t)) ∧
  (∀ s : State, s.fuse = none → s.fuseCut = s) ∧
  (∀ (s : State) (pt : Nat) (aban : State → State), pt = s.devStat PWR_DEV_STAT.POINT → aban = (fun u =>
      ((((u.setF PWR_DEV_STAT.adr PWR_DEV_STAT.STATE 0).setF PWR_DEV_STAT.adr PWR_DEV_STAT.POINT 0).setF PWR_DEV_STAT.adr
        PWR_DEV_STAT.RESULT 2).setF PWR_DEV_CMD.adr PWR_DEV_CMD.GO 0).event 7047) →
    (s.devStat PWR_DEV_STAT.STATE ≠ 3 → exec .devEntryPoint s = .next s ∧ exec .devEntryComplete s = .next s) ∧
    (s.devStat PWR_DEV_STAT.STATE = 3 →
      (pt = 0 → (∃ p, p < 136 ∧ s.dom p ≠ 0 ∧ s.dom p ≠ 2) → exec .devEntryPoint s = .next s.napTiles) ∧
      (pt = 0 → (∀ p, p < 136 → s.dom p = 0 ∨ s.dom p = 2) →
        (∀ w, s.power.devWake = some w → w.cause < 16 → w.slot < 64 → (∀ p ∈ s.power.devNapped, p < 136) → ∃ u : State,
          exec .devEntryPoint s = .next (aban u) ∧ u.power.devWake = none ∧
          u.fld DEV_LAST_WAKE.adr DEV_LAST_WAKE.CAUSE = w.cause ∧ u.fld DEV_LAST_WAKE.adr DEV_LAST_WAKE.SLOT = w.slot ∧
          ∀ p ∈ s.power.devNapped, s.dom p = 2 → u.dom p = 4) ∧
        (s.power.devWake = none → s.power.devDorm = false → ∃ u : State,
          exec .devEntryPoint s = .next (s.liveLinks.foldl (fun v n => v.askAgain n) u) ∧
          u.devStat PWR_DEV_STAT.POINT = 1 ∧ u.power.devHold = true ∧ u.power.devLinks = s.liveLinks ∧
          ∀ k, k < 302 → levelled k = true → s.isOn k = true → u.fld (DOM_STAT.adr k) DOM_STAT.LEVEL_EFF = 0) ∧
        (s.power.devWake = none → s.power.devDorm = true → ∃ u v : State, v = s.flushSlices.setF PWR_DEV_STAT.adr PWR_DEV_STAT.POINT 1 ∧
          u = { v with power := { v.power with devLinks := v.liveLinks } } ∧
          exec .devEntryPoint s = .next (v.liveLinks.foldl (fun v n => v.askAgain n) u))) ∧
      (((pt = 1) ∨ (pt = 2 ∧ s.power.devDorm = true)) → s.power.devWake ≠ none → ∃ u : State, exec .devEntryPoint s = .next (aban u) ∧
        u.power.devWake = none ∧ u.power.devNapped = [] ∧ u.power.devLinks = []) ∧
      (pt = 1 → s.power.devWake = none →
        (s.power.devDorm = false → s.holdQuiet = true → exec .devEntryPoint s = .next (s.setF PWR_DEV_STAT.adr PWR_DEV_STAT.POINT 2)) ∧
        (s.power.devDorm = false → s.holdQuiet = false → exec .devEntryPoint s = .next s) ∧
        (s.power.devDorm = true → exec .devEntryPoint s = .next (((numsFrom 0 144).foldl (fun v n => if v.dom (152 + n) = 0 then v
          else v.linkLost n) s).setF PWR_DEV_STAT.adr PWR_DEV_STAT.POINT 2))) ∧
      (pt = 2 → s.power.devWake = none → s.power.devDorm = true →
        ∃ t : State, exec .devEntryPoint s = .next t ∧ t.devStat PWR_DEV_STAT.POINT = 3 ∧
          t.fld GT_AT_SLEEP.adr GT_AT_SLEEP.GT = s.clock.gt.toNat ∧ t.fld AON_AT_SLEEP.adr AON_AT_SLEEP.COUNT = s.clock.aon.toNat ∧
          t.fld PERIOD_AT_SLEEP.adr PERIOD_AT_SLEEP.PERIOD = s.fld AON_PERIOD.adr AON_PERIOD.PERIOD ∧
          ∀ d, d < 8 → s.isOn (144 + d) = true → s.mcState d = 2 → t.mcState d = 3) ∧
      ((3 ≤ pt ∨ (pt = 2 ∧ s.power.devDorm = false)) → exec .devEntryPoint s = .next s) ∧
      ((pt ≠ if s.power.devDorm = true then 3 else 2) → exec .devEntryComplete s = .next s) ∧
      ((pt = if s.power.devDorm = true then 3 else 2) → s.power.devWake ≠ none → ∃ u : State, exec .devEntryComplete s = .next (aban u) ∧
        u.power.devWake = none ∧ u.power.devNapped = [] ∧ u.power.devLinks = []) ∧
      (s.power.devDorm = false → pt = 2 → s.power.devWake = none → exec .devEntryComplete s =
        .next ((((s.setF PWR_DEV_STAT.adr PWR_DEV_STAT.STATE 1).setF PWR_DEV_STAT.adr PWR_DEV_STAT.RESULT 0).setF PWR_DEV_CMD.adr
          PWR_DEV_CMD.GO 0).event 7047)) ∧
      (s.power.devDorm = true → pt = 3 → s.power.devWake = none → ∀ v w : State,
        v = ((((s.setF PWR_DEV_STAT.adr PWR_DEV_STAT.STATE 2).setF PWR_DEV_STAT.adr PWR_DEV_STAT.POINT 4).setF PWR_DEV_STAT.adr
          PWR_DEV_STAT.RESULT 0).setF PWR_DEV_CMD.adr PWR_DEV_CMD.GO 0).event 7047 →
        w = (numsFrom 136 8 ++ numsFrom 296 5 ++ [302]).foldl (fun x k => if x.dom k = 0 then x else x.lose k) v →
        ∃ t : State, exec .devEntryComplete s = .next t ∧ t.devStat PWR_DEV_STAT.STATE = w.devStat PWR_DEV_STAT.STATE ∧
          (∀ k, (144 ≤ k ∧ k < 152) ∨ k = 301 → t.dom k = if w.dom k = 1 then 2 else w.dom k) ∧
          ∀ k, (136 ≤ k ∧ k < 144) ∨ (296 ≤ k ∧ k < 301) ∨ k = 302 → t.dom k = w.dom k))) ∧
  (∀ (s : State) (i : Nat), i < 64 →
    ((s.devStat PWR_DEV_STAT.STATE = 0 ∨ 4 ≤ s.devStat PWR_DEV_STAT.STATE ∨
      (s.devStat PWR_DEV_STAT.STATE = 3 ∧ s.power.devWake ≠ none)) → exec (.deviceWake i false) s = .next s) ∧
    (s.devStat PWR_DEV_STAT.STATE = 1 → ∃ t : State, exec (.deviceWake i false) s = .next t ∧ t.devStat PWR_DEV_STAT.STATE = 0 ∧
      t.fld DEV_LAST_WAKE.adr DEV_LAST_WAKE.CAUSE = 1 ∧ t.fld DEV_LAST_WAKE.adr DEV_LAST_WAKE.SLOT = i ∧ t.power.devHold = false) ∧
    (s.devStat PWR_DEV_STAT.STATE = 2 → ∃ u : State, u = (s.wr DEV_LAST_WAKE.adr (lastWake 1 i s.clock.aon.toNat false)).setF
        PWR_DEV_STAT.adr PWR_DEV_STAT.STATE 4 ∧ exec (.deviceWake i false) s = .next { u with out := u.out ++ [.wakeOut] }) ∧
    (s.devStat PWR_DEV_STAT.STATE = 3 → s.power.devWake = none →
      exec (.deviceWake i false) s = .next { s with power := { s.power with devWake := some ⟨1, i⟩ } }) ∧
    ∀ v : State, exec .devEntryComplete s = .next v →
      ((s.devStat PWR_DEV_STAT.STATE ≠ 3 ∨ v.devStat PWR_DEV_STAT.STATE ≠ 2) → exec (.deviceWake i true) s = .next s) ∧
      (s.devStat PWR_DEV_STAT.STATE = 3 → v.devStat PWR_DEV_STAT.STATE = 2 → ∃ t : State, exec (.deviceWake i true) s = .next t ∧
        t.devStat PWR_DEV_STAT.STATE = 4 ∧ t.fld DEV_LAST_WAKE.adr DEV_LAST_WAKE.CAUSE = 1 ∧
        t.fld DEV_LAST_WAKE.adr DEV_LAST_WAKE.SLOT = i ∧ t.fld DEV_LAST_WAKE.adr DEV_LAST_WAKE.DURING_ENTRY = 1)) ∧
  (∀ s : State,
    (s.devStat PWR_DEV_STAT.STATE ≠ 4 → exec .dormantExitComplete s = .next s) ∧
    (s.devStat PWR_DEV_STAT.STATE = 4 → ∃ u v w : State,
      v = (numsFrom 0 144).foldl (fun v n => if v.lctl n LNK_CTL.PWR_REQ = 2 then v else v.linkWake n) u ∧
      w = (if v.power.devHold = true then v.holdEnd else v) ∧
      exec .dormantExitComplete s = .next ((((({ w with power := { w.power with devDorm := false, devLinks := [], devNapped := [] } } :
        State).setF PWR_DEV_STAT.adr PWR_DEV_STAT.STATE 0).setF PWR_DEV_STAT.adr PWR_DEV_STAT.RESULT 0).setF PWR_DEV_CMD.adr
          PWR_DEV_CMD.GO 0).event 7047) ∧
      u.dom 301 = 1 ∧ (s.has (DOM_CTL.adr 302) DOM_CTL.OFF = false → u.dom 302 = 1) ∧ u.aonPend = [] ∧
      (∀ k, (136 ≤ k ∧ k < 144) ∨ (296 ≤ k ∧ k < 301) → s.has (DOM_CTL.adr k) DOM_CTL.OFF = false → u.dom k = 1) ∧
      ∀ d, d < 8 → s.dom (144 + d) = 2 → u.dom (144 + d) = 1 ∧ (s.mcState d = 3 → u.mcState d = 2))) ∧
  (∀ (s u : State) (v : Word) (src dst n : Nat), src = fget PCAP_XFER.FROM v → dst = fget PCAP_XFER.TO v → n = fget PCAP_XFER.AMOUNT v →
    u = ((s.setF PCAP_XFER.adr PCAP_XFER.AMOUNT n).setF PCAP_XFER.adr PCAP_XFER.FROM src).setF PCAP_XFER.adr PCAP_XFER.TO dst →
    ((s.isOn 301 = false ∨ s.has PCAP_XFER.adr PCAP_XFER.GO = true) → exec (.pcapXfer v) s = .next s) ∧
    (s.isOn 301 = true → s.has PCAP_XFER.adr PCAP_XFER.GO = false →
      (s.tokens src < n → exec (.pcapXfer v) s = .next (u.setF PCAP_XFER.adr PCAP_XFER.REFUSED 1)) ∧
      (n ≤ s.tokens src → ((src ≠ 255 ∧ 136 ≤ src) ∨ (dst ≠ 255 ∧ 136 ≤ dst)) → exec (.pcapXfer v) s = .next u) ∧
      (n ≤ s.tokens src → (src = 255 ∨ src < 136) → (dst = 255 ∨ dst < 136) → ∀ t : State,
        t = ((u.setTokens src (s.tokens src - n)).setF PCAP_XFER.adr PCAP_XFER.REFUSED 0).setF PCAP_XFER.adr PCAP_XFER.GO 1 →
        exec (.pcapXfer v) s = .next (State.relevel { t with power := { t.power with xferWait := decide (t.capOf src < u.capOf src) } })))) ∧
  (∀ (s u : State) (a b : Nat), a = s.fld PCAP_XFER.adr PCAP_XFER.FROM → b = s.fld PCAP_XFER.adr PCAP_XFER.TO →
    u = { s with power := { s.power with xferWait := false } } →
    (s.has PCAP_XFER.adr PCAP_XFER.GO = false → exec .pcapXferComplete s = .next s) ∧
    (s.has PCAP_XFER.adr PCAP_XFER.GO = true → s.power.xferWait = true → s.isOn a = true → levelVolt (s.effLevel a) < s.volt a →
      exec .pcapXferComplete s = .next s) ∧
    (s.has PCAP_XFER.adr PCAP_XFER.GO = true → (s.power.xferWait = false ∨ s.isOn a = false ∨ s.volt a ≤ levelVolt (s.effLevel a)) →
      exec .pcapXferComplete s = .next (((u.setTokens b (s.tokens b + s.fld PCAP_XFER.adr PCAP_XFER.AMOUNT)).setF PCAP_XFER.adr
        PCAP_XFER.GO 0).relevel.event 7049))) ∧
  (∀ (s : State) (w lim : Nat), lim = s.fld PKG_CTL.adr PKG_CTL.LIMIT_W →
    ((s.isOn 301 = false ∨ s.has PKG_CTL.adr PKG_CTL.ENABLE = false) → exec (.pkgPowerWindow w) s = .next s) ∧
    (s.isOn 301 = true → s.has PKG_CTL.adr PKG_CTL.ENABLE = true →
      (lim < w → exec (.pkgPowerWindow w) s = .next ((({ s with power := { s.power with pkgDrop := min 7 (s.power.pkgDrop + 1), pkgBelow := 0 } } :
        State).setF PKG_CTL.adr PKG_CTL.ENGAGED 1).relevel.event 7044)) ∧
      (w ≤ lim → lim * 95 ≤ w * 100 → exec (.pkgPowerWindow w) s = .next { s with power := { s.power with pkgBelow := 0 } }) ∧
      (w ≤ lim → w * 100 < lim * 95 → s.power.pkgBelow < 9 →
        exec (.pkgPowerWindow w) s = .next { s with power := { s.power with pkgBelow := s.power.pkgBelow + 1 } }) ∧
      (w ≤ lim → w * 100 < lim * 95 → 9 ≤ s.power.pkgBelow → 1 < s.power.pkgDrop → exec (.pkgPowerWindow w) s =
        .next (State.relevel { s with power := { s.power with pkgDrop := s.power.pkgDrop - 1, pkgBelow := 0 } })) ∧
      (w ≤ lim → w * 100 < lim * 95 → 9 ≤ s.power.pkgBelow → s.power.pkgDrop ≤ 1 → exec (.pkgPowerWindow w) s =
        .next (({ s with power := { s.power with pkgDrop := 0, pkgBelow := 0 } } : State).setF PKG_CTL.adr PKG_CTL.ENGAGED 0).relevel))) ∧
  (∀ (s : State) (die : Nat) (temps : List (BitVec 16)) (ms : Bool) (lim : Int) (cur bit : Nat), die < 12 →
    lim = s.fld THERM_CTL.adr THERM_CTL.THROTTLE_C * 16 → cur = s.power.capped.get 0 die →
    bit = (if die < 8 then die else 16 + (die - 8)) →
    (s.isOn 301 = false → exec (.thermalStep die temps ms) s = .next s) ∧
    (s.isOn 301 = true → temps.length = (dieSensors die).length →
      ((∃ x ∈ temps, lim < x.toInt) → ∃ v : State,
        exec (.thermalStep die temps ms) s = .next (if cur = 0 then v.relevel.event 7043 else v.relevel) ∧
        v.power.capped.get 0 die = min 7 (cur + 1) ∧ (v.rd THERM_CTL.adr).getLsbD bit = true) ∧
      ((∀ x ∈ temps, x.toInt ≤ lim) → (ms = false ∨ cur = 0 ∨ ∃ x ∈ temps, lim - 32 < x.toInt) →
        exec (.thermalStep die temps ms) s = .next (s.withTemps die temps)) ∧
      ((∀ x ∈ temps, x.toInt ≤ lim - 32) → ms = true → cur ≠ 0 → ∃ v : State, exec (.thermalStep die temps ms) s = .next v.relevel ∧
        v.power.capped.get 0 die = cur - 1 ∧ (cur = 1 → (v.rd THERM_CTL.adr).getLsbD bit = false)))) ∧
  (∀ (s : State) (cause : Nat),
    ((s.power.aonGood = false ∨ cause < 2 ∨ 4 < cause ∨ (cause = 2 ∧ s.power.rstLow = true) ∨ (cause = 3 ∧ s.power.powerGood = false)) →
      exec (.deviceReset cause) s = .next s) ∧
    (s.power.aonGood = true → 2 ≤ cause → cause ≤ 4 → (cause = 2 → s.power.rstLow = false) → (cause = 3 → s.power.powerGood = true) →
      ∃ t : State, exec (.deviceReset cause) s = .next t ∧ (s.bbWrite 1 (toBytes 1 cause)).fuseCut.OffNow t ∧
        t.power.devOff = true ∧ (t.power.rstLow = true ↔ s.power.rstLow = true ∨ cause = 2) ∧
        (t.power.powerGood = true ↔ s.power.powerGood = true ∧ cause ≠ 3)) ∧
    ((s.power.aonGood = false ∨ s.power.powerGood = false) → exec .pwrgdMainFall s = .next s) ∧
    (s.power.aonGood = true → s.power.powerGood = true → exec .pwrgdMainFall s = exec (.deviceReset 3) s)) ∧
  (∀ (s v u : State) (k : Nat), k < 256 → v = s.bbWrite 2 (toBytes 2 k ++ toBytes 2 1840) →
    u = { v with power := { v.power with thermTrip := true }, out := v.out ++ [.thermTrip] } →
    (s.power.aonGood = false → exec (.thermalTrip k) s = .next s) ∧
    (s.power.aonGood = true → ∃ t : State, exec (.thermalTrip k) s = .next t ∧ (u.bbWrite 1 (toBytes 1 4)).fuseCut.OffNow t ∧
      t.power.thermTrip = true ∧ Out.thermTrip ∈ t.out)) ∧
  (∀ (s : State) (brown ok : Bool) (damage : List (Nat × List Byte)) (ptr : List Nat), ∃ t : State,
    exec (.coldReset brown ok damage ptr) s = .next t ∧ (∀ k, k < 303 → t.dom k = 0) ∧ t.mem = [] ∧ (∀ c, t.core c = Core.reset) ∧
    t.clock = Clock.reset ∧ t.aonPend = [] ∧ t.power.aonGood = true ∧ t.power.rstLow = true ∧ t.power.thermTrip = false ∧
    t.fld FUSE_STATE.adr FUSE_STATE.LOAD_ERR = (if ok then 0 else 1)) ∧
  (∀ (s : State) (w : Nat) (ok : Bool) (damage : List (Nat × List Byte)) (ptr : List Nat), s.wptr = [w, w, w] → w < 8192 →
    ∃ t : State, exec (.coldReset false ok damage ptr) s = .next t ∧
    (∀ i, i ≠ w → t.bbRec i = s.bbRec i) ∧ (∀ j, j < 17 → j ≠ 16 → 6 ≤ j → ((t.bbRec w).getD j 0).toNat = if j = 6 then 1 else 0) ∧
    ((t.bbRec w).getD 16 0).toNat = 0 ∧ t.wptr = [(w + 1) % 8192, (w + 1) % 8192, (w + 1) % 8192]) ∧
  (∀ s : State,
    (s.power.aonGood = true → exec .wakeIn s = .next (s.event 7040)) ∧ (s.power.aonGood = false → exec .wakeIn s = .next s) ∧
    ∃ t : State, exec .pwrgdAonFall s = .next t ∧ t.power.aonGood = false ∧ t.clock = Clock.reset ∧ (∀ k, k < 303 → t.dom k = 0) ∧
      t.bb = s.bb ∧ t.mem = [] ∧ ∀ c, t.core c = Core.reset) ∧
  ∀ (s : State) (pins : Straps) (f0 f1 : FlashAnswer),
    ((s.power.aonGood = false ∨ (s.power.rstLow = false ∧ s.power.powerGood = true)) →
      exec (.deviceResetRelease pins f0 f1) s = .next s) ∧
    (s.power.aonGood = true → (s.power.rstLow = true ∨ s.power.powerGood = false) → ∃ t : State,
      exec (.deviceResetRelease pins f0 f1) s = .next t ∧ t.straps = pins ∧ t.power.rstLow = false ∧ t.power.powerGood = true ∧
      t.dom 301 = 1 ∧ t.dom 302 = 1 ∧ t.flashCap = ((flashSize f0).1, (flashSize f1).1) ∧
      ((pins.testEn = false ∨ s.fld FUSE_STATE.adr FUSE_STATE.DEBUG_CLOSE = 1) →
        t.fld BOOT_STAT.adr BOOT_STAT.PHASE = (if 2 ≤ pins.chainRole % 4 then 4 else 1) ∧
        t.core t.activeSvc = { Core.reset with running := true, pc := 0xF100000000 }))

/-- O59. R488 to R494 and R496.  That a block PMBus transaction of LEN outside 1 to 8 is refused, that a debug word enters
crossing 15, that a clock timeout changes no state, and the free STATUS of a request that PERST discards are the model's
choices. -/
def Obligations.BoardInterfaces : Prop :=
  (∀ (s : State) (q : SmbReq) (b : Byte) (l : List Byte) (i : BitVec 16) (c : Instr),
    c ∈ [Instr.smbStatus q, .smbTemp q, .smbWake q b, .smbId q, .smbMailboxWrite q l, .smbMailboxRead q, .smbIndexWrite q i,
      .smbIndexRead q, .smbRecord q, .smbBbStat q, .smbAddr q b] →
    (¬ s.SmbOurs q → exec c s = .next s) ∧
    (s.SmbOurs q → ¬ s.SmbOk q → exec c s = .next { s with out := s.out ++ [.smbus false []] })) ∧
  (∀ (s : State) (q : SmbReq) (b : Byte) (l : List Byte) (i : BitVec 16), s.SmbOk q →
    (∃ v, v < 65536 ∧ exec (.smbStatus q) s = .next (s.smbReply (toBytes 2 v)) ∧
      (v % 2 = 1 ↔ s.power.powerGood = true ∧ s.power.rstLow = false) ∧ v / 2 % 2 = s.fld SVC_CTL.adr SVC_CTL.READY ∧
      v / 4 % 2 = s.fld SVC_CTL.adr SVC_CTL.FAULT ∧ (v / 8 % 2 = 1 ↔ s.power.thermTrip = true) ∧
      v / 16 % 8 = (if s.power.devOff = true then 3 else if s.devStat PWR_DEV_STAT.STATE < 3 then s.devStat PWR_DEV_STAT.STATE else 4) ∧
      v / 128 % 2 = s.fld BB_STAT.adr BB_STAT.CORRUPT ∧ v / 256 = if s.isOn 301 = true then s.fld BRD_SMB.adr BRD_SMB.FW_STATUS else 0) ∧
    ((∀ j, ¬ s.SensorOn j) → exec (.smbTemp q) s = .next (s.smbReply [0x00, 0x80])) ∧
    ((∃ j, s.SensorOn j) → ∃ v : BitVec 16, exec (.smbTemp q) s = .next (s.smbReply (toBytes 2 v.toNat)) ∧
      (∃ j, s.SensorOn j ∧ s.fld (TSENS.adr j) TSENS.TEMP = v.toNat) ∧
      ∀ j, s.SensorOn j → (BitVec.ofNat 16 (s.fld (TSENS.adr j) TSENS.TEMP)).toInt ≤ v.toInt) ∧
    exec (.smbWake q b) s = .next ((if b = 0xA5 then s.event 7042 else s).smbReply []) ∧
    exec (.smbId q) s = .next (s.smbReply (toBytes 8 (s.rd FUSE_ID_0.adr).toNat ++ toBytes 8 (s.rd FUSE_ID_1.adr).toNat)) ∧
    (l.length = 4 → exec (.smbMailboxWrite q l) s =
      .next (((s.setF BRD_MBOX.adr BRD_MBOX.VALUE (ofBytes l)).setF BRD_MBOX.adr BRD_MBOX.VALID 1).smbReply [])) ∧
    (l.length ≠ 4 → exec (.smbMailboxWrite q l) s = .next { s with out := s.out ++ [.smbus false []] }) ∧
    exec (.smbMailboxRead q) s = .next (s.smbReply (toBytes 4 (s.fld BRD_MBOX.adr BRD_MBOX.VALUE))) ∧
    exec (.smbIndexWrite q i) s = .next (({ s with smbIndex := i.toNat % 8192 } : State).smbReply []) ∧
    exec (.smbIndexRead q) s = .next (s.smbReply (toBytes 2 s.smbIndex)) ∧
    exec (.smbRecord q) s = .next (({ s with smbIndex := (s.smbIndex + 1) % 8192 } : State).smbReply (s.bb.get bbEmpty s.smbIndex)) ∧
    exec (.smbBbStat q) s = .next (s.smbReply (toBytes 8 (s.rd BB_STAT.adr).toNat)) ∧
    exec (.smbAddr q b) s = .next ((s.setF BRD_SMB.adr BRD_SMB.ADDR (b.toNat % 128)).smbReply [])) ∧
  (∀ s : State, exec .smbusClockTimeout s = .next s) ∧
  (∀ (s : State) (v : Word),
    ((s.isOn 301 = false ∨ s.has PMB_CMD.adr PMB_CMD.GO = true) → ∀ c ∈ [Instr.pmbSendByte v, .pmbWriteByte v, .pmbWriteWord v,
      .pmbReadByte v, .pmbReadWord v, .pmbBlockRead v, .pmbBlockWrite v, .pmbRefused v], exec c s = .next s) ∧
    (s.isOn 301 = true → s.has PMB_CMD.adr PMB_CMD.GO = false →
      exec (.pmbSendByte v) s = .next (s.pmbGo 0 0 v) ∧ exec (.pmbWriteByte v) s = .next (s.pmbGo 1 1 v) ∧
      exec (.pmbWriteWord v) s = .next (s.pmbGo 2 2 v) ∧ exec (.pmbReadByte v) s = .next (s.pmbGo 3 0 v) ∧
      exec (.pmbReadWord v) s = .next (s.pmbGo 4 0 v) ∧
      (1 ≤ fget PMB_CMD.LEN v → fget PMB_CMD.LEN v ≤ 8 → exec (.pmbBlockRead v) s = .next (s.pmbGo 5 0 v) ∧
        exec (.pmbBlockWrite v) s = .next (s.pmbGo 6 (fget PMB_CMD.LEN v) v)) ∧
      ((fget PMB_CMD.LEN v = 0 ∨ 8 < fget PMB_CMD.LEN v) →
        exec (.pmbBlockRead v) s = .next ((s.pmbSet 5 v).setF PMB_CMD.adr PMB_CMD.STATUS 5) ∧
        exec (.pmbBlockWrite v) s = .next ((s.pmbSet 6 v).setF PMB_CMD.adr PMB_CMD.STATUS 5)) ∧
      exec (.pmbRefused v) s = .next ((s.pmbSet (max 7 (fget PMB_CMD.PROTO v)) v).setF PMB_CMD.adr PMB_CMD.STATUS 5))) ∧
  (∀ (s u : State) (st : Nat) (d : Word), u = (s.setF PMB_CMD.adr PMB_CMD.GO 0).setF PMB_CMD.adr PMB_CMD.STATUS st →
    (s.has PMB_CMD.adr PMB_CMD.GO = false → exec (.pmbDone st d) s = .next s) ∧
    (s.has PMB_CMD.adr PMB_CMD.GO = true →
      ((st ≠ 0 ∨ s.fld PMB_CMD.adr PMB_CMD.PROTO < 3 ∨ 5 < s.fld PMB_CMD.adr PMB_CMD.PROTO ∨
        (s.fld PMB_CMD.adr PMB_CMD.PROTO = 5 ∧ s.fld PMB_CMD.adr PMB_CMD.LEN = 0)) → exec (.pmbDone st d) s = .next u) ∧
      (st = 0 → s.fld PMB_CMD.adr PMB_CMD.PROTO = 3 →
        exec (.pmbDone st d) s = .next (u.wr PMB_DATA.adr (BitVec.ofNat 64 (d.toNat % 2 ^ 8)))) ∧
      (st = 0 → s.fld PMB_CMD.adr PMB_CMD.PROTO = 4 →
        exec (.pmbDone st d) s = .next (u.wr PMB_DATA.adr (BitVec.ofNat 64 (d.toNat % 2 ^ 16)))) ∧
      (st = 0 → s.fld PMB_CMD.adr PMB_CMD.PROTO = 5 → s.fld PMB_CMD.adr PMB_CMD.LEN ≠ 0 → exec (.pmbDone st d) s =
        .next (u.wr PMB_DATA.adr (BitVec.ofNat 64 (d.toNat % 2 ^ (8 * s.fld PMB_CMD.adr PMB_CMD.LEN))))))) ∧
  (∀ (s : State) (r : PcieReq) (v : BitVec 32), s.isOn 300 = false → ∀ (w : Who) (o : Nat) (wr fl : Bool) (x : PW) (z : BitVec 2) (n : BitVec 6) (a b d : Nat),
    ∀ c ∈ [Instr.msiWrite v, .pcieInbound r, .pcieOutWindow w o wr x, .pcieMemRead z, .pcieMemWrite z, .pcieCfgRead z, .pcieCfgWrite z,
      .hotReset, .pcieMsixSend n, .pcieLinkChange a b d fl], exec c s = .next s ∧ exec .perstAssert s = .next s.goAll) ∧
  (∀ (s : State) (v : BitVec 32), s.isOn 300 = true →
    (v.toNat ≤ 63 → exec (.msiWrite v) s = .next (s.event (7200 + v.toNat))) ∧
    (63 < v.toNat → exec (.msiWrite v) s =
      .next ((s.setF PCIE_EVT.adr PCIE_EVT.MSI_BAD 1).event (7200 + s.fld PCIE_CTL.adr PCIE_CTL.EVT_VEC)))) ∧
  (∀ (s u : State) (r h : PcieReq) (l : List PcieReq), s.isOn 300 = true → r.bar2 = false → s.pcieHeld = h :: l →
    s.pcieDo h = (u, false) → exec (.pcieInbound r) s = .next { u with pcieHeld := h :: (l ++ [r]) }) ∧
  (∀ (s : State) (r : PcieReq), s.isOn 300 = true → r.bar2 = false → s.pcieHeld = [] →
    (r.write = true → r.data.length = 4 → r.addr = s.fld PCIE_MSI.adr PCIE_MSI.ADDR * 4 →
      exec (.pcieInbound r) s = exec (.msiWrite (BitVec.ofNat 32 (ofBytes r.data))) s) ∧
    ((r.write = true → r.data.length = 4 → r.addr ≠ s.fld PCIE_MSI.adr PCIE_MSI.ADDR * 4) →
      ((∀ k, k < 8 → ¬ s.InWindow r k) → exec (.pcieInbound r) s = .next { s with out := s.out ++ [.pcieDone 1 [] false] }) ∧
      (∀ k a, k < 8 → s.InWindow r k → (∀ j, j < k → ¬ s.InWindow r j) →
        a = s.fld (PCIE_IN_MAP.adr k) PCIE_IN_MAP.LOCAL * 2 ^ 30 + r.addr % 2 ^ 30 →
        (pcieMem a (if r.write then r.data.length else r.len) = false →
          exec (.pcieInbound r) s = .next { s with out := s.out ++ [.pcieDone 1 [] false] }) ∧
        (pcieMem a (if r.write then r.data.length else r.len) = true →
          (r.write = true → ∀ w, w = s.writeAll .pcie true a r.data (List.replicate (r.data.length / 4 + 2) r.poison) →
            (w.ans = .held → exec (.pcieInbound r) s = .next { w.st with pcieHeld := [r] }) ∧
            ((w.ans = .ok ∨ w.ans = .off) → exec (.pcieInbound r) s = .next { w.st with pcieHeld := [] }) ∧
            (w.ans ≠ .held → w.ans ≠ .ok → w.ans ≠ .off → exec (.pcieInbound r) s =
              .next { w.st with pcieHeld := [], out := w.st.out ++ [.pcieDone 1 [] false] })) ∧
          (r.write = false → ∀ x, x = s.readAll .pcie true (lineParts (r.len / 64 + 2) a r.len) →
            (x.ans = .held → exec (.pcieInbound r) s = .next { x.st with pcieHeld := [r] }) ∧
            (x.ans = .ok → exec (.pcieInbound r) s =
              .next { x.st with pcieHeld := [], out := x.st.out ++ [.pcieDone 0 x.bytes (x.poison.any id)] }) ∧
            (x.ans = .off → exec (.pcieInbound r) s =
              .next { x.st with pcieHeld := [], out := x.st.out ++ [.pcieDone 2 (List.replicate r.len 0) false] }) ∧
            (x.ans ≠ .held → x.ans ≠ .ok → x.ans ≠ .off → exec (.pcieInbound r) s =
              .next { x.st with pcieHeld := [], out := x.st.out ++ [.pcieDone 1 [] false] })))))) ∧
  (∀ (s : State) (r : PcieReq), s.isOn 300 = true → r.bar2 = true →
    (s.endpoint = false → exec (.pcieInbound r) s = .next s) ∧
    (s.endpoint = true → r.write = false → exec (.pcieInbound r) s =
      .next { s with out := s.out ++ [.pcieDone 0 ((numsFrom r.addr r.len).map s.msixByte) false] }) ∧
    (s.endpoint = true → r.write = true → ∃ u : State, u = { s with msix := u.msix } ∧
      exec (.pcieInbound r) s = .next ((numsFrom 0 64).foldl (fun v k => v.msixFlush k) u) ∧ ∀ o, u.msixByte o =
        if r.addr ≤ o ∧ o < r.addr + r.data.length ∧ o < 1024 then r.data.getD (o - r.addr) 0 else s.msixByte o)) ∧
  (∀ (s : State) (v : BitVec 6) (p : Nat), s.isOn 300 = true → s.endpoint = true → p = 1024 + v.toNat / 8 →
    (((s.msixByte (16 * v.toNat + 12)).getLsbD 0 = true ∨ (s.msixByte p).getLsbD (v.toNat % 8) = false) → s.msixFlush v.toNat = s) ∧
    ((s.msixByte (16 * v.toNat + 12)).getLsbD 0 = false → (s.msixByte p).getLsbD (v.toNat % 8) = true → .next (s.msixFlush v.toNat) =
      exec (.pcieMsixSend v) (s.setMsix p (s.msixByte p &&& ~~~ BitVec.ofNat 8 (2 ^ (v.toNat % 8)))))) ∧
  (∀ (s : State) (w : Who) (o a : Nat) (x : PW), s.isOn 300 = true →
    ((o < 0x4000000 ∨ 0x8000000 ≤ o ∨ o % 8 ≠ 0) → ∀ wr, exec (.pcieOutWindow w o wr x) s = .next s) ∧
    (0x4000000 ≤ o → o < 0x8000000 → o % 8 = 0 → a = s.fld PCIE_OUT_BASE.adr PCIE_OUT_BASE.BASE * 2 ^ 26 + (o - 0x4000000) →
      exec (.pcieOutWindow w o true x) s = .next { s with out := s.out ++ [.pcie 1 a 8 (toBytes 8 x.val.toNat) x.poison] } ∧
      exec (.pcieOutWindow w o false x) s =
        .next { s with pcieAsks := s.pcieAsks ++ [⟨some w, a, true⟩], out := s.out ++ [.pcie 0 a 8 [] false] })) ∧
  (∀ (s u : State) (z : BitVec 2) (c : Instr) (kind a n : Nat), s.isOn 300 = true →
    (c, kind) ∈ [(Instr.pcieMemRead z, 0), (.pcieMemWrite z, 1), (.pcieCfgRead z, 2), (.pcieCfgWrite z, 3)] →
    a = (s.rd PCIE_OUT_ADDR.adr).toNat → n = 2 ^ z.toNat →
    u = (s.setF PCIE_OUT_CMD.adr PCIE_OUT_CMD.KIND kind).setF PCIE_OUT_CMD.adr PCIE_OUT_CMD.SIZE z.toNat →
    (s.has PCIE_OUT_CMD.adr PCIE_OUT_CMD.GO = true → exec c s = .next s) ∧
    (s.has PCIE_OUT_CMD.adr PCIE_OUT_CMD.GO = false →
      ((a % n ≠ 0 ∨ (2 ≤ kind ∧ s.endpoint = true)) → exec c s = .next (u.setF PCIE_OUT_CMD.adr PCIE_OUT_CMD.STATUS 5)) ∧
      (a % n = 0 → (kind < 2 ∨ s.endpoint = false) → ∃ t : State, exec c s = .next t ∧
        t = { u with ctrl := t.ctrl, pcieAsks := s.pcieAsks ++ [⟨none, a, false⟩],
                     out := s.out ++ [.pcie kind a n (if kind % 2 = 1 then toBytes n (s.rd PCIE_OUT_DATA.adr).toNat else []) false] } ∧
        t.ctrl = (u.setF PCIE_OUT_CMD.adr PCIE_OUT_CMD.GO 1).ctrl))) ∧
  (∀ (s : State) (st : Nat) (d : PW),
    (s.pcieAsks = [] → exec (.pcieOutComplete st d) s = .next s.goAll) ∧
    (∀ w a o l, s.pcieAsks = ⟨some w, a, o⟩ :: l → ∀ give : State → PW → State, give = (fun u x =>
        if o = true then { u with out := u.out ++ [.answer w x] } else { u with pcieAns := u.pcieAns ++ [⟨w, a, x⟩] }) →
      ((st = 0 ∨ 4 ≤ st) → exec (.pcieOutComplete st d) s =
        .next (give { s with pcieAsks := l } ⟨d.val, d.poison || decide (st = 4)⟩).goAll) ∧
      (1 ≤ st → st ≤ 3 → exec (.pcieOutComplete st d) s = .next (give ((({ s with pcieAsks := l } : State).setF PCIE_EVT.adr PCIE_EVT.UNCORR 1).event
          (7200 + s.fld PCIE_CTL.adr PCIE_CTL.EVT_VEC)) ⟨BitVec.allOnes 64, false⟩).goAll)) ∧
    (∀ a b l, s.pcieAsks = ⟨none, a, b⟩ :: l → ∀ u : State,
      u = (({ s with pcieAsks := l } : State).setF PCIE_OUT_CMD.adr PCIE_OUT_CMD.GO 0).setF PCIE_OUT_CMD.adr PCIE_OUT_CMD.STATUS st →
      (s.fld PCIE_OUT_CMD.adr PCIE_OUT_CMD.KIND % 2 = 1 → exec (.pcieOutComplete st d) s = .next u.goAll) ∧
      (s.fld PCIE_OUT_CMD.adr PCIE_OUT_CMD.KIND % 2 = 0 → 1 ≤ st → st ≤ 3 → exec (.pcieOutComplete st d) s =
        .next ((u.setF PCIE_EVT.adr PCIE_EVT.UNCORR 1).event (7200 + s.fld PCIE_CTL.adr PCIE_CTL.EVT_VEC)).goAll) ∧
      (s.fld PCIE_OUT_CMD.adr PCIE_OUT_CMD.KIND % 2 = 0 → (st = 0 ∨ 4 ≤ st) → exec (.pcieOutComplete st d) s =
        .next (u.wr PCIE_OUT_DATA.adr (BitVec.ofNat 64 (d.val.toNat % 2 ^ (8 * 2 ^ s.fld PCIE_OUT_CMD.adr PCIE_OUT_CMD.SIZE)))).goAll))) ∧
  (∀ (s : State) (v : BitVec 6), s.isOn 300 = true →
    (s.endpoint = false → exec .hotReset s = .next { s with out := s.out ++ [.hotReset] } ∧ exec (.pcieMsixSend v) s = .next s ∧
      exec .perstAssert s = .next s.goAll) ∧
    (s.endpoint = true → exec .hotReset s = .next s ∧
      ((s.msixByte (16 * v.toNat + 12)).getLsbD 0 = false → exec (.pcieMsixSend v) s =
        .next { s with out := s.out ++ [.pcie 1 (bytesAt ((numsFrom (16 * v.toNat) 12).map s.msixByte) 0 8) 4
                                          ((numsFrom (16 * v.toNat + 8) 4).map s.msixByte) false] }) ∧
      ((s.msixByte (16 * v.toNat + 12)).getLsbD 0 = true → ∃ t : State, exec (.pcieMsixSend v) s = .next t ∧ t = { s with msix := t.msix } ∧
        ∀ o, t.msixByte o = if o = 1024 + v.toNat / 8 then s.msixByte o ||| BitVec.ofNat 8 (2 ^ (v.toNat % 8)) else s.msixByte o) ∧
      ∀ hot : State → State, hot = (fun u => (u.setF PCIE_EVT.adr PCIE_EVT.HOT_RESET 1).event (7200 + u.fld PCIE_CTL.adr PCIE_CTL.EVT_VEC)) →
        (s.pcieAsks = [] → exec .perstAssert s = .next (hot { s with pcieHeld := [] }).goAll) ∧
        (∀ x a, s.pcieAsks = [⟨some x, a, true⟩] → ∀ u : State, u = ((({ s with pcieAsks := [], pcieHeld := [] } : State).setF PCIE_EVT.adr
            PCIE_EVT.UNCORR 1).event (7200 + s.fld PCIE_CTL.adr PCIE_CTL.EVT_VEC)) →
          exec .perstAssert s = .next (hot { u with out := u.out ++ [.answer x ⟨BitVec.allOnes 64, false⟩] }).goAll) ∧
        (∀ a o, s.pcieAsks = [⟨none, a, o⟩] → s.fld PCIE_OUT_CMD.adr PCIE_OUT_CMD.KIND % 2 = 1 → ∃ st u, 1 ≤ st ∧ st ≤ 3 ∧
          u = (({ s with pcieAsks := [], pcieHeld := [], freeTick := s.freeTick + 1 } : State).setF PCIE_OUT_CMD.adr PCIE_OUT_CMD.GO 0).setF
            PCIE_OUT_CMD.adr PCIE_OUT_CMD.STATUS st ∧ exec .perstAssert s = .next (hot u).goAll))) ∧
  (∀ (s : State) (l w r old : Nat) (f : Bool), s.isOn 300 = true → l < 32 → w < 8 → r < 8 → old = s.fld PCIE_STAT.adr PCIE_STAT.LTSSM →
    ∃ t : State, exec (.pcieLinkChange l w r f) s = .next t ∧ t.fld PCIE_STAT.adr PCIE_STAT.LTSSM = l ∧
      t.fld PCIE_STAT.adr PCIE_STAT.WIDTH = w ∧ t.fld PCIE_STAT.adr PCIE_STAT.RATE = r ∧
      (t.fld PCIE_STAT.adr PCIE_STAT.LINK_UP = 1 ↔ l = 3 ∨ l = 5) ∧
      t.fld PCIE_EVT.adr PCIE_EVT.LINK_UP = (if l = 3 ∧ old ≠ 3 then 1 else s.fld PCIE_EVT.adr PCIE_EVT.LINK_UP) ∧
      t.fld PCIE_EVT.adr PCIE_EVT.LINK_DOWN = (if (old = 3 ∨ old = 5) ∧ l = 0 then 1 else s.fld PCIE_EVT.adr PCIE_EVT.LINK_DOWN) ∧
      t.fld PCIE_EVT.adr PCIE_EVT.PM = (if old ≠ l ∧ (old = 3 ∨ old = 5 ∨ old = 6) ∧ (l = 3 ∨ l = 5 ∨ l = 6) then 1
        else s.fld PCIE_EVT.adr PCIE_EVT.PM) ∧
      t.fld PCIE_EVT.adr PCIE_EVT.HOT_RESET = (if s.endpoint = true ∧ l = 9 ∧ old ≠ 9 then 1 else s.fld PCIE_EVT.adr PCIE_EVT.HOT_RESET)) ∧
  ∀ (s : State) (pins shift : List Bool) (code : BitVec 8) (w : Word),
    exec (.extest pins shift) s = .next { s with jtag := ⟨0, .boundary, shift, 1⟩, out := s.out ++ [.tdo pins] } ∧
    exec (.samplePreload pins shift) s = .next { s with jtag := ⟨2, .boundary, shift, 0⟩, out := s.out ++ [.tdo pins] } ∧
    exec (.extestPulse pins shift) s = .next { s with jtag := ⟨3, .boundary, shift, 2⟩, out := s.out ++ [.tdo pins] } ∧
    exec (.extestTrain pins shift) s = .next { s with jtag := ⟨4, .boundary, shift, 3⟩, out := s.out ++ [.tdo pins] } ∧
    (∃ bits : List Bool, exec .idcode s =
        .next { s with jtag := { s.jtag with ir := 1, reg := .idcode, driving := 0 }, out := s.out ++ [.tdo bits] } ∧
      bits.length = 32 ∧ ∀ i, i < 32 → bits[i]? = some (Nat.testBit 0x1204878B i)) ∧
    exec (.bypass code) s =
      .next { s with jtag := { s.jtag with ir := code, reg := .bypass, driving := 0 }, out := s.out ++ [.tdo [false]] } ∧
    ((code.toNat < 0x80 ∨ 0xC0 ≤ code.toNat) → exec (.debugAccess code w) s = .next s) ∧
    (0x80 ≤ code.toNat → code.toNat < 0xC0 →
      (s.fld FUSE_STATE.adr FUSE_STATE.DEBUG_CLOSE = 1 → exec (.debugAccess code w) s = exec (.bypass code) s) ∧
      (s.fld FUSE_STATE.adr FUSE_STATE.DEBUG_CLOSE = 0 → ∀ u : State,
        u = { s with jtag := { s.jtag with ir := code, reg := .debug, driving := 0 } } →
        exec (.debugAccess code w) s = .next (if s.isOn 301 = true then u.xWrite .svc 15 w else u)))

/-- O60. R11, R38, R44 to R46, R53 to R58, R60, R220 and R290.  How far a pass comes before the next command, that STEP starts
none while FREEZE is set (log entry 67), and that a pulse count in flight is dropped uncounted (log entry 68) are the
model's choices. -/
def Obligations.CrossingsCalibrationAndRegisters : Prop :=
  (∀ (s : State) (w : Window) (b : Nat), w.ok = true → b = winBase w →
    let passed : State → State → Prop := fun u t => ∃ lo hi, lo = u.calPos.get 0 b - 1 ∧ lo ≤ hi ∧
      hi ≤ max lo (u.fld (CAL_LINES.adr b) CAL_LINES.COUNT) ∧ t.lineFuses = u.lineFuses ∧
      (u.fld (CAL_LINES.adr b) CAL_LINES.COUNT ≤ hi → t.fld (CAL_STAT.adr b) CAL_STAT.PASS_DONE = 1 ∧
        t.fld (CAL_STAT.adr b) CAL_STAT.PASS_BUSY = 0 ∧ t.fld (CAL_CTL.adr b) CAL_CTL.STEP = 0 ∧ t.calPos.get 0 b = 0 ∧
        t.fld (CAL_COUNT.adr b) CAL_COUNT.PASSES = (u.fld (CAL_COUNT.adr b) CAL_COUNT.PASSES + 1) % 2 ^ 32 ∧
        t.passes.get 0 b = u.passes.get 0 b + 1) ∧
      (hi < u.fld (CAL_LINES.adr b) CAL_LINES.COUNT → t.calPos.get 0 b = hi + 1 ∧ t.passes.get 0 b = u.passes.get 0 b ∧
        t.fld (CAL_COUNT.adr b) CAL_COUNT.PASSES = u.fld (CAL_COUNT.adr b) CAL_COUNT.PASSES ∧
        t.fld (CAL_STAT.adr b) CAL_STAT.PASS_DONE = u.fld (CAL_STAT.adr b) CAL_STAT.PASS_DONE ∧
        (u.calPos.get 0 b = 0 → t.fld (CAL_STAT.adr b) CAL_STAT.PASS_BUSY = 1)) ∧
      ∀ i, i < 0x1000 → ∀ (l : DelayLine) (f : LineFuse), l = u.line b i → f = u.lineFuse (b + i) →
        ((i < lo ∨ hi ≤ i) → t.line b i = l) ∧
        (lo ≤ i → i < hi → (t.line b i).nearMiss = l.nearMiss ∧ (t.line b i).grown = false ∧
          (l.grown = true → (t.line b i).trimOf f = min 63 (l.trimOf f + 1) ∧
            (l.trimOf f = 63 → t.fld (CAL_STAT.adr b) CAL_STAT.LIMIT = 1)) ∧
          (l.grown = false → l.since + 16 ≤ u.passes.get 0 b + 1 → f.floor.toNat + u.fld (CAL_CTL.adr b) CAL_CTL.GUARD < l.trimOf f →
            (t.line b i).trimOf f = l.trimOf f - 1) ∧
          (l.grown = false → (u.passes.get 0 b + 1 < l.since + 16 ∨ l.trimOf f ≤ f.floor.toNat + u.fld (CAL_CTL.adr b) CAL_CTL.GUARD) →
            t.line b i = l))
    ((s.has (CAL_CTL.adr b) CAL_CTL.FREEZE = true ∨ s.isOn (winDom w) = false) → exec (.calStep w) s = .next s) ∧
    ((s.has (CAL_CTL.adr b) CAL_CTL.ENABLE = false ∨ s.has (CAL_CTL.adr b) CAL_CTL.FREEZE = true ∨
        s.has (CAL_CTL.adr b) CAL_CTL.INTERVAL = false ∨ s.isOn (winDom w) = false) → exec (.calIntervalExpiry w) s = .next s) ∧
    (s.has (CAL_CTL.adr b) CAL_CTL.ENABLE = true → s.has (CAL_CTL.adr b) CAL_CTL.FREEZE = false →
      s.has (CAL_CTL.adr b) CAL_CTL.INTERVAL = true → s.isOn (winDom w) = true →
      ∃ t : State, exec (.calIntervalExpiry w) s = .next t ∧ passed s t) ∧
    (s.has (CAL_CTL.adr b) CAL_CTL.FREEZE = false → s.isOn (winDom w) = true → ∀ u : State, u = s.setF (CAL_CTL.adr b) CAL_CTL.STEP 1 →
      (s.calPos.get 0 b ≠ 0 → exec (.calStep w) s = .next u) ∧
      (s.calPos.get 0 b = 0 → ∃ t : State, exec (.calStep w) s = .next t ∧ passed u t)) ∧
    (∀ (v : Word) (i : Nat), i = s.fld (CAL_SEL.adr b) CAL_SEL.LINE →
      (s.fld (CAL_LINES.adr b) CAL_LINES.COUNT ≤ i → exec (.calTrimWrite w v) s = .next s) ∧
      (i < s.fld (CAL_LINES.adr b) CAL_LINES.COUNT → ∃ t : State, exec (.calTrimWrite w v) s = .next t ∧
        t = { s with ctrl := t.ctrl, lines := t.lines } ∧
        (t.line b i).trimOf (s.lineFuse (b + i)) = max (s.lineFuse (b + i)).floor.toNat (fget CAL_TRIM.TRIM v) ∧
        (t.line b i).nearMiss = (s.line b i).nearMiss ∧ ∀ j, j ≠ i → t.line b j = s.line b j)) ∧
    (∀ i, (s.fld (CAL_LINES.adr b) CAL_LINES.COUNT ≤ i → exec (.nearMiss w i) s = .next s) ∧
      (i < s.fld (CAL_LINES.adr b) CAL_LINES.COUNT → exec (.nearMiss w i) s =
        .next ((s.setLine b i { s.line b i with nearMiss := min 0xFFFFFFFF ((s.line b i).nearMiss + 1), grown := true }).setF
          (CAL_STAT.adr b) CAL_STAT.NEAR_MISS_SEEN 1)))) ∧
  (∀ (s : State) (w : Window) (x : Nat) (v : Word) (c : Crossing), w.xOk x = true → xKind w x = 3 → c = s.xing w x →
    (s.xState w x = 1 → ¬ (w = .svc ∧ x = 10) → exec (.hfrOffer w x v) s = .next (s.setXing w x { c with cur := some v }) ∧
      exec (.hfrAck w x) s = .next s) ∧
    (s.xState w x ≠ 1 →
      (c.held = none → exec (.hfrOffer w x v) s = .next (s.putXing w x { c with cur := some v, held := some v })) ∧
      (c.held ≠ none → c.next = none → exec (.hfrOffer w x v) s = .next (s.putXing w x { c with cur := some v, next := some v })) ∧
      (c.held ≠ none → c.next ≠ none → ¬ (w = .svc ∧ x = 10) → exec (.hfrOffer w x v) s =
        .next ((s.putXing w x { c with cur := some v, next := some v }).setF (XSTAT.adr (winBase w) x) XSTAT.OVERRUN 1)) ∧
      (c.held ≠ none → c.next ≠ none → w = .svc → x = 10 → exec (.hfrOffer w x v) s =
        .next (s.putXing w x { c with cur := some v, waiting := c.waiting ++ [v] }))) ∧
    (s.xState w x = 1 → w = .svc → x = 10 → exec (.hfrOffer w x v) s = .next (s.setXing w x { c with waiting := c.waiting ++ [v] })) ∧
    (w = .svc → x = 10 → s.aonQueue ≠ [] → exec (.hfrAck w x) s = exec .aonSettingTaken s) ∧
    (¬ (w = .svc ∧ x = 10) ∨ s.aonQueue = [] →
      ((s.xState w x ≠ 0 ∨ c.held = none) → exec (.hfrAck w x) s = .next s) ∧
      (∀ h, s.xState w x = 0 → c.held = some h → exec (.hfrAck w x) s = .next (s.putXing w x
        { c with dest := h, held := c.next, next := c.waiting.head?, waiting := c.waiting.drop 1 })))) ∧
  (∀ (s : State) (w : Window) (x : Nat) (c : Crossing), w.xOk x = true → xKind w x = 4 → c = s.xing w x →
    (c.counter = 15 → exec (.pulseEvent w x) s = .next (s.setF (XSTAT.adr (winBase w) x) XSTAT.OVERRUN 1)) ∧
    (c.counter ≠ 15 → (c.phase ≠ .idle ∨ s.xState w x = 1) →
      exec (.pulseEvent w x) s = .next (s.putXing w x { c with counter := c.counter + 1 })) ∧
    (c.counter ≠ 15 → c.phase = .idle → s.xState w x ≠ 1 → exec (.pulseEvent w x) s =
      .next (s.putXing w x { c with counter := 0, flight := c.counter + 1, phase := .requested })) ∧
    ((c.phase ≠ .requested ∨ s.xState w x ≠ 0) → exec (.pulseCountDelivery w x) s = .next s) ∧
    (c.phase = .requested → s.xState w x = 0 → ∃ u : State,
      u = s.putXing w x { c with phase := .acked, dest := BitVec.ofNat 64 c.flight, flight := 0 } ∧
      (pulseSource w x = none → w ≠ .pcie → ¬ (w = .svc ∧ x = 12 ∧ u.isOn 301 = true) → exec (.pulseCountDelivery w x) s = .next u) ∧
      (w = .svc → x = 12 → u.isOn 301 = true → exec (.pulseCountDelivery w x) s = .next u.deliverAon) ∧
      (w = .pcie → ∀ evt : Fld → State → State, evt = (fun f v => (v.setF PCIE_EVT.adr f 1).event (7200 + v.fld PCIE_CTL.adr PCIE_CTL.EVT_VEC)) →
        (x = 5 → c.flight = 1 → ∃ f, (f = PCIE_EVT.CORR ∨ f = PCIE_EVT.UNCORR) ∧
          exec (.pulseCountDelivery w x) s = .next (evt f { u with freeTick := u.freeTick + 1 })) ∧
        (x ≠ 5 → exec (.pulseCountDelivery w x) s = .next ((numsFrom 0 c.flight).foldl (fun v _ =>
          if x = 4 then evt (if v.fld PCIE_STAT.adr PCIE_STAT.LTSSM = 0 then PCIE_EVT.LINK_DOWN else PCIE_EVT.LINK_UP) v
          else if x = 6 then (if v.endpoint = true then evt PCIE_EVT.HOT_RESET v else v)
          else if x = 7 then evt PCIE_EVT.PM v else v) u)) ∧ ∃ t : State, exec (.pulseCountDelivery w x) s = .next t) ∧
      (∀ n, pulseSource w x = some n → exec (.pulseCountDelivery w x) s = .next (u.arrive n c.flight))) ∧
    (∀ d, w = .mc d → 4 ≤ x → pulseSource w x = some (6976 + 8 * d + (x - 4))) ∧
    (∀ n, w = .link n → 6 ≤ x → pulseSource w x = some (6400 + 4 * n + (x - 6))) ∧
    (w = .time → pulseSource w x = some (7167 + x)) ∧
    (c.phase ≠ .acked → exec (.pulseHandshakeDone w x) s = .next s) ∧
    (c.phase = .acked → (c.counter = 0 ∨ s.xState w x = 1) →
      exec (.pulseHandshakeDone w x) s = .next (s.putXing w x { c with phase := .idle })) ∧
    (c.phase = .acked → c.counter ≠ 0 → s.xState w x ≠ 1 → exec (.pulseHandshakeDone w x) s =
      .next (s.putXing w x { c with counter := 0, flight := c.counter, phase := .requested }))) ∧
  (∀ (s : State) (w : Window) (x : Nat) (v : Word) (c : Crossing), w.xOk x = true → (xKind w x = 1 ∨ xKind w x = 2) → c = s.xing w x →
    (s.xState w x ≠ 1 → exec (.queueCrossingWrite w x v) s =
      .next (s.putXing w x (({ c with waiting := c.waiting ++ [v] } : Crossing).refill (xDepth w x)))) ∧
    (s.xState w x ≠ 1 → c.waiting = [] → c.words.length < xDepth w x →
      exec (.queueCrossingWrite w x v) s = .next (s.putXing w x { c with words := c.words ++ [v] })) ∧
    (s.xState w x ≠ 1 → xDepth w x ≤ c.words.length →
      exec (.queueCrossingWrite w x v) s = .next (s.putXing w x { c with waiting := c.waiting ++ [v] })) ∧
    (s.xState w x = 1 → (c.timedOut = false ∨ xClockless w x = false) →
      exec (.queueCrossingWrite w x v) s = .next (s.putXing w x { c with waiting := c.waiting ++ [v] })) ∧
    (s.xState w x = 1 → c.timedOut = true → xClockless w x = true → exec (.queueCrossingWrite w x v) s =
      .next ((s.satF (XCNT.adr (winBase w) x) XCNT.DISCARD 1).setF (XSTAT.adr (winBase w) x) XSTAT.TIMEOUT 1)) ∧
    ((s.xState w x ≠ 0 ∨ c.words = []) → exec (.queueCrossingRead w x) s = .next s) ∧
    (∀ a r, s.xState w x = 0 → c.words = a :: r → exec (.queueCrossingRead w x) s =
      .next (s.putXing w x (({ c with words := r, dest := a } : Crossing).refill (xDepth w x)))) ∧
    (∀ a r, s.xState w x = 0 → c.words = a :: r → c.waiting = [] →
      exec (.queueCrossingRead w x) s = .next (s.putXing w x { c with words := r, dest := a })) ∧
    (∀ a r h l, s.xState w x = 0 → c.words = a :: r → c.words.length = xDepth w x → c.waiting = h :: l →
      exec (.queueCrossingRead w x) s = .next (s.putXing w x { c with words := r ++ [h], dest := a, waiting := l }))) ∧
  (∀ (s : State) (w : Window) (x : Nat) (p : Bool) (c : Crossing) (k : Nat), w.xOk x = true → k = XSTAT.adr (winBase w) x → c = s.xing w x →
    ∀ ten : (State → State) → State → State, ten = (fun f u => if w = .svc ∧ x = 10 then f u else u) →
    (xKind w x = 0 → exec (.dstStopped w x) s = .next s ∧ exec (.crossingSideReset w x p) s = .next s ∧ exec (.xctlResync w x) s = .next s ∧
      exec (.resyncComplete w x) s = .next s) ∧
    (xKind w x ≠ 0 →
      (s.xState w x = 0 → c.waitingData = true → exec (.dstStopped w x) s = .next ((s.setF k XSTAT.DST_STOPPED 1).setF k XSTAT.STATE 2)) ∧
      ((s.xState w x ≠ 0 ∨ c.waitingData = false) → exec (.dstStopped w x) s = .next (s.setF k XSTAT.DST_STOPPED 1)) ∧
      exec (.crossingSideReset w x true) s = .next (ten State.aonResync (s.resyncStart w x true)) ∧
      exec (.crossingSideReset w x false) s = .next (ten State.aonResync ((s.resyncStart w x false).event 7705)) ∧
      exec (.xctlResync w x) s =
        .next (ten State.aonResync ((s.resyncStart w x false).setF (XCTL.adr (winBase w) x) XCTL.RESYNC 1)) ∧
      (∃ t : State, s.resyncStart w x p = t ∧ t.xState w x = 1 ∧ t.xing w x = { Crossing.reset with
          waiting := c.waiting, cur := c.cur, timedOut := decide (s.xState w x = 1) && c.timedOut, cold := p } ∧
        t.fld (XCNT.adr (winBase w) x) XCNT.DISCARD = min (2 ^ 32 - 1) (s.fld (XCNT.adr (winBase w) x) XCNT.DISCARD + c.discards (xKind w x)) ∧
        t.fld k XSTAT.LEVEL = 0 ∧ t.fld k XSTAT.RESYNC_SEEN = if p = true then s.fld k XSTAT.RESYNC_SEEN else 1) ∧
      ((s.xState w x ≠ 1 ∨ s.has k XSTAT.DST_STOPPED = true) →
        exec (.resyncComplete w x) s = .next (ten (fun u => u.aonEnter.aonShow) s)) ∧
      (s.xState w x = 1 → s.has k XSTAT.DST_STOPPED = false → ∃ t : State,
        exec (.resyncComplete w x) s = .next (ten (fun u => u.aonEnter.aonShow) t) ∧ t.xState w x = 0 ∧
        t.fld (XCTL.adr (winBase w) x) XCTL.RESYNC = 0 ∧
        t.fld (XCNT.adr (winBase w) x) XCNT.RESYNCS = min (2 ^ 16 - 1) (s.fld (XCNT.adr (winBase w) x) XCNT.RESYNCS + 1) ∧
        (xKind w x = 3 → ¬ (w = .svc ∧ x = 10) → (t.xing w x).held = c.cur) ∧
        (xKind w x ≤ 2 → t.xing w x = ({ c with timedOut := false, cold := false } : Crossing).refill (xDepth w x)) ∧
        (xKind w x = 4 → c.counter ≠ 0 → c.phase = .idle → (t.xing w x).flight = c.counter ∧ (t.xing w x).phase = .requested))) ∧
    (s.xState w x = 2 → exec (.dstClockReturn w x) s = .next ((s.setF k XSTAT.DST_STOPPED 0).setF k XSTAT.STATE 0)) ∧
    (s.xState w x ≠ 2 → exec (.dstClockReturn w x) s = .next (s.setF k XSTAT.DST_STOPPED 0)) ∧
    ((s.xState w x ≠ 1 ∨ xClockless w x = false ∨ c.waiting = []) → exec (.resyncHoldTimeout w x) s = .next (ten State.aonTimeout s)) ∧
    (s.xState w x = 1 → xClockless w x = true → c.waiting ≠ [] → exec (.resyncHoldTimeout w x) s =
      .next (ten State.aonTimeout (((s.satF (XCNT.adr (winBase w) x) XCNT.DISCARD c.waiting.length).putXing w x
        { c with waiting := [], timedOut := true }).setF k XSTAT.TIMEOUT 1)))) ∧
  (∀ (s : State) (k d : Nat), k = XSTAT.adr (winBase .svc) 10 → d = XCNT.adr (winBase .svc) 10 →
    s.aonResync.aonQueue = [] ∧ s.aonResync.aonWait = s.aonWait ∧
    s.aonResync.fld d XCNT.DISCARD = min (2 ^ 32 - 1) (s.fld d XCNT.DISCARD + s.aonQueue.length) ∧
    ((s.xState .svc 10 ≠ 1 ∨ s.aonWait = []) → s.aonTimeout = s) ∧
    (s.xState .svc 10 = 1 → s.aonWait ≠ [] → s.aonTimeout.aonWait = [] ∧ s.aonTimeout.fld k XSTAT.TIMEOUT = 1 ∧
      s.aonTimeout.fld d XCNT.DISCARD = min (2 ^ 32 - 1) (s.fld d XCNT.DISCARD + s.aonWait.length) ∧
      ∀ a ∈ s.aonWait, a.asks = true → ⟨a.who, a.addr, false⟩ ∈ s.aonTimeout.aonAcks)) ∧
  (∀ (s u : State) (who : Who) (a : Nat) (v : Word) (g : AonSetting), u = s.xWarm .svc 10 → g = ⟨who, a, v, false⟩ →
    ((s.isOn 301 = false ∨ aonSetting a = false) → exec (.aonSettingWrite who a v) s = .next s) ∧
    (aonSetting a = true ↔ (0xC050300000 ≤ a ∧ a < 0xC050300200 ∧ a % 8 = 0) ∨ a = AON_ALARM.adr ∨ a = BRD_SMB.adr) ∧
    (s.isOn 301 = true → aonSetting a = true →
      (u.xState .svc 10 = 1 → (u.xing .svc 10).timedOut = true → exec (.aonSettingWrite who a v) s =
        .next ((u.satF (XCNT.adr (winBase .svc) 10) XCNT.DISCARD 1).setF (XSTAT.adr (winBase .svc) 10) XSTAT.TIMEOUT 1)) ∧
      (((u.xState .svc 10 = 1 ∧ (u.xing .svc 10).timedOut = false) ∨ (u.xState .svc 10 ≠ 1 ∧ 2 ≤ u.aonQueue.length)) → ∃ t : State,
        exec (.aonSettingWrite who a v) s = .next t ∧ t = { u with ctrl := t.ctrl, aonWait := u.aonWait ++ [g] } ∧
        t.fld WW_STAT.adr WW_STAT.BUSY = 1) ∧
      (u.xState .svc 10 ≠ 1 → u.aonQueue.length < 2 → ∃ t : State, exec (.aonSettingWrite who a v) s = .next t ∧
        t = { u with ctrl := t.ctrl, aonQueue := u.aonQueue ++ [g] } ∧ t.fld WW_STAT.adr WW_STAT.BUSY = 1 ∧
        ∀ r, r ≠ WW_STAT.adr → r ≠ XSTAT.adr (winBase .svc) 10 → t.rd r = u.rd r))) ∧
  (∀ s : State, (s.aonQueue = [] ∨ (s.xState .svc 10 ≠ 0 ∧ (s.xing .svc 10).cold = false)) → exec .aonSettingTaken s = .next s) ∧
  (∀ (s : State) (g : AonSetting) (r : List AonSetting) (n : Nat), s.aonQueue = g :: r →
    (s.xState .svc 10 = 0 ∨ (s.xing .svc 10).cold = true) → n = (if s.xState .svc 10 = 1 then 0 else 2 - r.length) →
    ∃ u : State, exec .aonSettingTaken s = .next (if u.isOn 301 = true then u.fireLevels else u) ∧
      u.aonQueue = r ++ s.aonWait.take n ∧ u.aonWait = s.aonWait.drop n ∧
      (u.fld WW_STAT.adr WW_STAT.BUSY = 0 ↔ r = [] ∧ s.aonWait = []) ∧
      (g.addr ≠ AON_ALARM.adr → u.clock = s.clock) ∧ (g.addr = AON_ALARM.adr → u.clock = { s.clock with aonArmed := true }) ∧
      ∀ i, i < 64 → g.addr = WW_SLOT.adr i → fget WW_SLOT.SOURCE (u.rd g.addr) = fget WW_SLOT.SOURCE g.value ∧
        fget WW_SLOT.ENABLE (u.rd g.addr) = fget WW_SLOT.ENABLE g.value ∧
        fget WW_SLOT.ACTION (u.rd g.addr) =
          if fget WW_SLOT.ACTION g.value = 3 then fget WW_SLOT.ACTION (s.rd g.addr) else fget WW_SLOT.ACTION g.value) ∧
  (∀ (s u : State) (who : Who) (a : Nat) (v : Word) (gs : Gates), s.ctrlGates who a = (u, gs) →
    (blkOf a = .none → exec (.registerWrite who a v) s = .next s) ∧
    (blkOf a ≠ .none → ∀ (z : State) (o : Option Ans), u.enter who true a gs = (z, o) →
      (o = some .held → exec (.registerWrite who a v) s = .next { z with ctrlHeld := z.ctrlHeld ++ [⟨who, a, v⟩] }) ∧
      (o ≠ some .held → o ≠ none → exec (.registerWrite who a v) s = .next z) ∧
      (o = none → 0xC0A4000000 ≤ a → a < 0xC0A8000000 →
        exec (.registerWrite who a v) s = .next (z.pcieWinWrite (a - 0xC0A0000000) ⟨v, false⟩)) ∧
      (o = none → ¬ (0xC0A4000000 ≤ a ∧ a < 0xC0A8000000) →
        ((replicaOf a ≠ a ∨ regAt a = none) → exec (.registerWrite who a v) s = .next z) ∧
        ∀ h, replicaOf a = a → regAt a = some h →
          ((aonSetting a = false ∨ (svcWriteOnly a h = true ∧ ∀ i, who ≠ .svc i)) →
            exec (.registerWrite who a v) s = .next (z.writeReg who a h v)) ∧
          (aonSetting a = true → (svcWriteOnly a h = false ∨ ∃ i, who = .svc i) → ∀ y e, z.aonWrite who a v true = (y, e) →
            (e = .held → exec (.registerWrite who a v) s = .next { y with ctrlHeld := y.ctrlHeld ++ [⟨who, a, v⟩] }) ∧
            (e ≠ .held → exec (.registerWrite who a v) s = .next y))) ∧
      ∀ h, svcWriteOnly a h = true → (∀ i, who ≠ .svc i) → z.writeReg who a h v = z)) ∧
  (∀ (f : FieldRow) (fl : Fld) (v old : Word), f.lo ≤ f.hi → f.hi < 64 → fl = ⟨f.hi, f.lo⟩ →
    (∀ al i, (i < f.lo ∨ f.hi < i) → (f.write al v old).getLsbD i = old.getLsbD i) ∧
    (f.acc = .rw → fget fl (f.write .main v old) = fget fl v) ∧ (f.acc = .ro → ∀ al, f.write al v old = old) ∧
    (f.acc = .wa → fget fl (f.write .main v old) = fget fl old - fget fl v) ∧
    (f.acc = .ws → f.write .main v old = old ∧ ∀ i, f.lo ≤ i → i ≤ f.hi →
      (f.write .set v old).getLsbD i = (old.getLsbD i || v.getLsbD i)) ∧
    (f.acc = .wc → f.write .main v old = old ∧ ∀ i, f.lo ≤ i → i ≤ f.hi →
      (f.write .clr v old).getLsbD i = (old.getLsbD i && !v.getLsbD i))) ∧
  (∀ (s : State) (who : Who) (v : Word) (i : Nat), i < 2 → s.gate 300 = .opened → s.power.held = [] → who = .svc i →
    exec (.registerWrite who PCIE_OUT_ADDR.adr v) s = .next (s.wr PCIE_OUT_ADDR.adr v)) ∧
  ∀ (s u : State) (d k : Nat) (v : Word), d < 8 → k < 16 →
    u = (s.wr (TILE_MAP.adr d k) (v &&& (fmask TILE_MAP.ABSENT ||| fmask TILE_MAP.POSITION))).recore s d →
    ((16 < fget TILE_MAP.POSITION v ∨ (fset? TILE_MAP.ABSENT v = false ∧
        ∃ j, j < 16 ∧ j ≠ k ∧ s.physTile (d * 16 + j) = some (d * 17 + fget TILE_MAP.POSITION v))) →
      exec (.tileMapUpdate d k v) s = .next s) ∧
    (fget TILE_MAP.POSITION v ≤ 16 → (fset? TILE_MAP.ABSENT v = true ∨
        ∀ j, j < 16 → j ≠ k → s.physTile (d * 16 + j) ≠ some (d * 17 + fget TILE_MAP.POSITION v)) →
      exec (.tileMapUpdate d k v) s = .next u ∧
      u.physTile (d * 16 + k) = (if fset? TILE_MAP.ABSENT v = true then none else some (d * 17 + fget TILE_MAP.POSITION v)) ∧
      ∀ j, j ≠ d * 16 + k → u.physTile j = s.physTile j)

end Statements
end

