-- ==== Sys2Proof/Laws/Fields.lean ====
section
/-!
SUPPORT. Laws of register fields: a field reads back what was put into it, and a field that shares no bit with it is
unchanged.
-/

namespace Sys2Proof.Machine

theorem fget_eq (f : Fld) (w : Word) : fget f w = (w.extractLsb' f.lo (f.hi - f.lo + 1)).toNat := by
  simp [fget, BitVec.extractLsb'_toNat, Nat.shiftRight_eq_div_pow]

theorem fmask_bit (f : Fld) (i : Nat) (hi : i < 64) :
    (fmask f).getLsbD i = (decide (f.lo ≤ i) && decide (i < f.lo + (f.hi - f.lo + 1))) := by
  unfold fmask
  rw [BitVec.getLsbD_ofNat]
  rw [Nat.mul_comm, Nat.testBit_two_pow_mul, Nat.testBit_two_pow_sub_one]
  by_cases h : f.lo ≤ i
  · simp [h, hi]; omega
  · simp [h]

theorem fput_bit (f : Fld) (v : Nat) (w : Word) (i : Nat) (hi : i < 64) :
    (fput f v w).getLsbD i =
      if f.lo ≤ i ∧ i < f.lo + (f.hi - f.lo + 1) then v.testBit (i - f.lo) else w.getLsbD i := by
  unfold fput
  rw [BitVec.getLsbD_or, BitVec.getLsbD_and, BitVec.getLsbD_and, BitVec.getLsbD_not, fmask_bit f i hi,
    BitVec.getLsbD_ofNat, Nat.mul_comm, Nat.testBit_two_pow_mul]
  by_cases h : f.lo ≤ i <;> by_cases h2 : i < f.lo + (f.hi - f.lo + 1) <;> simp [h, h2, hi]

theorem fget_bit (f : Fld) (w : Word) (j : Nat) :
    (fget f w).testBit j = (decide (j < f.hi - f.lo + 1) && w.getLsbD (f.lo + j)) := by
  unfold fget
  rw [Nat.testBit_mod_two_pow, Nat.testBit_div_two_pow, BitVec.testBit_toNat, Nat.add_comm j]

/-- A field that lies within the register reads back what was put into it, modulo its width. -/
theorem fget_fput (f : Fld) (v : Nat) (w : Word) (h : f.lo ≤ f.hi ∧ f.hi < 64) :
    fget f (fput f v w) = v % 2 ^ (f.hi - f.lo + 1) := by
  apply Nat.eq_of_testBit_eq
  intro j
  rw [fget_bit, Nat.testBit_mod_two_pow]
  by_cases hj : j < f.hi - f.lo + 1
  · rw [fput_bit f v w (f.lo + j) (by omega)]
    simp [hj]
  · simp [hj]

/-- Putting a value into a field leaves every field that shares no bit with it unchanged. -/
theorem fget_fput_ne (f g : Fld) (v : Nat) (w : Word) (h : g.hi < f.lo ∨ f.hi < g.lo) (hg : g.lo ≤ g.hi)
    (hf : f.lo ≤ f.hi) : fget g (fput f v w) = fget g w := by
  apply Nat.eq_of_testBit_eq
  intro j
  rw [fget_bit, fget_bit]
  by_cases hj : j < g.hi - g.lo + 1
  · by_cases h64 : g.lo + j < 64
    · rw [fput_bit f v w (g.lo + j) h64]
      have : ¬ (f.lo ≤ g.lo + j ∧ g.lo + j < f.lo + (f.hi - f.lo + 1)) := by omega
      simp [this]
    · rw [BitVec.getLsbD_of_ge _ _ (by omega), BitVec.getLsbD_of_ge _ _ (by omega)]
  · simp [hj]

/-- Bits outside a field keep their value when a value is put into it. -/
theorem fput_other (f : Fld) (v : Nat) (w : Word) (i : Nat) (hf : f.lo ≤ f.hi) (h : i < f.lo ∨ f.hi < i) :
    (fput f v w).getLsbD i = w.getLsbD i := by
  by_cases h64 : i < 64
  · rw [fput_bit f v w i h64]
    have : ¬ (f.lo ≤ i ∧ i < f.lo + (f.hi - f.lo + 1)) := by omega
    simp [this]
  · rw [BitVec.getLsbD_of_ge _ _ (by omega), BitVec.getLsbD_of_ge _ _ (by omega)]

/-- Putting twice into one field keeps the later value. -/
theorem fput_fput (f : Fld) (v u : Nat) (w : Word) : fput f v (fput f u w) = fput f v w := by
  apply BitVec.eq_of_getLsbD_eq
  intro i hi
  rw [fput_bit f v _ i hi, fput_bit f v _ i hi, fput_bit f u _ i hi]
  split <;> simp_all

/-- A field's value fits its width. -/
theorem fget_lt (f : Fld) (w : Word) : fget f w < 2 ^ (f.hi - f.lo + 1) := Nat.mod_lt _ (Nat.two_pow_pos _)

end Sys2Proof.Machine
end

