-- ==== Sys2Proof/Laws/Maps.lean ====
section
/-!
SUPPORT. Laws of the sparse maps: reading back what was stored, every other key unchanged, and the canonical form.
The reading laws hold of every list of entries, canonical or not.
-/

namespace Sys2Proof

variable {α : Type}

theorem SMap.get_insert (m : SMap α) (d : α) (k j : Nat) (v : α) :
    (m.insert k v).get d j = if j = k then v else m.get d j := by
  induction m with
  | nil => simp [SMap.insert, SMap.get]
  | cons p r ih =>
    obtain ⟨a, b⟩ := p
    simp only [SMap.insert]
    split
    · simp [SMap.get]
    · split
      · subst k; simp only [SMap.get]; by_cases h : j = a <;> simp [h]
      · simp only [SMap.get, ih]
        by_cases h : j = a
        · subst j; have : a ≠ k := fun e => by omega
          simp [this]
        · simp [h]

theorem SMap.get_filter (m : SMap α) (d : α) (f : Nat → Bool) (j : Nat) :
    SMap.get (List.filter (fun p : Nat × α => f p.1) m) d j = if f j then m.get d j else d := by
  induction m with
  | nil => simp [SMap.get]
  | cons p r ih =>
    obtain ⟨a, b⟩ := p
    by_cases h : j = a
    · subst j; cases hf : f a
      · simp [hf, ih]
      · simp [hf, SMap.get]
    · cases hf : f a
      · simp only [List.filter_cons, hf, SMap.get, h, if_false]; simpa using ih
      · simp only [List.filter_cons, hf, SMap.get, h, if_false, ih]; simp [SMap.get, h, ih]

/-- Reading after storing: the stored value at its key, and what was there at every other. -/
theorem SMap.get_put [DecidableEq α] (m : SMap α) (d : α) (k j : Nat) (v : α) :
    (m.put d k v).get d j = if j = k then v else m.get d j := by
  unfold SMap.put
  split
  · rename_i h; subst v
    rw [SMap.get_filter m d (fun a => a != k)]
    by_cases h : j = k <;> simp [h]
  · exact SMap.get_insert m d k j v

@[simp] theorem SMap.get_put_self [DecidableEq α] (m : SMap α) (d : α) (k : Nat) (v : α) :
    (m.put d k v).get d k = v := by simp [SMap.get_put]

/-- Every other key reads as before, whatever an unlisted key reads as there. -/
theorem SMap.get_put_ne [DecidableEq α] (m : SMap α) (d e : α) (k j : Nat) (v : α) (h : j ≠ k) :
    (m.put d k v).get e j = m.get e j := by
  unfold SMap.put
  split
  · rw [SMap.get_filter m e (fun a => a != k)]; simp [h]
  · rw [SMap.get_insert]; simp [h]

theorem SMap.get_eraseRange (m : SMap α) (d : α) (lo hi j : Nat) :
    (m.eraseRange lo hi).get d j = if lo ≤ j ∧ j < hi then d else m.get d j := by
  unfold SMap.eraseRange
  rw [SMap.get_filter m d (fun a => !(decide (lo ≤ a) && decide (a < hi)))]
  by_cases h : lo ≤ j ∧ j < hi
  · simp [h]
  · have : (decide (lo ≤ j) && decide (j < hi)) = false := by simpa using h
    simp [h]

@[simp] theorem SMap.get_nil (d : α) (k : Nat) : SMap.get ([] : SMap α) d k = d := rfl

/-! ## The canonical form -/

/-- The lower bound of a canonical tail may be lowered. -/
theorem SMap.wfFrom_weaken [DecidableEq α] (d : α) (m : SMap α) (a b : Nat) (h : a ≤ b)
    (hw : SMap.wfFrom d (some b) m = true) : SMap.wfFrom d (some a) m = true := by
  cases m with
  | nil => rfl
  | cons p r =>
    obtain ⟨k, v⟩ := p
    simp only [SMap.wfFrom, Bool.and_eq_true, decide_eq_true_eq] at hw ⊢
    exact ⟨⟨by omega, hw.1.2⟩, hw.2⟩

theorem SMap.wfFrom_none [DecidableEq α] (d : α) (m : SMap α) (a : Nat)
    (hw : SMap.wfFrom d (some a) m = true) : SMap.wfFrom d none m = true := by
  cases m with
  | nil => rfl
  | cons p r =>
    obtain ⟨k, v⟩ := p
    simp only [SMap.wfFrom, Bool.and_eq_true, decide_eq_true_eq] at hw ⊢
    exact ⟨⟨trivial, hw.1.2⟩, hw.2⟩

/-- Filtering keeps the form, and the lower bound. -/
theorem SMap.wfFrom_filter [DecidableEq α] (d : α) (f : Nat × α → Bool) (m : SMap α) (lo : Option Nat)
    (h : SMap.wfFrom d lo m = true) : SMap.wfFrom d lo (List.filter f m) = true := by
  induction m generalizing lo with
  | nil => rfl
  | cons p r ih =>
    obtain ⟨k, v⟩ := p
    simp only [SMap.wfFrom, Bool.and_eq_true, decide_eq_true_eq] at h
    cases hf : f (k, v)
    · simp only [List.filter_cons, hf, Bool.false_eq_true, if_false]
      have := ih (some k) h.2
      cases lo with
      | none => exact SMap.wfFrom_none d _ k this
      | some l => exact SMap.wfFrom_weaken d _ l k (by have := h.1.1; simp only [decide_eq_true_eq] at this; omega) this
    · simp only [List.filter_cons, hf, if_true, SMap.wfFrom, Bool.and_eq_true, decide_eq_true_eq]
      exact ⟨h.1, ih (some k) h.2⟩

theorem SMap.wfFrom_insert [DecidableEq α] (d : α) (m : SMap α) (lo : Option Nat) (k : Nat) (v : α)
    (hv : v ≠ d) (hk : match lo with | none => True | some l => l < k) (h : SMap.wfFrom d lo m = true) :
    SMap.wfFrom d lo (m.insert k v) = true := by
  induction m generalizing lo with
  | nil => cases lo <;> simp_all [SMap.insert, SMap.wfFrom]
  | cons p r ih =>
    obtain ⟨a, b⟩ := p
    simp only [SMap.wfFrom, Bool.and_eq_true, decide_eq_true_eq] at h
    simp only [SMap.insert]
    split
    · cases lo <;> simp_all [SMap.wfFrom]
    · split
      · subst k; cases lo <;> simp_all [SMap.wfFrom]
      · have := ih (some a) (by simp only; omega) h.2
        simp only [SMap.wfFrom, Bool.and_eq_true, decide_eq_true_eq]
        exact ⟨h.1, this⟩

/-- Storing keeps the canonical form. -/
theorem SMap.wf_put [DecidableEq α] (d : α) (m : SMap α) (k : Nat) (v : α) (h : m.wf d = true) :
    (m.put d k v).wf d = true := by
  unfold SMap.wf SMap.put at *
  split
  · exact SMap.wfFrom_filter d _ m none h
  · rename_i hv; exact SMap.wfFrom_insert d m none k v hv trivial h

/-- Erasing a range of keys keeps the canonical form. -/
theorem SMap.wf_eraseRange [DecidableEq α] (d : α) (m : SMap α) (lo hi : Nat) (h : m.wf d = true) :
    (m.eraseRange lo hi).wf d = true := SMap.wfFrom_filter d _ m none h

end Sys2Proof
end

