-- ==== Sys2Proof/Laws/State.lean ====
section
/-!
SUPPORT. Every field of the state under every named update: unchanged but for the one field the update is of, and what
the update's own reader then reads.
-/

namespace Sys2Proof.Machine

/-! ## wr -/

@[simp] theorem State.wr_pending (s : State) (a : Nat) (v : Word) : (s.wr a v).pending = s.pending := rfl
@[simp] theorem State.wr_hub (s : State) (a : Nat) (v : Word) : (s.wr a v).hub = s.hub := rfl
@[simp] theorem State.wr_aonPend (s : State) (a : Nat) (v : Word) : (s.wr a v).aonPend = s.aonPend := rfl
@[simp] theorem State.wr_woken (s : State) (a : Nat) (v : Word) : (s.wr a v).woken = s.woken := rfl
@[simp] theorem State.wr_aonQueue (s : State) (a : Nat) (v : Word) : (s.wr a v).aonQueue = s.aonQueue := rfl
@[simp] theorem State.wr_aonWait (s : State) (a : Nat) (v : Word) : (s.wr a v).aonWait = s.aonWait := rfl
@[simp] theorem State.wr_aonAcks (s : State) (a : Nat) (v : Word) : (s.wr a v).aonAcks = s.aonAcks := rfl
@[simp] theorem State.wr_lines (s : State) (a : Nat) (v : Word) : (s.wr a v).lines = s.lines := rfl
@[simp] theorem State.wr_lineFuses (s : State) (a : Nat) (v : Word) : (s.wr a v).lineFuses = s.lineFuses := rfl
@[simp] theorem State.wr_passes (s : State) (a : Nat) (v : Word) : (s.wr a v).passes = s.passes := rfl
@[simp] theorem State.wr_calPos (s : State) (a : Nat) (v : Word) : (s.wr a v).calPos = s.calPos := rfl
@[simp] theorem State.wr_xings (s : State) (a : Nat) (v : Word) : (s.wr a v).xings = s.xings := rfl
@[simp] theorem State.wr_queues (s : State) (a : Nat) (v : Word) : (s.wr a v).queues = s.queues := rfl
@[simp] theorem State.wr_power (s : State) (a : Nat) (v : Word) : (s.wr a v).power = s.power := rfl
@[simp] theorem State.wr_clock (s : State) (a : Nat) (v : Word) : (s.wr a v).clock = s.clock := rfl
@[simp] theorem State.wr_cores (s : State) (a : Nat) (v : Word) : (s.wr a v).cores = s.cores := rfl
@[simp] theorem State.wr_links (s : State) (a : Nat) (v : Word) : (s.wr a v).links = s.links := rfl
@[simp] theorem State.wr_rtWait (s : State) (a : Nat) (v : Word) : (s.wr a v).rtWait = s.rtWait := rfl
@[simp] theorem State.wr_outst (s : State) (a : Nat) (v : Word) : (s.wr a v).outst = s.outst := rfl
@[simp] theorem State.wr_nextTag (s : State) (a : Nat) (v : Word) : (s.wr a v).nextTag = s.nextTag := rfl
@[simp] theorem State.wr_qholds (s : State) (a : Nat) (v : Word) : (s.wr a v).qholds = s.qholds := rfl
@[simp] theorem State.wr_coll (s : State) (a : Nat) (v : Word) : (s.wr a v).coll = s.coll := rfl
@[simp] theorem State.wr_collOwed (s : State) (a : Nat) (v : Word) : (s.wr a v).collOwed = s.collOwed := rfl
@[simp] theorem State.wr_tsync (s : State) (a : Nat) (v : Word) : (s.wr a v).tsync = s.tsync := rfl
@[simp] theorem State.wr_straps (s : State) (a : Nat) (v : Word) : (s.wr a v).straps = s.straps := rfl
@[simp] theorem State.wr_epochWait (s : State) (a : Nat) (v : Word) : (s.wr a v).epochWait = s.epochWait := rfl
@[simp] theorem State.wr_mem (s : State) (a : Nat) (v : Word) : (s.wr a v).mem = s.mem := rfl
@[simp] theorem State.wr_chk (s : State) (a : Nat) (v : Word) : (s.wr a v).chk = s.chk := rfl
@[simp] theorem State.wr_segLines (s : State) (a : Nat) (v : Word) : (s.wr a v).segLines = s.segLines := rfl
@[simp] theorem State.wr_tags (s : State) (a : Nat) (v : Word) : (s.wr a v).tags = s.tags := rfl
@[simp] theorem State.wr_spareOf (s : State) (a : Nat) (v : Word) : (s.wr a v).spareOf = s.spareOf := rfl
@[simp] theorem State.wr_hardWait (s : State) (a : Nat) (v : Word) : (s.wr a v).hardWait = s.hardWait := rfl
@[simp] theorem State.wr_conv (s : State) (a : Nat) (v : Word) : (s.wr a v).conv = s.conv := rfl
@[simp] theorem State.wr_beaten (s : State) (a : Nat) (v : Word) : (s.wr a v).beaten = s.beaten := rfl
@[simp] theorem State.wr_flash (s : State) (a : Nat) (v : Word) : (s.wr a v).flash = s.flash := rfl
@[simp] theorem State.wr_flashCap (s : State) (a : Nat) (v : Word) : (s.wr a v).flashCap = s.flashCap := rfl
@[simp] theorem State.wr_couch (s : State) (a : Nat) (v : Word) : (s.wr a v).couch = s.couch := rfl
@[simp] theorem State.wr_chain (s : State) (a : Nat) (v : Word) : (s.wr a v).chain = s.chain := rfl
@[simp] theorem State.wr_bb (s : State) (a : Nat) (v : Word) : (s.wr a v).bb = s.bb := rfl
@[simp] theorem State.wr_wptr (s : State) (a : Nat) (v : Word) : (s.wr a v).wptr = s.wptr := rfl
@[simp] theorem State.wr_fuse (s : State) (a : Nat) (v : Word) : (s.wr a v).fuse = s.fuse := rfl
@[simp] theorem State.wr_booted (s : State) (a : Nat) (v : Word) : (s.wr a v).booted = s.booted := rfl
@[simp] theorem State.wr_sigCode (s : State) (a : Nat) (v : Word) : (s.wr a v).sigCode = s.sigCode := rfl
@[simp] theorem State.wr_xspiRes (s : State) (a : Nat) (v : Word) : (s.wr a v).xspiRes = s.xspiRes := rfl
@[simp] theorem State.wr_mgmtSending (s : State) (a : Nat) (v : Word) : (s.wr a v).mgmtSending = s.mgmtSending := rfl
@[simp] theorem State.wr_smbIndex (s : State) (a : Nat) (v : Word) : (s.wr a v).smbIndex = s.smbIndex := rfl
@[simp] theorem State.wr_jtag (s : State) (a : Nat) (v : Word) : (s.wr a v).jtag = s.jtag := rfl
@[simp] theorem State.wr_pcieAsks (s : State) (a : Nat) (v : Word) : (s.wr a v).pcieAsks = s.pcieAsks := rfl
@[simp] theorem State.wr_pcieAns (s : State) (a : Nat) (v : Word) : (s.wr a v).pcieAns = s.pcieAns := rfl
@[simp] theorem State.wr_pcieHeld (s : State) (a : Nat) (v : Word) : (s.wr a v).pcieHeld = s.pcieHeld := rfl
@[simp] theorem State.wr_msix (s : State) (a : Nat) (v : Word) : (s.wr a v).msix = s.msix := rfl
@[simp] theorem State.wr_ctrlHeld (s : State) (a : Nat) (v : Word) : (s.wr a v).ctrlHeld = s.ctrlHeld := rfl
@[simp] theorem State.wr_out (s : State) (a : Nat) (v : Word) : (s.wr a v).out = s.out := rfl
@[simp] theorem State.wr_freeTick (s : State) (a : Nat) (v : Word) : (s.wr a v).freeTick = s.freeTick := rfl

/-! ## setF -/

@[simp] theorem State.setF_pending (s : State) (a : Nat) (f : Fld) (v : Nat) : (s.setF a f v).pending = s.pending := rfl
@[simp] theorem State.setF_hub (s : State) (a : Nat) (f : Fld) (v : Nat) : (s.setF a f v).hub = s.hub := rfl
@[simp] theorem State.setF_aonPend (s : State) (a : Nat) (f : Fld) (v : Nat) : (s.setF a f v).aonPend = s.aonPend := rfl
@[simp] theorem State.setF_woken (s : State) (a : Nat) (f : Fld) (v : Nat) : (s.setF a f v).woken = s.woken := rfl
@[simp] theorem State.setF_aonQueue (s : State) (a : Nat) (f : Fld) (v : Nat) : (s.setF a f v).aonQueue = s.aonQueue := rfl
@[simp] theorem State.setF_aonWait (s : State) (a : Nat) (f : Fld) (v : Nat) : (s.setF a f v).aonWait = s.aonWait := rfl
@[simp] theorem State.setF_aonAcks (s : State) (a : Nat) (f : Fld) (v : Nat) : (s.setF a f v).aonAcks = s.aonAcks := rfl
@[simp] theorem State.setF_lines (s : State) (a : Nat) (f : Fld) (v : Nat) : (s.setF a f v).lines = s.lines := rfl
@[simp] theorem State.setF_lineFuses (s : State) (a : Nat) (f : Fld) (v : Nat) : (s.setF a f v).lineFuses = s.lineFuses := rfl
@[simp] theorem State.setF_passes (s : State) (a : Nat) (f : Fld) (v : Nat) : (s.setF a f v).passes = s.passes := rfl
@[simp] theorem State.setF_calPos (s : State) (a : Nat) (f : Fld) (v : Nat) : (s.setF a f v).calPos = s.calPos := rfl
@[simp] theorem State.setF_xings (s : State) (a : Nat) (f : Fld) (v : Nat) : (s.setF a f v).xings = s.xings := rfl
@[simp] theorem State.setF_queues (s : State) (a : Nat) (f : Fld) (v : Nat) : (s.setF a f v).queues = s.queues := rfl
@[simp] theorem State.setF_power (s : State) (a : Nat) (f : Fld) (v : Nat) : (s.setF a f v).power = s.power := rfl
@[simp] theorem State.setF_clock (s : State) (a : Nat) (f : Fld) (v : Nat) : (s.setF a f v).clock = s.clock := rfl
@[simp] theorem State.setF_cores (s : State) (a : Nat) (f : Fld) (v : Nat) : (s.setF a f v).cores = s.cores := rfl
@[simp] theorem State.setF_links (s : State) (a : Nat) (f : Fld) (v : Nat) : (s.setF a f v).links = s.links := rfl
@[simp] theorem State.setF_rtWait (s : State) (a : Nat) (f : Fld) (v : Nat) : (s.setF a f v).rtWait = s.rtWait := rfl
@[simp] theorem State.setF_outst (s : State) (a : Nat) (f : Fld) (v : Nat) : (s.setF a f v).outst = s.outst := rfl
@[simp] theorem State.setF_nextTag (s : State) (a : Nat) (f : Fld) (v : Nat) : (s.setF a f v).nextTag = s.nextTag := rfl
@[simp] theorem State.setF_qholds (s : State) (a : Nat) (f : Fld) (v : Nat) : (s.setF a f v).qholds = s.qholds := rfl
@[simp] theorem State.setF_coll (s : State) (a : Nat) (f : Fld) (v : Nat) : (s.setF a f v).coll = s.coll := rfl
@[simp] theorem State.setF_collOwed (s : State) (a : Nat) (f : Fld) (v : Nat) : (s.setF a f v).collOwed = s.collOwed := rfl
@[simp] theorem State.setF_tsync (s : State) (a : Nat) (f : Fld) (v : Nat) : (s.setF a f v).tsync = s.tsync := rfl
@[simp] theorem State.setF_straps (s : State) (a : Nat) (f : Fld) (v : Nat) : (s.setF a f v).straps = s.straps := rfl
@[simp] theorem State.setF_epochWait (s : State) (a : Nat) (f : Fld) (v : Nat) : (s.setF a f v).epochWait = s.epochWait := rfl
@[simp] theorem State.setF_mem (s : State) (a : Nat) (f : Fld) (v : Nat) : (s.setF a f v).mem = s.mem := rfl
@[simp] theorem State.setF_chk (s : State) (a : Nat) (f : Fld) (v : Nat) : (s.setF a f v).chk = s.chk := rfl
@[simp] theorem State.setF_segLines (s : State) (a : Nat) (f : Fld) (v : Nat) : (s.setF a f v).segLines = s.segLines := rfl
@[simp] theorem State.setF_tags (s : State) (a : Nat) (f : Fld) (v : Nat) : (s.setF a f v).tags = s.tags := rfl
@[simp] theorem State.setF_spareOf (s : State) (a : Nat) (f : Fld) (v : Nat) : (s.setF a f v).spareOf = s.spareOf := rfl
@[simp] theorem State.setF_hardWait (s : State) (a : Nat) (f : Fld) (v : Nat) : (s.setF a f v).hardWait = s.hardWait := rfl
@[simp] theorem State.setF_conv (s : State) (a : Nat) (f : Fld) (v : Nat) : (s.setF a f v).conv = s.conv := rfl
@[simp] theorem State.setF_beaten (s : State) (a : Nat) (f : Fld) (v : Nat) : (s.setF a f v).beaten = s.beaten := rfl
@[simp] theorem State.setF_flash (s : State) (a : Nat) (f : Fld) (v : Nat) : (s.setF a f v).flash = s.flash := rfl
@[simp] theorem State.setF_flashCap (s : State) (a : Nat) (f : Fld) (v : Nat) : (s.setF a f v).flashCap = s.flashCap := rfl
@[simp] theorem State.setF_couch (s : State) (a : Nat) (f : Fld) (v : Nat) : (s.setF a f v).couch = s.couch := rfl
@[simp] theorem State.setF_chain (s : State) (a : Nat) (f : Fld) (v : Nat) : (s.setF a f v).chain = s.chain := rfl
@[simp] theorem State.setF_bb (s : State) (a : Nat) (f : Fld) (v : Nat) : (s.setF a f v).bb = s.bb := rfl
@[simp] theorem State.setF_wptr (s : State) (a : Nat) (f : Fld) (v : Nat) : (s.setF a f v).wptr = s.wptr := rfl
@[simp] theorem State.setF_fuse (s : State) (a : Nat) (f : Fld) (v : Nat) : (s.setF a f v).fuse = s.fuse := rfl
@[simp] theorem State.setF_booted (s : State) (a : Nat) (f : Fld) (v : Nat) : (s.setF a f v).booted = s.booted := rfl
@[simp] theorem State.setF_sigCode (s : State) (a : Nat) (f : Fld) (v : Nat) : (s.setF a f v).sigCode = s.sigCode := rfl
@[simp] theorem State.setF_xspiRes (s : State) (a : Nat) (f : Fld) (v : Nat) : (s.setF a f v).xspiRes = s.xspiRes := rfl
@[simp] theorem State.setF_mgmtSending (s : State) (a : Nat) (f : Fld) (v : Nat) : (s.setF a f v).mgmtSending = s.mgmtSending := rfl
@[simp] theorem State.setF_smbIndex (s : State) (a : Nat) (f : Fld) (v : Nat) : (s.setF a f v).smbIndex = s.smbIndex := rfl
@[simp] theorem State.setF_jtag (s : State) (a : Nat) (f : Fld) (v : Nat) : (s.setF a f v).jtag = s.jtag := rfl
@[simp] theorem State.setF_pcieAsks (s : State) (a : Nat) (f : Fld) (v : Nat) : (s.setF a f v).pcieAsks = s.pcieAsks := rfl
@[simp] theorem State.setF_pcieAns (s : State) (a : Nat) (f : Fld) (v : Nat) : (s.setF a f v).pcieAns = s.pcieAns := rfl
@[simp] theorem State.setF_pcieHeld (s : State) (a : Nat) (f : Fld) (v : Nat) : (s.setF a f v).pcieHeld = s.pcieHeld := rfl
@[simp] theorem State.setF_msix (s : State) (a : Nat) (f : Fld) (v : Nat) : (s.setF a f v).msix = s.msix := rfl
@[simp] theorem State.setF_ctrlHeld (s : State) (a : Nat) (f : Fld) (v : Nat) : (s.setF a f v).ctrlHeld = s.ctrlHeld := rfl
@[simp] theorem State.setF_out (s : State) (a : Nat) (f : Fld) (v : Nat) : (s.setF a f v).out = s.out := rfl
@[simp] theorem State.setF_freeTick (s : State) (a : Nat) (f : Fld) (v : Nat) : (s.setF a f v).freeTick = s.freeTick := rfl

/-! ## satF -/

@[simp] theorem State.satF_pending (s : State) (a : Nat) (f : Fld) (v : Nat) : (s.satF a f v).pending = s.pending := rfl
@[simp] theorem State.satF_hub (s : State) (a : Nat) (f : Fld) (v : Nat) : (s.satF a f v).hub = s.hub := rfl
@[simp] theorem State.satF_aonPend (s : State) (a : Nat) (f : Fld) (v : Nat) : (s.satF a f v).aonPend = s.aonPend := rfl
@[simp] theorem State.satF_woken (s : State) (a : Nat) (f : Fld) (v : Nat) : (s.satF a f v).woken = s.woken := rfl
@[simp] theorem State.satF_aonQueue (s : State) (a : Nat) (f : Fld) (v : Nat) : (s.satF a f v).aonQueue = s.aonQueue := rfl
@[simp] theorem State.satF_aonWait (s : State) (a : Nat) (f : Fld) (v : Nat) : (s.satF a f v).aonWait = s.aonWait := rfl
@[simp] theorem State.satF_aonAcks (s : State) (a : Nat) (f : Fld) (v : Nat) : (s.satF a f v).aonAcks = s.aonAcks := rfl
@[simp] theorem State.satF_lines (s : State) (a : Nat) (f : Fld) (v : Nat) : (s.satF a f v).lines = s.lines := rfl
@[simp] theorem State.satF_lineFuses (s : State) (a : Nat) (f : Fld) (v : Nat) : (s.satF a f v).lineFuses = s.lineFuses := rfl
@[simp] theorem State.satF_passes (s : State) (a : Nat) (f : Fld) (v : Nat) : (s.satF a f v).passes = s.passes := rfl
@[simp] theorem State.satF_calPos (s : State) (a : Nat) (f : Fld) (v : Nat) : (s.satF a f v).calPos = s.calPos := rfl
@[simp] theorem State.satF_xings (s : State) (a : Nat) (f : Fld) (v : Nat) : (s.satF a f v).xings = s.xings := rfl
@[simp] theorem State.satF_queues (s : State) (a : Nat) (f : Fld) (v : Nat) : (s.satF a f v).queues = s.queues := rfl
@[simp] theorem State.satF_power (s : State) (a : Nat) (f : Fld) (v : Nat) : (s.satF a f v).power = s.power := rfl
@[simp] theorem State.satF_clock (s : State) (a : Nat) (f : Fld) (v : Nat) : (s.satF a f v).clock = s.clock := rfl
@[simp] theorem State.satF_cores (s : State) (a : Nat) (f : Fld) (v : Nat) : (s.satF a f v).cores = s.cores := rfl
@[simp] theorem State.satF_links (s : State) (a : Nat) (f : Fld) (v : Nat) : (s.satF a f v).links = s.links := rfl
@[simp] theorem State.satF_rtWait (s : State) (a : Nat) (f : Fld) (v : Nat) : (s.satF a f v).rtWait = s.rtWait := rfl
@[simp] theorem State.satF_outst (s : State) (a : Nat) (f : Fld) (v : Nat) : (s.satF a f v).outst = s.outst := rfl
@[simp] theorem State.satF_nextTag (s : State) (a : Nat) (f : Fld) (v : Nat) : (s.satF a f v).nextTag = s.nextTag := rfl
@[simp] theorem State.satF_qholds (s : State) (a : Nat) (f : Fld) (v : Nat) : (s.satF a f v).qholds = s.qholds := rfl
@[simp] theorem State.satF_coll (s : State) (a : Nat) (f : Fld) (v : Nat) : (s.satF a f v).coll = s.coll := rfl
@[simp] theorem State.satF_collOwed (s : State) (a : Nat) (f : Fld) (v : Nat) : (s.satF a f v).collOwed = s.collOwed := rfl
@[simp] theorem State.satF_tsync (s : State) (a : Nat) (f : Fld) (v : Nat) : (s.satF a f v).tsync = s.tsync := rfl
@[simp] theorem State.satF_straps (s : State) (a : Nat) (f : Fld) (v : Nat) : (s.satF a f v).straps = s.straps := rfl
@[simp] theorem State.satF_epochWait (s : State) (a : Nat) (f : Fld) (v : Nat) : (s.satF a f v).epochWait = s.epochWait := rfl
@[simp] theorem State.satF_mem (s : State) (a : Nat) (f : Fld) (v : Nat) : (s.satF a f v).mem = s.mem := rfl
@[simp] theorem State.satF_chk (s : State) (a : Nat) (f : Fld) (v : Nat) : (s.satF a f v).chk = s.chk := rfl
@[simp] theorem State.satF_segLines (s : State) (a : Nat) (f : Fld) (v : Nat) : (s.satF a f v).segLines = s.segLines := rfl
@[simp] theorem State.satF_tags (s : State) (a : Nat) (f : Fld) (v : Nat) : (s.satF a f v).tags = s.tags := rfl
@[simp] theorem State.satF_spareOf (s : State) (a : Nat) (f : Fld) (v : Nat) : (s.satF a f v).spareOf = s.spareOf := rfl
@[simp] theorem State.satF_hardWait (s : State) (a : Nat) (f : Fld) (v : Nat) : (s.satF a f v).hardWait = s.hardWait := rfl
@[simp] theorem State.satF_conv (s : State) (a : Nat) (f : Fld) (v : Nat) : (s.satF a f v).conv = s.conv := rfl
@[simp] theorem State.satF_beaten (s : State) (a : Nat) (f : Fld) (v : Nat) : (s.satF a f v).beaten = s.beaten := rfl
@[simp] theorem State.satF_flash (s : State) (a : Nat) (f : Fld) (v : Nat) : (s.satF a f v).flash = s.flash := rfl
@[simp] theorem State.satF_flashCap (s : State) (a : Nat) (f : Fld) (v : Nat) : (s.satF a f v).flashCap = s.flashCap := rfl
@[simp] theorem State.satF_couch (s : State) (a : Nat) (f : Fld) (v : Nat) : (s.satF a f v).couch = s.couch := rfl
@[simp] theorem State.satF_chain (s : State) (a : Nat) (f : Fld) (v : Nat) : (s.satF a f v).chain = s.chain := rfl
@[simp] theorem State.satF_bb (s : State) (a : Nat) (f : Fld) (v : Nat) : (s.satF a f v).bb = s.bb := rfl
@[simp] theorem State.satF_wptr (s : State) (a : Nat) (f : Fld) (v : Nat) : (s.satF a f v).wptr = s.wptr := rfl
@[simp] theorem State.satF_fuse (s : State) (a : Nat) (f : Fld) (v : Nat) : (s.satF a f v).fuse = s.fuse := rfl
@[simp] theorem State.satF_booted (s : State) (a : Nat) (f : Fld) (v : Nat) : (s.satF a f v).booted = s.booted := rfl
@[simp] theorem State.satF_sigCode (s : State) (a : Nat) (f : Fld) (v : Nat) : (s.satF a f v).sigCode = s.sigCode := rfl
@[simp] theorem State.satF_xspiRes (s : State) (a : Nat) (f : Fld) (v : Nat) : (s.satF a f v).xspiRes = s.xspiRes := rfl
@[simp] theorem State.satF_mgmtSending (s : State) (a : Nat) (f : Fld) (v : Nat) : (s.satF a f v).mgmtSending = s.mgmtSending := rfl
@[simp] theorem State.satF_smbIndex (s : State) (a : Nat) (f : Fld) (v : Nat) : (s.satF a f v).smbIndex = s.smbIndex := rfl
@[simp] theorem State.satF_jtag (s : State) (a : Nat) (f : Fld) (v : Nat) : (s.satF a f v).jtag = s.jtag := rfl
@[simp] theorem State.satF_pcieAsks (s : State) (a : Nat) (f : Fld) (v : Nat) : (s.satF a f v).pcieAsks = s.pcieAsks := rfl
@[simp] theorem State.satF_pcieAns (s : State) (a : Nat) (f : Fld) (v : Nat) : (s.satF a f v).pcieAns = s.pcieAns := rfl
@[simp] theorem State.satF_pcieHeld (s : State) (a : Nat) (f : Fld) (v : Nat) : (s.satF a f v).pcieHeld = s.pcieHeld := rfl
@[simp] theorem State.satF_msix (s : State) (a : Nat) (f : Fld) (v : Nat) : (s.satF a f v).msix = s.msix := rfl
@[simp] theorem State.satF_ctrlHeld (s : State) (a : Nat) (f : Fld) (v : Nat) : (s.satF a f v).ctrlHeld = s.ctrlHeld := rfl
@[simp] theorem State.satF_out (s : State) (a : Nat) (f : Fld) (v : Nat) : (s.satF a f v).out = s.out := rfl
@[simp] theorem State.satF_freeTick (s : State) (a : Nat) (f : Fld) (v : Nat) : (s.satF a f v).freeTick = s.freeTick := rfl

/-! ## incF -/

@[simp] theorem State.incF_pending (s : State) (a : Nat) (f : Fld) (v : Nat) : (s.incF a f v).pending = s.pending := rfl
@[simp] theorem State.incF_hub (s : State) (a : Nat) (f : Fld) (v : Nat) : (s.incF a f v).hub = s.hub := rfl
@[simp] theorem State.incF_aonPend (s : State) (a : Nat) (f : Fld) (v : Nat) : (s.incF a f v).aonPend = s.aonPend := rfl
@[simp] theorem State.incF_woken (s : State) (a : Nat) (f : Fld) (v : Nat) : (s.incF a f v).woken = s.woken := rfl
@[simp] theorem State.incF_aonQueue (s : State) (a : Nat) (f : Fld) (v : Nat) : (s.incF a f v).aonQueue = s.aonQueue := rfl
@[simp] theorem State.incF_aonWait (s : State) (a : Nat) (f : Fld) (v : Nat) : (s.incF a f v).aonWait = s.aonWait := rfl
@[simp] theorem State.incF_aonAcks (s : State) (a : Nat) (f : Fld) (v : Nat) : (s.incF a f v).aonAcks = s.aonAcks := rfl
@[simp] theorem State.incF_lines (s : State) (a : Nat) (f : Fld) (v : Nat) : (s.incF a f v).lines = s.lines := rfl
@[simp] theorem State.incF_lineFuses (s : State) (a : Nat) (f : Fld) (v : Nat) : (s.incF a f v).lineFuses = s.lineFuses := rfl
@[simp] theorem State.incF_passes (s : State) (a : Nat) (f : Fld) (v : Nat) : (s.incF a f v).passes = s.passes := rfl
@[simp] theorem State.incF_calPos (s : State) (a : Nat) (f : Fld) (v : Nat) : (s.incF a f v).calPos = s.calPos := rfl
@[simp] theorem State.incF_xings (s : State) (a : Nat) (f : Fld) (v : Nat) : (s.incF a f v).xings = s.xings := rfl
@[simp] theorem State.incF_queues (s : State) (a : Nat) (f : Fld) (v : Nat) : (s.incF a f v).queues = s.queues := rfl
@[simp] theorem State.incF_power (s : State) (a : Nat) (f : Fld) (v : Nat) : (s.incF a f v).power = s.power := rfl
@[simp] theorem State.incF_clock (s : State) (a : Nat) (f : Fld) (v : Nat) : (s.incF a f v).clock = s.clock := rfl
@[simp] theorem State.incF_cores (s : State) (a : Nat) (f : Fld) (v : Nat) : (s.incF a f v).cores = s.cores := rfl
@[simp] theorem State.incF_links (s : State) (a : Nat) (f : Fld) (v : Nat) : (s.incF a f v).links = s.links := rfl
@[simp] theorem State.incF_rtWait (s : State) (a : Nat) (f : Fld) (v : Nat) : (s.incF a f v).rtWait = s.rtWait := rfl
@[simp] theorem State.incF_outst (s : State) (a : Nat) (f : Fld) (v : Nat) : (s.incF a f v).outst = s.outst := rfl
@[simp] theorem State.incF_nextTag (s : State) (a : Nat) (f : Fld) (v : Nat) : (s.incF a f v).nextTag = s.nextTag := rfl
@[simp] theorem State.incF_qholds (s : State) (a : Nat) (f : Fld) (v : Nat) : (s.incF a f v).qholds = s.qholds := rfl
@[simp] theorem State.incF_coll (s : State) (a : Nat) (f : Fld) (v : Nat) : (s.incF a f v).coll = s.coll := rfl
@[simp] theorem State.incF_collOwed (s : State) (a : Nat) (f : Fld) (v : Nat) : (s.incF a f v).collOwed = s.collOwed := rfl
@[simp] theorem State.incF_tsync (s : State) (a : Nat) (f : Fld) (v : Nat) : (s.incF a f v).tsync = s.tsync := rfl
@[simp] theorem State.incF_straps (s : State) (a : Nat) (f : Fld) (v : Nat) : (s.incF a f v).straps = s.straps := rfl
@[simp] theorem State.incF_epochWait (s : State) (a : Nat) (f : Fld) (v : Nat) : (s.incF a f v).epochWait = s.epochWait := rfl
@[simp] theorem State.incF_mem (s : State) (a : Nat) (f : Fld) (v : Nat) : (s.incF a f v).mem = s.mem := rfl
@[simp] theorem State.incF_chk (s : State) (a : Nat) (f : Fld) (v : Nat) : (s.incF a f v).chk = s.chk := rfl
@[simp] theorem State.incF_segLines (s : State) (a : Nat) (f : Fld) (v : Nat) : (s.incF a f v).segLines = s.segLines := rfl
@[simp] theorem State.incF_tags (s : State) (a : Nat) (f : Fld) (v : Nat) : (s.incF a f v).tags = s.tags := rfl
@[simp] theorem State.incF_spareOf (s : State) (a : Nat) (f : Fld) (v : Nat) : (s.incF a f v).spareOf = s.spareOf := rfl
@[simp] theorem State.incF_hardWait (s : State) (a : Nat) (f : Fld) (v : Nat) : (s.incF a f v).hardWait = s.hardWait := rfl
@[simp] theorem State.incF_conv (s : State) (a : Nat) (f : Fld) (v : Nat) : (s.incF a f v).conv = s.conv := rfl
@[simp] theorem State.incF_beaten (s : State) (a : Nat) (f : Fld) (v : Nat) : (s.incF a f v).beaten = s.beaten := rfl
@[simp] theorem State.incF_flash (s : State) (a : Nat) (f : Fld) (v : Nat) : (s.incF a f v).flash = s.flash := rfl
@[simp] theorem State.incF_flashCap (s : State) (a : Nat) (f : Fld) (v : Nat) : (s.incF a f v).flashCap = s.flashCap := rfl
@[simp] theorem State.incF_couch (s : State) (a : Nat) (f : Fld) (v : Nat) : (s.incF a f v).couch = s.couch := rfl
@[simp] theorem State.incF_chain (s : State) (a : Nat) (f : Fld) (v : Nat) : (s.incF a f v).chain = s.chain := rfl
@[simp] theorem State.incF_bb (s : State) (a : Nat) (f : Fld) (v : Nat) : (s.incF a f v).bb = s.bb := rfl
@[simp] theorem State.incF_wptr (s : State) (a : Nat) (f : Fld) (v : Nat) : (s.incF a f v).wptr = s.wptr := rfl
@[simp] theorem State.incF_fuse (s : State) (a : Nat) (f : Fld) (v : Nat) : (s.incF a f v).fuse = s.fuse := rfl
@[simp] theorem State.incF_booted (s : State) (a : Nat) (f : Fld) (v : Nat) : (s.incF a f v).booted = s.booted := rfl
@[simp] theorem State.incF_sigCode (s : State) (a : Nat) (f : Fld) (v : Nat) : (s.incF a f v).sigCode = s.sigCode := rfl
@[simp] theorem State.incF_xspiRes (s : State) (a : Nat) (f : Fld) (v : Nat) : (s.incF a f v).xspiRes = s.xspiRes := rfl
@[simp] theorem State.incF_mgmtSending (s : State) (a : Nat) (f : Fld) (v : Nat) : (s.incF a f v).mgmtSending = s.mgmtSending := rfl
@[simp] theorem State.incF_smbIndex (s : State) (a : Nat) (f : Fld) (v : Nat) : (s.incF a f v).smbIndex = s.smbIndex := rfl
@[simp] theorem State.incF_jtag (s : State) (a : Nat) (f : Fld) (v : Nat) : (s.incF a f v).jtag = s.jtag := rfl
@[simp] theorem State.incF_pcieAsks (s : State) (a : Nat) (f : Fld) (v : Nat) : (s.incF a f v).pcieAsks = s.pcieAsks := rfl
@[simp] theorem State.incF_pcieAns (s : State) (a : Nat) (f : Fld) (v : Nat) : (s.incF a f v).pcieAns = s.pcieAns := rfl
@[simp] theorem State.incF_pcieHeld (s : State) (a : Nat) (f : Fld) (v : Nat) : (s.incF a f v).pcieHeld = s.pcieHeld := rfl
@[simp] theorem State.incF_msix (s : State) (a : Nat) (f : Fld) (v : Nat) : (s.incF a f v).msix = s.msix := rfl
@[simp] theorem State.incF_ctrlHeld (s : State) (a : Nat) (f : Fld) (v : Nat) : (s.incF a f v).ctrlHeld = s.ctrlHeld := rfl
@[simp] theorem State.incF_out (s : State) (a : Nat) (f : Fld) (v : Nat) : (s.incF a f v).out = s.out := rfl
@[simp] theorem State.incF_freeTick (s : State) (a : Nat) (f : Fld) (v : Nat) : (s.incF a f v).freeTick = s.freeTick := rfl

/-! ## setCore -/

@[simp] theorem State.setCore_pending (s : State) (c : Nat) (k : Core) : (s.setCore c k).pending = s.pending := rfl
@[simp] theorem State.setCore_ctrl (s : State) (c : Nat) (k : Core) : (s.setCore c k).ctrl = s.ctrl := rfl
@[simp] theorem State.setCore_hub (s : State) (c : Nat) (k : Core) : (s.setCore c k).hub = s.hub := rfl
@[simp] theorem State.setCore_aonPend (s : State) (c : Nat) (k : Core) : (s.setCore c k).aonPend = s.aonPend := rfl
@[simp] theorem State.setCore_woken (s : State) (c : Nat) (k : Core) : (s.setCore c k).woken = s.woken := rfl
@[simp] theorem State.setCore_aonQueue (s : State) (c : Nat) (k : Core) : (s.setCore c k).aonQueue = s.aonQueue := rfl
@[simp] theorem State.setCore_aonWait (s : State) (c : Nat) (k : Core) : (s.setCore c k).aonWait = s.aonWait := rfl
@[simp] theorem State.setCore_aonAcks (s : State) (c : Nat) (k : Core) : (s.setCore c k).aonAcks = s.aonAcks := rfl
@[simp] theorem State.setCore_lines (s : State) (c : Nat) (k : Core) : (s.setCore c k).lines = s.lines := rfl
@[simp] theorem State.setCore_lineFuses (s : State) (c : Nat) (k : Core) : (s.setCore c k).lineFuses = s.lineFuses := rfl
@[simp] theorem State.setCore_passes (s : State) (c : Nat) (k : Core) : (s.setCore c k).passes = s.passes := rfl
@[simp] theorem State.setCore_calPos (s : State) (c : Nat) (k : Core) : (s.setCore c k).calPos = s.calPos := rfl
@[simp] theorem State.setCore_xings (s : State) (c : Nat) (k : Core) : (s.setCore c k).xings = s.xings := rfl
@[simp] theorem State.setCore_queues (s : State) (c : Nat) (k : Core) : (s.setCore c k).queues = s.queues := rfl
@[simp] theorem State.setCore_power (s : State) (c : Nat) (k : Core) : (s.setCore c k).power = s.power := rfl
@[simp] theorem State.setCore_clock (s : State) (c : Nat) (k : Core) : (s.setCore c k).clock = s.clock := rfl
@[simp] theorem State.setCore_links (s : State) (c : Nat) (k : Core) : (s.setCore c k).links = s.links := rfl
@[simp] theorem State.setCore_rtWait (s : State) (c : Nat) (k : Core) : (s.setCore c k).rtWait = s.rtWait := rfl
@[simp] theorem State.setCore_outst (s : State) (c : Nat) (k : Core) : (s.setCore c k).outst = s.outst := rfl
@[simp] theorem State.setCore_nextTag (s : State) (c : Nat) (k : Core) : (s.setCore c k).nextTag = s.nextTag := rfl
@[simp] theorem State.setCore_qholds (s : State) (c : Nat) (k : Core) : (s.setCore c k).qholds = s.qholds := rfl
@[simp] theorem State.setCore_coll (s : State) (c : Nat) (k : Core) : (s.setCore c k).coll = s.coll := rfl
@[simp] theorem State.setCore_collOwed (s : State) (c : Nat) (k : Core) : (s.setCore c k).collOwed = s.collOwed := rfl
@[simp] theorem State.setCore_tsync (s : State) (c : Nat) (k : Core) : (s.setCore c k).tsync = s.tsync := rfl
@[simp] theorem State.setCore_straps (s : State) (c : Nat) (k : Core) : (s.setCore c k).straps = s.straps := rfl
@[simp] theorem State.setCore_epochWait (s : State) (c : Nat) (k : Core) : (s.setCore c k).epochWait = s.epochWait := rfl
@[simp] theorem State.setCore_mem (s : State) (c : Nat) (k : Core) : (s.setCore c k).mem = s.mem := rfl
@[simp] theorem State.setCore_chk (s : State) (c : Nat) (k : Core) : (s.setCore c k).chk = s.chk := rfl
@[simp] theorem State.setCore_segLines (s : State) (c : Nat) (k : Core) : (s.setCore c k).segLines = s.segLines := rfl
@[simp] theorem State.setCore_tags (s : State) (c : Nat) (k : Core) : (s.setCore c k).tags = s.tags := rfl
@[simp] theorem State.setCore_spareOf (s : State) (c : Nat) (k : Core) : (s.setCore c k).spareOf = s.spareOf := rfl
@[simp] theorem State.setCore_hardWait (s : State) (c : Nat) (k : Core) : (s.setCore c k).hardWait = s.hardWait := rfl
@[simp] theorem State.setCore_conv (s : State) (c : Nat) (k : Core) : (s.setCore c k).conv = s.conv := rfl
@[simp] theorem State.setCore_beaten (s : State) (c : Nat) (k : Core) : (s.setCore c k).beaten = s.beaten := rfl
@[simp] theorem State.setCore_flash (s : State) (c : Nat) (k : Core) : (s.setCore c k).flash = s.flash := rfl
@[simp] theorem State.setCore_flashCap (s : State) (c : Nat) (k : Core) : (s.setCore c k).flashCap = s.flashCap := rfl
@[simp] theorem State.setCore_couch (s : State) (c : Nat) (k : Core) : (s.setCore c k).couch = s.couch := rfl
@[simp] theorem State.setCore_chain (s : State) (c : Nat) (k : Core) : (s.setCore c k).chain = s.chain := rfl
@[simp] theorem State.setCore_bb (s : State) (c : Nat) (k : Core) : (s.setCore c k).bb = s.bb := rfl
@[simp] theorem State.setCore_wptr (s : State) (c : Nat) (k : Core) : (s.setCore c k).wptr = s.wptr := rfl
@[simp] theorem State.setCore_fuse (s : State) (c : Nat) (k : Core) : (s.setCore c k).fuse = s.fuse := rfl
@[simp] theorem State.setCore_booted (s : State) (c : Nat) (k : Core) : (s.setCore c k).booted = s.booted := rfl
@[simp] theorem State.setCore_sigCode (s : State) (c : Nat) (k : Core) : (s.setCore c k).sigCode = s.sigCode := rfl
@[simp] theorem State.setCore_xspiRes (s : State) (c : Nat) (k : Core) : (s.setCore c k).xspiRes = s.xspiRes := rfl
@[simp] theorem State.setCore_mgmtSending (s : State) (c : Nat) (k : Core) : (s.setCore c k).mgmtSending = s.mgmtSending := rfl
@[simp] theorem State.setCore_smbIndex (s : State) (c : Nat) (k : Core) : (s.setCore c k).smbIndex = s.smbIndex := rfl
@[simp] theorem State.setCore_jtag (s : State) (c : Nat) (k : Core) : (s.setCore c k).jtag = s.jtag := rfl
@[simp] theorem State.setCore_pcieAsks (s : State) (c : Nat) (k : Core) : (s.setCore c k).pcieAsks = s.pcieAsks := rfl
@[simp] theorem State.setCore_pcieAns (s : State) (c : Nat) (k : Core) : (s.setCore c k).pcieAns = s.pcieAns := rfl
@[simp] theorem State.setCore_pcieHeld (s : State) (c : Nat) (k : Core) : (s.setCore c k).pcieHeld = s.pcieHeld := rfl
@[simp] theorem State.setCore_msix (s : State) (c : Nat) (k : Core) : (s.setCore c k).msix = s.msix := rfl
@[simp] theorem State.setCore_ctrlHeld (s : State) (c : Nat) (k : Core) : (s.setCore c k).ctrlHeld = s.ctrlHeld := rfl
@[simp] theorem State.setCore_out (s : State) (c : Nat) (k : Core) : (s.setCore c k).out = s.out := rfl
@[simp] theorem State.setCore_freeTick (s : State) (c : Nat) (k : Core) : (s.setCore c k).freeTick = s.freeTick := rfl

/-! ## setSrc -/

@[simp] theorem State.setSrc_pending (s : State) (n : Nat) (e : EvSource) : (s.setSrc n e).pending = s.pending := rfl
@[simp] theorem State.setSrc_ctrl (s : State) (n : Nat) (e : EvSource) : (s.setSrc n e).ctrl = s.ctrl := rfl
@[simp] theorem State.setSrc_aonPend (s : State) (n : Nat) (e : EvSource) : (s.setSrc n e).aonPend = s.aonPend := rfl
@[simp] theorem State.setSrc_woken (s : State) (n : Nat) (e : EvSource) : (s.setSrc n e).woken = s.woken := rfl
@[simp] theorem State.setSrc_aonQueue (s : State) (n : Nat) (e : EvSource) : (s.setSrc n e).aonQueue = s.aonQueue := rfl
@[simp] theorem State.setSrc_aonWait (s : State) (n : Nat) (e : EvSource) : (s.setSrc n e).aonWait = s.aonWait := rfl
@[simp] theorem State.setSrc_aonAcks (s : State) (n : Nat) (e : EvSource) : (s.setSrc n e).aonAcks = s.aonAcks := rfl
@[simp] theorem State.setSrc_lines (s : State) (n : Nat) (e : EvSource) : (s.setSrc n e).lines = s.lines := rfl
@[simp] theorem State.setSrc_lineFuses (s : State) (n : Nat) (e : EvSource) : (s.setSrc n e).lineFuses = s.lineFuses := rfl
@[simp] theorem State.setSrc_passes (s : State) (n : Nat) (e : EvSource) : (s.setSrc n e).passes = s.passes := rfl
@[simp] theorem State.setSrc_calPos (s : State) (n : Nat) (e : EvSource) : (s.setSrc n e).calPos = s.calPos := rfl
@[simp] theorem State.setSrc_xings (s : State) (n : Nat) (e : EvSource) : (s.setSrc n e).xings = s.xings := rfl
@[simp] theorem State.setSrc_queues (s : State) (n : Nat) (e : EvSource) : (s.setSrc n e).queues = s.queues := rfl
@[simp] theorem State.setSrc_power (s : State) (n : Nat) (e : EvSource) : (s.setSrc n e).power = s.power := rfl
@[simp] theorem State.setSrc_clock (s : State) (n : Nat) (e : EvSource) : (s.setSrc n e).clock = s.clock := rfl
@[simp] theorem State.setSrc_cores (s : State) (n : Nat) (e : EvSource) : (s.setSrc n e).cores = s.cores := rfl
@[simp] theorem State.setSrc_links (s : State) (n : Nat) (e : EvSource) : (s.setSrc n e).links = s.links := rfl
@[simp] theorem State.setSrc_rtWait (s : State) (n : Nat) (e : EvSource) : (s.setSrc n e).rtWait = s.rtWait := rfl
@[simp] theorem State.setSrc_outst (s : State) (n : Nat) (e : EvSource) : (s.setSrc n e).outst = s.outst := rfl
@[simp] theorem State.setSrc_nextTag (s : State) (n : Nat) (e : EvSource) : (s.setSrc n e).nextTag = s.nextTag := rfl
@[simp] theorem State.setSrc_qholds (s : State) (n : Nat) (e : EvSource) : (s.setSrc n e).qholds = s.qholds := rfl
@[simp] theorem State.setSrc_coll (s : State) (n : Nat) (e : EvSource) : (s.setSrc n e).coll = s.coll := rfl
@[simp] theorem State.setSrc_collOwed (s : State) (n : Nat) (e : EvSource) : (s.setSrc n e).collOwed = s.collOwed := rfl
@[simp] theorem State.setSrc_tsync (s : State) (n : Nat) (e : EvSource) : (s.setSrc n e).tsync = s.tsync := rfl
@[simp] theorem State.setSrc_straps (s : State) (n : Nat) (e : EvSource) : (s.setSrc n e).straps = s.straps := rfl
@[simp] theorem State.setSrc_epochWait (s : State) (n : Nat) (e : EvSource) : (s.setSrc n e).epochWait = s.epochWait := rfl
@[simp] theorem State.setSrc_mem (s : State) (n : Nat) (e : EvSource) : (s.setSrc n e).mem = s.mem := rfl
@[simp] theorem State.setSrc_chk (s : State) (n : Nat) (e : EvSource) : (s.setSrc n e).chk = s.chk := rfl
@[simp] theorem State.setSrc_segLines (s : State) (n : Nat) (e : EvSource) : (s.setSrc n e).segLines = s.segLines := rfl
@[simp] theorem State.setSrc_tags (s : State) (n : Nat) (e : EvSource) : (s.setSrc n e).tags = s.tags := rfl
@[simp] theorem State.setSrc_spareOf (s : State) (n : Nat) (e : EvSource) : (s.setSrc n e).spareOf = s.spareOf := rfl
@[simp] theorem State.setSrc_hardWait (s : State) (n : Nat) (e : EvSource) : (s.setSrc n e).hardWait = s.hardWait := rfl
@[simp] theorem State.setSrc_conv (s : State) (n : Nat) (e : EvSource) : (s.setSrc n e).conv = s.conv := rfl
@[simp] theorem State.setSrc_beaten (s : State) (n : Nat) (e : EvSource) : (s.setSrc n e).beaten = s.beaten := rfl
@[simp] theorem State.setSrc_flash (s : State) (n : Nat) (e : EvSource) : (s.setSrc n e).flash = s.flash := rfl
@[simp] theorem State.setSrc_flashCap (s : State) (n : Nat) (e : EvSource) : (s.setSrc n e).flashCap = s.flashCap := rfl
@[simp] theorem State.setSrc_couch (s : State) (n : Nat) (e : EvSource) : (s.setSrc n e).couch = s.couch := rfl
@[simp] theorem State.setSrc_chain (s : State) (n : Nat) (e : EvSource) : (s.setSrc n e).chain = s.chain := rfl
@[simp] theorem State.setSrc_bb (s : State) (n : Nat) (e : EvSource) : (s.setSrc n e).bb = s.bb := rfl
@[simp] theorem State.setSrc_wptr (s : State) (n : Nat) (e : EvSource) : (s.setSrc n e).wptr = s.wptr := rfl
@[simp] theorem State.setSrc_fuse (s : State) (n : Nat) (e : EvSource) : (s.setSrc n e).fuse = s.fuse := rfl
@[simp] theorem State.setSrc_booted (s : State) (n : Nat) (e : EvSource) : (s.setSrc n e).booted = s.booted := rfl
@[simp] theorem State.setSrc_sigCode (s : State) (n : Nat) (e : EvSource) : (s.setSrc n e).sigCode = s.sigCode := rfl
@[simp] theorem State.setSrc_xspiRes (s : State) (n : Nat) (e : EvSource) : (s.setSrc n e).xspiRes = s.xspiRes := rfl
@[simp] theorem State.setSrc_mgmtSending (s : State) (n : Nat) (e : EvSource) : (s.setSrc n e).mgmtSending = s.mgmtSending := rfl
@[simp] theorem State.setSrc_smbIndex (s : State) (n : Nat) (e : EvSource) : (s.setSrc n e).smbIndex = s.smbIndex := rfl
@[simp] theorem State.setSrc_jtag (s : State) (n : Nat) (e : EvSource) : (s.setSrc n e).jtag = s.jtag := rfl
@[simp] theorem State.setSrc_pcieAsks (s : State) (n : Nat) (e : EvSource) : (s.setSrc n e).pcieAsks = s.pcieAsks := rfl
@[simp] theorem State.setSrc_pcieAns (s : State) (n : Nat) (e : EvSource) : (s.setSrc n e).pcieAns = s.pcieAns := rfl
@[simp] theorem State.setSrc_pcieHeld (s : State) (n : Nat) (e : EvSource) : (s.setSrc n e).pcieHeld = s.pcieHeld := rfl
@[simp] theorem State.setSrc_msix (s : State) (n : Nat) (e : EvSource) : (s.setSrc n e).msix = s.msix := rfl
@[simp] theorem State.setSrc_ctrlHeld (s : State) (n : Nat) (e : EvSource) : (s.setSrc n e).ctrlHeld = s.ctrlHeld := rfl
@[simp] theorem State.setSrc_out (s : State) (n : Nat) (e : EvSource) : (s.setSrc n e).out = s.out := rfl
@[simp] theorem State.setSrc_freeTick (s : State) (n : Nat) (e : EvSource) : (s.setSrc n e).freeTick = s.freeTick := rfl

/-! ## setXing -/

@[simp] theorem State.setXing_pending (s : State) (w : Window) (x : Nat) (c : Crossing) : (s.setXing w x c).pending = s.pending := rfl
@[simp] theorem State.setXing_ctrl (s : State) (w : Window) (x : Nat) (c : Crossing) : (s.setXing w x c).ctrl = s.ctrl := rfl
@[simp] theorem State.setXing_hub (s : State) (w : Window) (x : Nat) (c : Crossing) : (s.setXing w x c).hub = s.hub := rfl
@[simp] theorem State.setXing_aonPend (s : State) (w : Window) (x : Nat) (c : Crossing) : (s.setXing w x c).aonPend = s.aonPend := rfl
@[simp] theorem State.setXing_woken (s : State) (w : Window) (x : Nat) (c : Crossing) : (s.setXing w x c).woken = s.woken := rfl
@[simp] theorem State.setXing_aonQueue (s : State) (w : Window) (x : Nat) (c : Crossing) : (s.setXing w x c).aonQueue = s.aonQueue := rfl
@[simp] theorem State.setXing_aonWait (s : State) (w : Window) (x : Nat) (c : Crossing) : (s.setXing w x c).aonWait = s.aonWait := rfl
@[simp] theorem State.setXing_aonAcks (s : State) (w : Window) (x : Nat) (c : Crossing) : (s.setXing w x c).aonAcks = s.aonAcks := rfl
@[simp] theorem State.setXing_lines (s : State) (w : Window) (x : Nat) (c : Crossing) : (s.setXing w x c).lines = s.lines := rfl
@[simp] theorem State.setXing_lineFuses (s : State) (w : Window) (x : Nat) (c : Crossing) : (s.setXing w x c).lineFuses = s.lineFuses := rfl
@[simp] theorem State.setXing_passes (s : State) (w : Window) (x : Nat) (c : Crossing) : (s.setXing w x c).passes = s.passes := rfl
@[simp] theorem State.setXing_calPos (s : State) (w : Window) (x : Nat) (c : Crossing) : (s.setXing w x c).calPos = s.calPos := rfl
@[simp] theorem State.setXing_queues (s : State) (w : Window) (x : Nat) (c : Crossing) : (s.setXing w x c).queues = s.queues := rfl
@[simp] theorem State.setXing_power (s : State) (w : Window) (x : Nat) (c : Crossing) : (s.setXing w x c).power = s.power := rfl
@[simp] theorem State.setXing_clock (s : State) (w : Window) (x : Nat) (c : Crossing) : (s.setXing w x c).clock = s.clock := rfl
@[simp] theorem State.setXing_cores (s : State) (w : Window) (x : Nat) (c : Crossing) : (s.setXing w x c).cores = s.cores := rfl
@[simp] theorem State.setXing_links (s : State) (w : Window) (x : Nat) (c : Crossing) : (s.setXing w x c).links = s.links := rfl
@[simp] theorem State.setXing_rtWait (s : State) (w : Window) (x : Nat) (c : Crossing) : (s.setXing w x c).rtWait = s.rtWait := rfl
@[simp] theorem State.setXing_outst (s : State) (w : Window) (x : Nat) (c : Crossing) : (s.setXing w x c).outst = s.outst := rfl
@[simp] theorem State.setXing_nextTag (s : State) (w : Window) (x : Nat) (c : Crossing) : (s.setXing w x c).nextTag = s.nextTag := rfl
@[simp] theorem State.setXing_qholds (s : State) (w : Window) (x : Nat) (c : Crossing) : (s.setXing w x c).qholds = s.qholds := rfl
@[simp] theorem State.setXing_coll (s : State) (w : Window) (x : Nat) (c : Crossing) : (s.setXing w x c).coll = s.coll := rfl
@[simp] theorem State.setXing_collOwed (s : State) (w : Window) (x : Nat) (c : Crossing) : (s.setXing w x c).collOwed = s.collOwed := rfl
@[simp] theorem State.setXing_tsync (s : State) (w : Window) (x : Nat) (c : Crossing) : (s.setXing w x c).tsync = s.tsync := rfl
@[simp] theorem State.setXing_straps (s : State) (w : Window) (x : Nat) (c : Crossing) : (s.setXing w x c).straps = s.straps := rfl
@[simp] theorem State.setXing_epochWait (s : State) (w : Window) (x : Nat) (c : Crossing) : (s.setXing w x c).epochWait = s.epochWait := rfl
@[simp] theorem State.setXing_mem (s : State) (w : Window) (x : Nat) (c : Crossing) : (s.setXing w x c).mem = s.mem := rfl
@[simp] theorem State.setXing_chk (s : State) (w : Window) (x : Nat) (c : Crossing) : (s.setXing w x c).chk = s.chk := rfl
@[simp] theorem State.setXing_segLines (s : State) (w : Window) (x : Nat) (c : Crossing) : (s.setXing w x c).segLines = s.segLines := rfl
@[simp] theorem State.setXing_tags (s : State) (w : Window) (x : Nat) (c : Crossing) : (s.setXing w x c).tags = s.tags := rfl
@[simp] theorem State.setXing_spareOf (s : State) (w : Window) (x : Nat) (c : Crossing) : (s.setXing w x c).spareOf = s.spareOf := rfl
@[simp] theorem State.setXing_hardWait (s : State) (w : Window) (x : Nat) (c : Crossing) : (s.setXing w x c).hardWait = s.hardWait := rfl
@[simp] theorem State.setXing_conv (s : State) (w : Window) (x : Nat) (c : Crossing) : (s.setXing w x c).conv = s.conv := rfl
@[simp] theorem State.setXing_beaten (s : State) (w : Window) (x : Nat) (c : Crossing) : (s.setXing w x c).beaten = s.beaten := rfl
@[simp] theorem State.setXing_flash (s : State) (w : Window) (x : Nat) (c : Crossing) : (s.setXing w x c).flash = s.flash := rfl
@[simp] theorem State.setXing_flashCap (s : State) (w : Window) (x : Nat) (c : Crossing) : (s.setXing w x c).flashCap = s.flashCap := rfl
@[simp] theorem State.setXing_couch (s : State) (w : Window) (x : Nat) (c : Crossing) : (s.setXing w x c).couch = s.couch := rfl
@[simp] theorem State.setXing_chain (s : State) (w : Window) (x : Nat) (c : Crossing) : (s.setXing w x c).chain = s.chain := rfl
@[simp] theorem State.setXing_bb (s : State) (w : Window) (x : Nat) (c : Crossing) : (s.setXing w x c).bb = s.bb := rfl
@[simp] theorem State.setXing_wptr (s : State) (w : Window) (x : Nat) (c : Crossing) : (s.setXing w x c).wptr = s.wptr := rfl
@[simp] theorem State.setXing_fuse (s : State) (w : Window) (x : Nat) (c : Crossing) : (s.setXing w x c).fuse = s.fuse := rfl
@[simp] theorem State.setXing_booted (s : State) (w : Window) (x : Nat) (c : Crossing) : (s.setXing w x c).booted = s.booted := rfl
@[simp] theorem State.setXing_sigCode (s : State) (w : Window) (x : Nat) (c : Crossing) : (s.setXing w x c).sigCode = s.sigCode := rfl
@[simp] theorem State.setXing_xspiRes (s : State) (w : Window) (x : Nat) (c : Crossing) : (s.setXing w x c).xspiRes = s.xspiRes := rfl
@[simp] theorem State.setXing_mgmtSending (s : State) (w : Window) (x : Nat) (c : Crossing) : (s.setXing w x c).mgmtSending = s.mgmtSending := rfl
@[simp] theorem State.setXing_smbIndex (s : State) (w : Window) (x : Nat) (c : Crossing) : (s.setXing w x c).smbIndex = s.smbIndex := rfl
@[simp] theorem State.setXing_jtag (s : State) (w : Window) (x : Nat) (c : Crossing) : (s.setXing w x c).jtag = s.jtag := rfl
@[simp] theorem State.setXing_pcieAsks (s : State) (w : Window) (x : Nat) (c : Crossing) : (s.setXing w x c).pcieAsks = s.pcieAsks := rfl
@[simp] theorem State.setXing_pcieAns (s : State) (w : Window) (x : Nat) (c : Crossing) : (s.setXing w x c).pcieAns = s.pcieAns := rfl
@[simp] theorem State.setXing_pcieHeld (s : State) (w : Window) (x : Nat) (c : Crossing) : (s.setXing w x c).pcieHeld = s.pcieHeld := rfl
@[simp] theorem State.setXing_msix (s : State) (w : Window) (x : Nat) (c : Crossing) : (s.setXing w x c).msix = s.msix := rfl
@[simp] theorem State.setXing_ctrlHeld (s : State) (w : Window) (x : Nat) (c : Crossing) : (s.setXing w x c).ctrlHeld = s.ctrlHeld := rfl
@[simp] theorem State.setXing_out (s : State) (w : Window) (x : Nat) (c : Crossing) : (s.setXing w x c).out = s.out := rfl
@[simp] theorem State.setXing_freeTick (s : State) (w : Window) (x : Nat) (c : Crossing) : (s.setXing w x c).freeTick = s.freeTick := rfl

/-! ## setLine -/

@[simp] theorem State.setLine_pending (s : State) (w i : Nat) (l : DelayLine) : (s.setLine w i l).pending = s.pending := rfl
@[simp] theorem State.setLine_ctrl (s : State) (w i : Nat) (l : DelayLine) : (s.setLine w i l).ctrl = s.ctrl := rfl
@[simp] theorem State.setLine_hub (s : State) (w i : Nat) (l : DelayLine) : (s.setLine w i l).hub = s.hub := rfl
@[simp] theorem State.setLine_aonPend (s : State) (w i : Nat) (l : DelayLine) : (s.setLine w i l).aonPend = s.aonPend := rfl
@[simp] theorem State.setLine_woken (s : State) (w i : Nat) (l : DelayLine) : (s.setLine w i l).woken = s.woken := rfl
@[simp] theorem State.setLine_aonQueue (s : State) (w i : Nat) (l : DelayLine) : (s.setLine w i l).aonQueue = s.aonQueue := rfl
@[simp] theorem State.setLine_aonWait (s : State) (w i : Nat) (l : DelayLine) : (s.setLine w i l).aonWait = s.aonWait := rfl
@[simp] theorem State.setLine_aonAcks (s : State) (w i : Nat) (l : DelayLine) : (s.setLine w i l).aonAcks = s.aonAcks := rfl
@[simp] theorem State.setLine_lineFuses (s : State) (w i : Nat) (l : DelayLine) : (s.setLine w i l).lineFuses = s.lineFuses := rfl
@[simp] theorem State.setLine_passes (s : State) (w i : Nat) (l : DelayLine) : (s.setLine w i l).passes = s.passes := rfl
@[simp] theorem State.setLine_calPos (s : State) (w i : Nat) (l : DelayLine) : (s.setLine w i l).calPos = s.calPos := rfl
@[simp] theorem State.setLine_xings (s : State) (w i : Nat) (l : DelayLine) : (s.setLine w i l).xings = s.xings := rfl
@[simp] theorem State.setLine_queues (s : State) (w i : Nat) (l : DelayLine) : (s.setLine w i l).queues = s.queues := rfl
@[simp] theorem State.setLine_power (s : State) (w i : Nat) (l : DelayLine) : (s.setLine w i l).power = s.power := rfl
@[simp] theorem State.setLine_clock (s : State) (w i : Nat) (l : DelayLine) : (s.setLine w i l).clock = s.clock := rfl
@[simp] theorem State.setLine_cores (s : State) (w i : Nat) (l : DelayLine) : (s.setLine w i l).cores = s.cores := rfl
@[simp] theorem State.setLine_links (s : State) (w i : Nat) (l : DelayLine) : (s.setLine w i l).links = s.links := rfl
@[simp] theorem State.setLine_rtWait (s : State) (w i : Nat) (l : DelayLine) : (s.setLine w i l).rtWait = s.rtWait := rfl
@[simp] theorem State.setLine_outst (s : State) (w i : Nat) (l : DelayLine) : (s.setLine w i l).outst = s.outst := rfl
@[simp] theorem State.setLine_nextTag (s : State) (w i : Nat) (l : DelayLine) : (s.setLine w i l).nextTag = s.nextTag := rfl
@[simp] theorem State.setLine_qholds (s : State) (w i : Nat) (l : DelayLine) : (s.setLine w i l).qholds = s.qholds := rfl
@[simp] theorem State.setLine_coll (s : State) (w i : Nat) (l : DelayLine) : (s.setLine w i l).coll = s.coll := rfl
@[simp] theorem State.setLine_collOwed (s : State) (w i : Nat) (l : DelayLine) : (s.setLine w i l).collOwed = s.collOwed := rfl
@[simp] theorem State.setLine_tsync (s : State) (w i : Nat) (l : DelayLine) : (s.setLine w i l).tsync = s.tsync := rfl
@[simp] theorem State.setLine_straps (s : State) (w i : Nat) (l : DelayLine) : (s.setLine w i l).straps = s.straps := rfl
@[simp] theorem State.setLine_epochWait (s : State) (w i : Nat) (l : DelayLine) : (s.setLine w i l).epochWait = s.epochWait := rfl
@[simp] theorem State.setLine_mem (s : State) (w i : Nat) (l : DelayLine) : (s.setLine w i l).mem = s.mem := rfl
@[simp] theorem State.setLine_chk (s : State) (w i : Nat) (l : DelayLine) : (s.setLine w i l).chk = s.chk := rfl
@[simp] theorem State.setLine_segLines (s : State) (w i : Nat) (l : DelayLine) : (s.setLine w i l).segLines = s.segLines := rfl
@[simp] theorem State.setLine_tags (s : State) (w i : Nat) (l : DelayLine) : (s.setLine w i l).tags = s.tags := rfl
@[simp] theorem State.setLine_spareOf (s : State) (w i : Nat) (l : DelayLine) : (s.setLine w i l).spareOf = s.spareOf := rfl
@[simp] theorem State.setLine_hardWait (s : State) (w i : Nat) (l : DelayLine) : (s.setLine w i l).hardWait = s.hardWait := rfl
@[simp] theorem State.setLine_conv (s : State) (w i : Nat) (l : DelayLine) : (s.setLine w i l).conv = s.conv := rfl
@[simp] theorem State.setLine_beaten (s : State) (w i : Nat) (l : DelayLine) : (s.setLine w i l).beaten = s.beaten := rfl
@[simp] theorem State.setLine_flash (s : State) (w i : Nat) (l : DelayLine) : (s.setLine w i l).flash = s.flash := rfl
@[simp] theorem State.setLine_flashCap (s : State) (w i : Nat) (l : DelayLine) : (s.setLine w i l).flashCap = s.flashCap := rfl
@[simp] theorem State.setLine_couch (s : State) (w i : Nat) (l : DelayLine) : (s.setLine w i l).couch = s.couch := rfl
@[simp] theorem State.setLine_chain (s : State) (w i : Nat) (l : DelayLine) : (s.setLine w i l).chain = s.chain := rfl
@[simp] theorem State.setLine_bb (s : State) (w i : Nat) (l : DelayLine) : (s.setLine w i l).bb = s.bb := rfl
@[simp] theorem State.setLine_wptr (s : State) (w i : Nat) (l : DelayLine) : (s.setLine w i l).wptr = s.wptr := rfl
@[simp] theorem State.setLine_fuse (s : State) (w i : Nat) (l : DelayLine) : (s.setLine w i l).fuse = s.fuse := rfl
@[simp] theorem State.setLine_booted (s : State) (w i : Nat) (l : DelayLine) : (s.setLine w i l).booted = s.booted := rfl
@[simp] theorem State.setLine_sigCode (s : State) (w i : Nat) (l : DelayLine) : (s.setLine w i l).sigCode = s.sigCode := rfl
@[simp] theorem State.setLine_xspiRes (s : State) (w i : Nat) (l : DelayLine) : (s.setLine w i l).xspiRes = s.xspiRes := rfl
@[simp] theorem State.setLine_mgmtSending (s : State) (w i : Nat) (l : DelayLine) : (s.setLine w i l).mgmtSending = s.mgmtSending := rfl
@[simp] theorem State.setLine_smbIndex (s : State) (w i : Nat) (l : DelayLine) : (s.setLine w i l).smbIndex = s.smbIndex := rfl
@[simp] theorem State.setLine_jtag (s : State) (w i : Nat) (l : DelayLine) : (s.setLine w i l).jtag = s.jtag := rfl
@[simp] theorem State.setLine_pcieAsks (s : State) (w i : Nat) (l : DelayLine) : (s.setLine w i l).pcieAsks = s.pcieAsks := rfl
@[simp] theorem State.setLine_pcieAns (s : State) (w i : Nat) (l : DelayLine) : (s.setLine w i l).pcieAns = s.pcieAns := rfl
@[simp] theorem State.setLine_pcieHeld (s : State) (w i : Nat) (l : DelayLine) : (s.setLine w i l).pcieHeld = s.pcieHeld := rfl
@[simp] theorem State.setLine_msix (s : State) (w i : Nat) (l : DelayLine) : (s.setLine w i l).msix = s.msix := rfl
@[simp] theorem State.setLine_ctrlHeld (s : State) (w i : Nat) (l : DelayLine) : (s.setLine w i l).ctrlHeld = s.ctrlHeld := rfl
@[simp] theorem State.setLine_out (s : State) (w i : Nat) (l : DelayLine) : (s.setLine w i l).out = s.out := rfl
@[simp] theorem State.setLine_freeTick (s : State) (w i : Nat) (l : DelayLine) : (s.setLine w i l).freeTick = s.freeTick := rfl

/-! ## setQueue -/

@[simp] theorem State.setQueue_pending (s : State) (p q : Nat) (m : MQueue) : (s.setQueue p q m).pending = s.pending := rfl
@[simp] theorem State.setQueue_ctrl (s : State) (p q : Nat) (m : MQueue) : (s.setQueue p q m).ctrl = s.ctrl := rfl
@[simp] theorem State.setQueue_hub (s : State) (p q : Nat) (m : MQueue) : (s.setQueue p q m).hub = s.hub := rfl
@[simp] theorem State.setQueue_aonPend (s : State) (p q : Nat) (m : MQueue) : (s.setQueue p q m).aonPend = s.aonPend := rfl
@[simp] theorem State.setQueue_woken (s : State) (p q : Nat) (m : MQueue) : (s.setQueue p q m).woken = s.woken := rfl
@[simp] theorem State.setQueue_aonQueue (s : State) (p q : Nat) (m : MQueue) : (s.setQueue p q m).aonQueue = s.aonQueue := rfl
@[simp] theorem State.setQueue_aonWait (s : State) (p q : Nat) (m : MQueue) : (s.setQueue p q m).aonWait = s.aonWait := rfl
@[simp] theorem State.setQueue_aonAcks (s : State) (p q : Nat) (m : MQueue) : (s.setQueue p q m).aonAcks = s.aonAcks := rfl
@[simp] theorem State.setQueue_lines (s : State) (p q : Nat) (m : MQueue) : (s.setQueue p q m).lines = s.lines := rfl
@[simp] theorem State.setQueue_lineFuses (s : State) (p q : Nat) (m : MQueue) : (s.setQueue p q m).lineFuses = s.lineFuses := rfl
@[simp] theorem State.setQueue_passes (s : State) (p q : Nat) (m : MQueue) : (s.setQueue p q m).passes = s.passes := rfl
@[simp] theorem State.setQueue_calPos (s : State) (p q : Nat) (m : MQueue) : (s.setQueue p q m).calPos = s.calPos := rfl
@[simp] theorem State.setQueue_xings (s : State) (p q : Nat) (m : MQueue) : (s.setQueue p q m).xings = s.xings := rfl
@[simp] theorem State.setQueue_power (s : State) (p q : Nat) (m : MQueue) : (s.setQueue p q m).power = s.power := rfl
@[simp] theorem State.setQueue_clock (s : State) (p q : Nat) (m : MQueue) : (s.setQueue p q m).clock = s.clock := rfl
@[simp] theorem State.setQueue_cores (s : State) (p q : Nat) (m : MQueue) : (s.setQueue p q m).cores = s.cores := rfl
@[simp] theorem State.setQueue_links (s : State) (p q : Nat) (m : MQueue) : (s.setQueue p q m).links = s.links := rfl
@[simp] theorem State.setQueue_rtWait (s : State) (p q : Nat) (m : MQueue) : (s.setQueue p q m).rtWait = s.rtWait := rfl
@[simp] theorem State.setQueue_outst (s : State) (p q : Nat) (m : MQueue) : (s.setQueue p q m).outst = s.outst := rfl
@[simp] theorem State.setQueue_nextTag (s : State) (p q : Nat) (m : MQueue) : (s.setQueue p q m).nextTag = s.nextTag := rfl
@[simp] theorem State.setQueue_qholds (s : State) (p q : Nat) (m : MQueue) : (s.setQueue p q m).qholds = s.qholds := rfl
@[simp] theorem State.setQueue_coll (s : State) (p q : Nat) (m : MQueue) : (s.setQueue p q m).coll = s.coll := rfl
@[simp] theorem State.setQueue_collOwed (s : State) (p q : Nat) (m : MQueue) : (s.setQueue p q m).collOwed = s.collOwed := rfl
@[simp] theorem State.setQueue_tsync (s : State) (p q : Nat) (m : MQueue) : (s.setQueue p q m).tsync = s.tsync := rfl
@[simp] theorem State.setQueue_straps (s : State) (p q : Nat) (m : MQueue) : (s.setQueue p q m).straps = s.straps := rfl
@[simp] theorem State.setQueue_epochWait (s : State) (p q : Nat) (m : MQueue) : (s.setQueue p q m).epochWait = s.epochWait := rfl
@[simp] theorem State.setQueue_mem (s : State) (p q : Nat) (m : MQueue) : (s.setQueue p q m).mem = s.mem := rfl
@[simp] theorem State.setQueue_chk (s : State) (p q : Nat) (m : MQueue) : (s.setQueue p q m).chk = s.chk := rfl
@[simp] theorem State.setQueue_segLines (s : State) (p q : Nat) (m : MQueue) : (s.setQueue p q m).segLines = s.segLines := rfl
@[simp] theorem State.setQueue_tags (s : State) (p q : Nat) (m : MQueue) : (s.setQueue p q m).tags = s.tags := rfl
@[simp] theorem State.setQueue_spareOf (s : State) (p q : Nat) (m : MQueue) : (s.setQueue p q m).spareOf = s.spareOf := rfl
@[simp] theorem State.setQueue_hardWait (s : State) (p q : Nat) (m : MQueue) : (s.setQueue p q m).hardWait = s.hardWait := rfl
@[simp] theorem State.setQueue_conv (s : State) (p q : Nat) (m : MQueue) : (s.setQueue p q m).conv = s.conv := rfl
@[simp] theorem State.setQueue_beaten (s : State) (p q : Nat) (m : MQueue) : (s.setQueue p q m).beaten = s.beaten := rfl
@[simp] theorem State.setQueue_flash (s : State) (p q : Nat) (m : MQueue) : (s.setQueue p q m).flash = s.flash := rfl
@[simp] theorem State.setQueue_flashCap (s : State) (p q : Nat) (m : MQueue) : (s.setQueue p q m).flashCap = s.flashCap := rfl
@[simp] theorem State.setQueue_couch (s : State) (p q : Nat) (m : MQueue) : (s.setQueue p q m).couch = s.couch := rfl
@[simp] theorem State.setQueue_chain (s : State) (p q : Nat) (m : MQueue) : (s.setQueue p q m).chain = s.chain := rfl
@[simp] theorem State.setQueue_bb (s : State) (p q : Nat) (m : MQueue) : (s.setQueue p q m).bb = s.bb := rfl
@[simp] theorem State.setQueue_wptr (s : State) (p q : Nat) (m : MQueue) : (s.setQueue p q m).wptr = s.wptr := rfl
@[simp] theorem State.setQueue_fuse (s : State) (p q : Nat) (m : MQueue) : (s.setQueue p q m).fuse = s.fuse := rfl
@[simp] theorem State.setQueue_booted (s : State) (p q : Nat) (m : MQueue) : (s.setQueue p q m).booted = s.booted := rfl
@[simp] theorem State.setQueue_sigCode (s : State) (p q : Nat) (m : MQueue) : (s.setQueue p q m).sigCode = s.sigCode := rfl
@[simp] theorem State.setQueue_xspiRes (s : State) (p q : Nat) (m : MQueue) : (s.setQueue p q m).xspiRes = s.xspiRes := rfl
@[simp] theorem State.setQueue_mgmtSending (s : State) (p q : Nat) (m : MQueue) : (s.setQueue p q m).mgmtSending = s.mgmtSending := rfl
@[simp] theorem State.setQueue_smbIndex (s : State) (p q : Nat) (m : MQueue) : (s.setQueue p q m).smbIndex = s.smbIndex := rfl
@[simp] theorem State.setQueue_jtag (s : State) (p q : Nat) (m : MQueue) : (s.setQueue p q m).jtag = s.jtag := rfl
@[simp] theorem State.setQueue_pcieAsks (s : State) (p q : Nat) (m : MQueue) : (s.setQueue p q m).pcieAsks = s.pcieAsks := rfl
@[simp] theorem State.setQueue_pcieAns (s : State) (p q : Nat) (m : MQueue) : (s.setQueue p q m).pcieAns = s.pcieAns := rfl
@[simp] theorem State.setQueue_pcieHeld (s : State) (p q : Nat) (m : MQueue) : (s.setQueue p q m).pcieHeld = s.pcieHeld := rfl
@[simp] theorem State.setQueue_msix (s : State) (p q : Nat) (m : MQueue) : (s.setQueue p q m).msix = s.msix := rfl
@[simp] theorem State.setQueue_ctrlHeld (s : State) (p q : Nat) (m : MQueue) : (s.setQueue p q m).ctrlHeld = s.ctrlHeld := rfl
@[simp] theorem State.setQueue_out (s : State) (p q : Nat) (m : MQueue) : (s.setQueue p q m).out = s.out := rfl
@[simp] theorem State.setQueue_freeTick (s : State) (p q : Nat) (m : MQueue) : (s.setQueue p q m).freeTick = s.freeTick := rfl

/-! ## setLk -/

@[simp] theorem State.setLk_pending (s : State) (n : Nat) (l : LinkSt) : (s.setLk n l).pending = s.pending := rfl
@[simp] theorem State.setLk_ctrl (s : State) (n : Nat) (l : LinkSt) : (s.setLk n l).ctrl = s.ctrl := rfl
@[simp] theorem State.setLk_hub (s : State) (n : Nat) (l : LinkSt) : (s.setLk n l).hub = s.hub := rfl
@[simp] theorem State.setLk_aonPend (s : State) (n : Nat) (l : LinkSt) : (s.setLk n l).aonPend = s.aonPend := rfl
@[simp] theorem State.setLk_woken (s : State) (n : Nat) (l : LinkSt) : (s.setLk n l).woken = s.woken := rfl
@[simp] theorem State.setLk_aonQueue (s : State) (n : Nat) (l : LinkSt) : (s.setLk n l).aonQueue = s.aonQueue := rfl
@[simp] theorem State.setLk_aonWait (s : State) (n : Nat) (l : LinkSt) : (s.setLk n l).aonWait = s.aonWait := rfl
@[simp] theorem State.setLk_aonAcks (s : State) (n : Nat) (l : LinkSt) : (s.setLk n l).aonAcks = s.aonAcks := rfl
@[simp] theorem State.setLk_lines (s : State) (n : Nat) (l : LinkSt) : (s.setLk n l).lines = s.lines := rfl
@[simp] theorem State.setLk_lineFuses (s : State) (n : Nat) (l : LinkSt) : (s.setLk n l).lineFuses = s.lineFuses := rfl
@[simp] theorem State.setLk_passes (s : State) (n : Nat) (l : LinkSt) : (s.setLk n l).passes = s.passes := rfl
@[simp] theorem State.setLk_calPos (s : State) (n : Nat) (l : LinkSt) : (s.setLk n l).calPos = s.calPos := rfl
@[simp] theorem State.setLk_xings (s : State) (n : Nat) (l : LinkSt) : (s.setLk n l).xings = s.xings := rfl
@[simp] theorem State.setLk_queues (s : State) (n : Nat) (l : LinkSt) : (s.setLk n l).queues = s.queues := rfl
@[simp] theorem State.setLk_power (s : State) (n : Nat) (l : LinkSt) : (s.setLk n l).power = s.power := rfl
@[simp] theorem State.setLk_clock (s : State) (n : Nat) (l : LinkSt) : (s.setLk n l).clock = s.clock := rfl
@[simp] theorem State.setLk_cores (s : State) (n : Nat) (l : LinkSt) : (s.setLk n l).cores = s.cores := rfl
@[simp] theorem State.setLk_rtWait (s : State) (n : Nat) (l : LinkSt) : (s.setLk n l).rtWait = s.rtWait := rfl
@[simp] theorem State.setLk_outst (s : State) (n : Nat) (l : LinkSt) : (s.setLk n l).outst = s.outst := rfl
@[simp] theorem State.setLk_nextTag (s : State) (n : Nat) (l : LinkSt) : (s.setLk n l).nextTag = s.nextTag := rfl
@[simp] theorem State.setLk_qholds (s : State) (n : Nat) (l : LinkSt) : (s.setLk n l).qholds = s.qholds := rfl
@[simp] theorem State.setLk_coll (s : State) (n : Nat) (l : LinkSt) : (s.setLk n l).coll = s.coll := rfl
@[simp] theorem State.setLk_collOwed (s : State) (n : Nat) (l : LinkSt) : (s.setLk n l).collOwed = s.collOwed := rfl
@[simp] theorem State.setLk_tsync (s : State) (n : Nat) (l : LinkSt) : (s.setLk n l).tsync = s.tsync := rfl
@[simp] theorem State.setLk_straps (s : State) (n : Nat) (l : LinkSt) : (s.setLk n l).straps = s.straps := rfl
@[simp] theorem State.setLk_epochWait (s : State) (n : Nat) (l : LinkSt) : (s.setLk n l).epochWait = s.epochWait := rfl
@[simp] theorem State.setLk_mem (s : State) (n : Nat) (l : LinkSt) : (s.setLk n l).mem = s.mem := rfl
@[simp] theorem State.setLk_chk (s : State) (n : Nat) (l : LinkSt) : (s.setLk n l).chk = s.chk := rfl
@[simp] theorem State.setLk_segLines (s : State) (n : Nat) (l : LinkSt) : (s.setLk n l).segLines = s.segLines := rfl
@[simp] theorem State.setLk_tags (s : State) (n : Nat) (l : LinkSt) : (s.setLk n l).tags = s.tags := rfl
@[simp] theorem State.setLk_spareOf (s : State) (n : Nat) (l : LinkSt) : (s.setLk n l).spareOf = s.spareOf := rfl
@[simp] theorem State.setLk_hardWait (s : State) (n : Nat) (l : LinkSt) : (s.setLk n l).hardWait = s.hardWait := rfl
@[simp] theorem State.setLk_conv (s : State) (n : Nat) (l : LinkSt) : (s.setLk n l).conv = s.conv := rfl
@[simp] theorem State.setLk_beaten (s : State) (n : Nat) (l : LinkSt) : (s.setLk n l).beaten = s.beaten := rfl
@[simp] theorem State.setLk_flash (s : State) (n : Nat) (l : LinkSt) : (s.setLk n l).flash = s.flash := rfl
@[simp] theorem State.setLk_flashCap (s : State) (n : Nat) (l : LinkSt) : (s.setLk n l).flashCap = s.flashCap := rfl
@[simp] theorem State.setLk_couch (s : State) (n : Nat) (l : LinkSt) : (s.setLk n l).couch = s.couch := rfl
@[simp] theorem State.setLk_chain (s : State) (n : Nat) (l : LinkSt) : (s.setLk n l).chain = s.chain := rfl
@[simp] theorem State.setLk_bb (s : State) (n : Nat) (l : LinkSt) : (s.setLk n l).bb = s.bb := rfl
@[simp] theorem State.setLk_wptr (s : State) (n : Nat) (l : LinkSt) : (s.setLk n l).wptr = s.wptr := rfl
@[simp] theorem State.setLk_fuse (s : State) (n : Nat) (l : LinkSt) : (s.setLk n l).fuse = s.fuse := rfl
@[simp] theorem State.setLk_booted (s : State) (n : Nat) (l : LinkSt) : (s.setLk n l).booted = s.booted := rfl
@[simp] theorem State.setLk_sigCode (s : State) (n : Nat) (l : LinkSt) : (s.setLk n l).sigCode = s.sigCode := rfl
@[simp] theorem State.setLk_xspiRes (s : State) (n : Nat) (l : LinkSt) : (s.setLk n l).xspiRes = s.xspiRes := rfl
@[simp] theorem State.setLk_mgmtSending (s : State) (n : Nat) (l : LinkSt) : (s.setLk n l).mgmtSending = s.mgmtSending := rfl
@[simp] theorem State.setLk_smbIndex (s : State) (n : Nat) (l : LinkSt) : (s.setLk n l).smbIndex = s.smbIndex := rfl
@[simp] theorem State.setLk_jtag (s : State) (n : Nat) (l : LinkSt) : (s.setLk n l).jtag = s.jtag := rfl
@[simp] theorem State.setLk_pcieAsks (s : State) (n : Nat) (l : LinkSt) : (s.setLk n l).pcieAsks = s.pcieAsks := rfl
@[simp] theorem State.setLk_pcieAns (s : State) (n : Nat) (l : LinkSt) : (s.setLk n l).pcieAns = s.pcieAns := rfl
@[simp] theorem State.setLk_pcieHeld (s : State) (n : Nat) (l : LinkSt) : (s.setLk n l).pcieHeld = s.pcieHeld := rfl
@[simp] theorem State.setLk_msix (s : State) (n : Nat) (l : LinkSt) : (s.setLk n l).msix = s.msix := rfl
@[simp] theorem State.setLk_ctrlHeld (s : State) (n : Nat) (l : LinkSt) : (s.setLk n l).ctrlHeld = s.ctrlHeld := rfl
@[simp] theorem State.setLk_out (s : State) (n : Nat) (l : LinkSt) : (s.setLk n l).out = s.out := rfl
@[simp] theorem State.setLk_freeTick (s : State) (n : Nat) (l : LinkSt) : (s.setLk n l).freeTick = s.freeTick := rfl

/-! ## setByte -/

@[simp] theorem State.setByte_pending (s : State) (k : Nat) (b : Byte) : (s.setByte k b).pending = s.pending := rfl
@[simp] theorem State.setByte_ctrl (s : State) (k : Nat) (b : Byte) : (s.setByte k b).ctrl = s.ctrl := rfl
@[simp] theorem State.setByte_hub (s : State) (k : Nat) (b : Byte) : (s.setByte k b).hub = s.hub := rfl
@[simp] theorem State.setByte_aonPend (s : State) (k : Nat) (b : Byte) : (s.setByte k b).aonPend = s.aonPend := rfl
@[simp] theorem State.setByte_woken (s : State) (k : Nat) (b : Byte) : (s.setByte k b).woken = s.woken := rfl
@[simp] theorem State.setByte_aonQueue (s : State) (k : Nat) (b : Byte) : (s.setByte k b).aonQueue = s.aonQueue := rfl
@[simp] theorem State.setByte_aonWait (s : State) (k : Nat) (b : Byte) : (s.setByte k b).aonWait = s.aonWait := rfl
@[simp] theorem State.setByte_aonAcks (s : State) (k : Nat) (b : Byte) : (s.setByte k b).aonAcks = s.aonAcks := rfl
@[simp] theorem State.setByte_lines (s : State) (k : Nat) (b : Byte) : (s.setByte k b).lines = s.lines := rfl
@[simp] theorem State.setByte_lineFuses (s : State) (k : Nat) (b : Byte) : (s.setByte k b).lineFuses = s.lineFuses := rfl
@[simp] theorem State.setByte_passes (s : State) (k : Nat) (b : Byte) : (s.setByte k b).passes = s.passes := rfl
@[simp] theorem State.setByte_calPos (s : State) (k : Nat) (b : Byte) : (s.setByte k b).calPos = s.calPos := rfl
@[simp] theorem State.setByte_xings (s : State) (k : Nat) (b : Byte) : (s.setByte k b).xings = s.xings := rfl
@[simp] theorem State.setByte_queues (s : State) (k : Nat) (b : Byte) : (s.setByte k b).queues = s.queues := rfl
@[simp] theorem State.setByte_power (s : State) (k : Nat) (b : Byte) : (s.setByte k b).power = s.power := rfl
@[simp] theorem State.setByte_clock (s : State) (k : Nat) (b : Byte) : (s.setByte k b).clock = s.clock := rfl
@[simp] theorem State.setByte_cores (s : State) (k : Nat) (b : Byte) : (s.setByte k b).cores = s.cores := rfl
@[simp] theorem State.setByte_links (s : State) (k : Nat) (b : Byte) : (s.setByte k b).links = s.links := rfl
@[simp] theorem State.setByte_rtWait (s : State) (k : Nat) (b : Byte) : (s.setByte k b).rtWait = s.rtWait := rfl
@[simp] theorem State.setByte_outst (s : State) (k : Nat) (b : Byte) : (s.setByte k b).outst = s.outst := rfl
@[simp] theorem State.setByte_nextTag (s : State) (k : Nat) (b : Byte) : (s.setByte k b).nextTag = s.nextTag := rfl
@[simp] theorem State.setByte_qholds (s : State) (k : Nat) (b : Byte) : (s.setByte k b).qholds = s.qholds := rfl
@[simp] theorem State.setByte_coll (s : State) (k : Nat) (b : Byte) : (s.setByte k b).coll = s.coll := rfl
@[simp] theorem State.setByte_collOwed (s : State) (k : Nat) (b : Byte) : (s.setByte k b).collOwed = s.collOwed := rfl
@[simp] theorem State.setByte_tsync (s : State) (k : Nat) (b : Byte) : (s.setByte k b).tsync = s.tsync := rfl
@[simp] theorem State.setByte_straps (s : State) (k : Nat) (b : Byte) : (s.setByte k b).straps = s.straps := rfl
@[simp] theorem State.setByte_epochWait (s : State) (k : Nat) (b : Byte) : (s.setByte k b).epochWait = s.epochWait := rfl
@[simp] theorem State.setByte_chk (s : State) (k : Nat) (b : Byte) : (s.setByte k b).chk = s.chk := rfl
@[simp] theorem State.setByte_segLines (s : State) (k : Nat) (b : Byte) : (s.setByte k b).segLines = s.segLines := rfl
@[simp] theorem State.setByte_tags (s : State) (k : Nat) (b : Byte) : (s.setByte k b).tags = s.tags := rfl
@[simp] theorem State.setByte_spareOf (s : State) (k : Nat) (b : Byte) : (s.setByte k b).spareOf = s.spareOf := rfl
@[simp] theorem State.setByte_hardWait (s : State) (k : Nat) (b : Byte) : (s.setByte k b).hardWait = s.hardWait := rfl
@[simp] theorem State.setByte_conv (s : State) (k : Nat) (b : Byte) : (s.setByte k b).conv = s.conv := rfl
@[simp] theorem State.setByte_beaten (s : State) (k : Nat) (b : Byte) : (s.setByte k b).beaten = s.beaten := rfl
@[simp] theorem State.setByte_flash (s : State) (k : Nat) (b : Byte) : (s.setByte k b).flash = s.flash := rfl
@[simp] theorem State.setByte_flashCap (s : State) (k : Nat) (b : Byte) : (s.setByte k b).flashCap = s.flashCap := rfl
@[simp] theorem State.setByte_couch (s : State) (k : Nat) (b : Byte) : (s.setByte k b).couch = s.couch := rfl
@[simp] theorem State.setByte_chain (s : State) (k : Nat) (b : Byte) : (s.setByte k b).chain = s.chain := rfl
@[simp] theorem State.setByte_bb (s : State) (k : Nat) (b : Byte) : (s.setByte k b).bb = s.bb := rfl
@[simp] theorem State.setByte_wptr (s : State) (k : Nat) (b : Byte) : (s.setByte k b).wptr = s.wptr := rfl
@[simp] theorem State.setByte_fuse (s : State) (k : Nat) (b : Byte) : (s.setByte k b).fuse = s.fuse := rfl
@[simp] theorem State.setByte_booted (s : State) (k : Nat) (b : Byte) : (s.setByte k b).booted = s.booted := rfl
@[simp] theorem State.setByte_sigCode (s : State) (k : Nat) (b : Byte) : (s.setByte k b).sigCode = s.sigCode := rfl
@[simp] theorem State.setByte_xspiRes (s : State) (k : Nat) (b : Byte) : (s.setByte k b).xspiRes = s.xspiRes := rfl
@[simp] theorem State.setByte_mgmtSending (s : State) (k : Nat) (b : Byte) : (s.setByte k b).mgmtSending = s.mgmtSending := rfl
@[simp] theorem State.setByte_smbIndex (s : State) (k : Nat) (b : Byte) : (s.setByte k b).smbIndex = s.smbIndex := rfl
@[simp] theorem State.setByte_jtag (s : State) (k : Nat) (b : Byte) : (s.setByte k b).jtag = s.jtag := rfl
@[simp] theorem State.setByte_pcieAsks (s : State) (k : Nat) (b : Byte) : (s.setByte k b).pcieAsks = s.pcieAsks := rfl
@[simp] theorem State.setByte_pcieAns (s : State) (k : Nat) (b : Byte) : (s.setByte k b).pcieAns = s.pcieAns := rfl
@[simp] theorem State.setByte_pcieHeld (s : State) (k : Nat) (b : Byte) : (s.setByte k b).pcieHeld = s.pcieHeld := rfl
@[simp] theorem State.setByte_msix (s : State) (k : Nat) (b : Byte) : (s.setByte k b).msix = s.msix := rfl
@[simp] theorem State.setByte_ctrlHeld (s : State) (k : Nat) (b : Byte) : (s.setByte k b).ctrlHeld = s.ctrlHeld := rfl
@[simp] theorem State.setByte_out (s : State) (k : Nat) (b : Byte) : (s.setByte k b).out = s.out := rfl
@[simp] theorem State.setByte_freeTick (s : State) (k : Nat) (b : Byte) : (s.setByte k b).freeTick = s.freeTick := rfl

/-! ## updCouch -/

@[simp] theorem State.updCouch_pending (s : State) (f : CouchSt → CouchSt) : (s.updCouch f).pending = s.pending := rfl
@[simp] theorem State.updCouch_ctrl (s : State) (f : CouchSt → CouchSt) : (s.updCouch f).ctrl = s.ctrl := rfl
@[simp] theorem State.updCouch_hub (s : State) (f : CouchSt → CouchSt) : (s.updCouch f).hub = s.hub := rfl
@[simp] theorem State.updCouch_aonPend (s : State) (f : CouchSt → CouchSt) : (s.updCouch f).aonPend = s.aonPend := rfl
@[simp] theorem State.updCouch_woken (s : State) (f : CouchSt → CouchSt) : (s.updCouch f).woken = s.woken := rfl
@[simp] theorem State.updCouch_aonQueue (s : State) (f : CouchSt → CouchSt) : (s.updCouch f).aonQueue = s.aonQueue := rfl
@[simp] theorem State.updCouch_aonWait (s : State) (f : CouchSt → CouchSt) : (s.updCouch f).aonWait = s.aonWait := rfl
@[simp] theorem State.updCouch_aonAcks (s : State) (f : CouchSt → CouchSt) : (s.updCouch f).aonAcks = s.aonAcks := rfl
@[simp] theorem State.updCouch_lines (s : State) (f : CouchSt → CouchSt) : (s.updCouch f).lines = s.lines := rfl
@[simp] theorem State.updCouch_lineFuses (s : State) (f : CouchSt → CouchSt) : (s.updCouch f).lineFuses = s.lineFuses := rfl
@[simp] theorem State.updCouch_passes (s : State) (f : CouchSt → CouchSt) : (s.updCouch f).passes = s.passes := rfl
@[simp] theorem State.updCouch_calPos (s : State) (f : CouchSt → CouchSt) : (s.updCouch f).calPos = s.calPos := rfl
@[simp] theorem State.updCouch_xings (s : State) (f : CouchSt → CouchSt) : (s.updCouch f).xings = s.xings := rfl
@[simp] theorem State.updCouch_queues (s : State) (f : CouchSt → CouchSt) : (s.updCouch f).queues = s.queues := rfl
@[simp] theorem State.updCouch_power (s : State) (f : CouchSt → CouchSt) : (s.updCouch f).power = s.power := rfl
@[simp] theorem State.updCouch_clock (s : State) (f : CouchSt → CouchSt) : (s.updCouch f).clock = s.clock := rfl
@[simp] theorem State.updCouch_cores (s : State) (f : CouchSt → CouchSt) : (s.updCouch f).cores = s.cores := rfl
@[simp] theorem State.updCouch_links (s : State) (f : CouchSt → CouchSt) : (s.updCouch f).links = s.links := rfl
@[simp] theorem State.updCouch_rtWait (s : State) (f : CouchSt → CouchSt) : (s.updCouch f).rtWait = s.rtWait := rfl
@[simp] theorem State.updCouch_outst (s : State) (f : CouchSt → CouchSt) : (s.updCouch f).outst = s.outst := rfl
@[simp] theorem State.updCouch_nextTag (s : State) (f : CouchSt → CouchSt) : (s.updCouch f).nextTag = s.nextTag := rfl
@[simp] theorem State.updCouch_qholds (s : State) (f : CouchSt → CouchSt) : (s.updCouch f).qholds = s.qholds := rfl
@[simp] theorem State.updCouch_coll (s : State) (f : CouchSt → CouchSt) : (s.updCouch f).coll = s.coll := rfl
@[simp] theorem State.updCouch_collOwed (s : State) (f : CouchSt → CouchSt) : (s.updCouch f).collOwed = s.collOwed := rfl
@[simp] theorem State.updCouch_tsync (s : State) (f : CouchSt → CouchSt) : (s.updCouch f).tsync = s.tsync := rfl
@[simp] theorem State.updCouch_straps (s : State) (f : CouchSt → CouchSt) : (s.updCouch f).straps = s.straps := rfl
@[simp] theorem State.updCouch_epochWait (s : State) (f : CouchSt → CouchSt) : (s.updCouch f).epochWait = s.epochWait := rfl
@[simp] theorem State.updCouch_mem (s : State) (f : CouchSt → CouchSt) : (s.updCouch f).mem = s.mem := rfl
@[simp] theorem State.updCouch_chk (s : State) (f : CouchSt → CouchSt) : (s.updCouch f).chk = s.chk := rfl
@[simp] theorem State.updCouch_segLines (s : State) (f : CouchSt → CouchSt) : (s.updCouch f).segLines = s.segLines := rfl
@[simp] theorem State.updCouch_tags (s : State) (f : CouchSt → CouchSt) : (s.updCouch f).tags = s.tags := rfl
@[simp] theorem State.updCouch_spareOf (s : State) (f : CouchSt → CouchSt) : (s.updCouch f).spareOf = s.spareOf := rfl
@[simp] theorem State.updCouch_hardWait (s : State) (f : CouchSt → CouchSt) : (s.updCouch f).hardWait = s.hardWait := rfl
@[simp] theorem State.updCouch_conv (s : State) (f : CouchSt → CouchSt) : (s.updCouch f).conv = s.conv := rfl
@[simp] theorem State.updCouch_beaten (s : State) (f : CouchSt → CouchSt) : (s.updCouch f).beaten = s.beaten := rfl
@[simp] theorem State.updCouch_flash (s : State) (f : CouchSt → CouchSt) : (s.updCouch f).flash = s.flash := rfl
@[simp] theorem State.updCouch_flashCap (s : State) (f : CouchSt → CouchSt) : (s.updCouch f).flashCap = s.flashCap := rfl
@[simp] theorem State.updCouch_chain (s : State) (f : CouchSt → CouchSt) : (s.updCouch f).chain = s.chain := rfl
@[simp] theorem State.updCouch_bb (s : State) (f : CouchSt → CouchSt) : (s.updCouch f).bb = s.bb := rfl
@[simp] theorem State.updCouch_wptr (s : State) (f : CouchSt → CouchSt) : (s.updCouch f).wptr = s.wptr := rfl
@[simp] theorem State.updCouch_fuse (s : State) (f : CouchSt → CouchSt) : (s.updCouch f).fuse = s.fuse := rfl
@[simp] theorem State.updCouch_booted (s : State) (f : CouchSt → CouchSt) : (s.updCouch f).booted = s.booted := rfl
@[simp] theorem State.updCouch_sigCode (s : State) (f : CouchSt → CouchSt) : (s.updCouch f).sigCode = s.sigCode := rfl
@[simp] theorem State.updCouch_xspiRes (s : State) (f : CouchSt → CouchSt) : (s.updCouch f).xspiRes = s.xspiRes := rfl
@[simp] theorem State.updCouch_mgmtSending (s : State) (f : CouchSt → CouchSt) : (s.updCouch f).mgmtSending = s.mgmtSending := rfl
@[simp] theorem State.updCouch_smbIndex (s : State) (f : CouchSt → CouchSt) : (s.updCouch f).smbIndex = s.smbIndex := rfl
@[simp] theorem State.updCouch_jtag (s : State) (f : CouchSt → CouchSt) : (s.updCouch f).jtag = s.jtag := rfl
@[simp] theorem State.updCouch_pcieAsks (s : State) (f : CouchSt → CouchSt) : (s.updCouch f).pcieAsks = s.pcieAsks := rfl
@[simp] theorem State.updCouch_pcieAns (s : State) (f : CouchSt → CouchSt) : (s.updCouch f).pcieAns = s.pcieAns := rfl
@[simp] theorem State.updCouch_pcieHeld (s : State) (f : CouchSt → CouchSt) : (s.updCouch f).pcieHeld = s.pcieHeld := rfl
@[simp] theorem State.updCouch_msix (s : State) (f : CouchSt → CouchSt) : (s.updCouch f).msix = s.msix := rfl
@[simp] theorem State.updCouch_ctrlHeld (s : State) (f : CouchSt → CouchSt) : (s.updCouch f).ctrlHeld = s.ctrlHeld := rfl
@[simp] theorem State.updCouch_out (s : State) (f : CouchSt → CouchSt) : (s.updCouch f).out = s.out := rfl
@[simp] theorem State.updCouch_freeTick (s : State) (f : CouchSt → CouchSt) : (s.updCouch f).freeTick = s.freeTick := rfl

/-! ## updPower -/

@[simp] theorem State.updPower_pending (s : State) (f : Power → Power) : (s.updPower f).pending = s.pending := rfl
@[simp] theorem State.updPower_ctrl (s : State) (f : Power → Power) : (s.updPower f).ctrl = s.ctrl := rfl
@[simp] theorem State.updPower_hub (s : State) (f : Power → Power) : (s.updPower f).hub = s.hub := rfl
@[simp] theorem State.updPower_aonPend (s : State) (f : Power → Power) : (s.updPower f).aonPend = s.aonPend := rfl
@[simp] theorem State.updPower_woken (s : State) (f : Power → Power) : (s.updPower f).woken = s.woken := rfl
@[simp] theorem State.updPower_aonQueue (s : State) (f : Power → Power) : (s.updPower f).aonQueue = s.aonQueue := rfl
@[simp] theorem State.updPower_aonWait (s : State) (f : Power → Power) : (s.updPower f).aonWait = s.aonWait := rfl
@[simp] theorem State.updPower_aonAcks (s : State) (f : Power → Power) : (s.updPower f).aonAcks = s.aonAcks := rfl
@[simp] theorem State.updPower_lines (s : State) (f : Power → Power) : (s.updPower f).lines = s.lines := rfl
@[simp] theorem State.updPower_lineFuses (s : State) (f : Power → Power) : (s.updPower f).lineFuses = s.lineFuses := rfl
@[simp] theorem State.updPower_passes (s : State) (f : Power → Power) : (s.updPower f).passes = s.passes := rfl
@[simp] theorem State.updPower_calPos (s : State) (f : Power → Power) : (s.updPower f).calPos = s.calPos := rfl
@[simp] theorem State.updPower_xings (s : State) (f : Power → Power) : (s.updPower f).xings = s.xings := rfl
@[simp] theorem State.updPower_queues (s : State) (f : Power → Power) : (s.updPower f).queues = s.queues := rfl
@[simp] theorem State.updPower_clock (s : State) (f : Power → Power) : (s.updPower f).clock = s.clock := rfl
@[simp] theorem State.updPower_cores (s : State) (f : Power → Power) : (s.updPower f).cores = s.cores := rfl
@[simp] theorem State.updPower_links (s : State) (f : Power → Power) : (s.updPower f).links = s.links := rfl
@[simp] theorem State.updPower_rtWait (s : State) (f : Power → Power) : (s.updPower f).rtWait = s.rtWait := rfl
@[simp] theorem State.updPower_outst (s : State) (f : Power → Power) : (s.updPower f).outst = s.outst := rfl
@[simp] theorem State.updPower_nextTag (s : State) (f : Power → Power) : (s.updPower f).nextTag = s.nextTag := rfl
@[simp] theorem State.updPower_qholds (s : State) (f : Power → Power) : (s.updPower f).qholds = s.qholds := rfl
@[simp] theorem State.updPower_coll (s : State) (f : Power → Power) : (s.updPower f).coll = s.coll := rfl
@[simp] theorem State.updPower_collOwed (s : State) (f : Power → Power) : (s.updPower f).collOwed = s.collOwed := rfl
@[simp] theorem State.updPower_tsync (s : State) (f : Power → Power) : (s.updPower f).tsync = s.tsync := rfl
@[simp] theorem State.updPower_straps (s : State) (f : Power → Power) : (s.updPower f).straps = s.straps := rfl
@[simp] theorem State.updPower_epochWait (s : State) (f : Power → Power) : (s.updPower f).epochWait = s.epochWait := rfl
@[simp] theorem State.updPower_mem (s : State) (f : Power → Power) : (s.updPower f).mem = s.mem := rfl
@[simp] theorem State.updPower_chk (s : State) (f : Power → Power) : (s.updPower f).chk = s.chk := rfl
@[simp] theorem State.updPower_segLines (s : State) (f : Power → Power) : (s.updPower f).segLines = s.segLines := rfl
@[simp] theorem State.updPower_tags (s : State) (f : Power → Power) : (s.updPower f).tags = s.tags := rfl
@[simp] theorem State.updPower_spareOf (s : State) (f : Power → Power) : (s.updPower f).spareOf = s.spareOf := rfl
@[simp] theorem State.updPower_hardWait (s : State) (f : Power → Power) : (s.updPower f).hardWait = s.hardWait := rfl
@[simp] theorem State.updPower_conv (s : State) (f : Power → Power) : (s.updPower f).conv = s.conv := rfl
@[simp] theorem State.updPower_beaten (s : State) (f : Power → Power) : (s.updPower f).beaten = s.beaten := rfl
@[simp] theorem State.updPower_flash (s : State) (f : Power → Power) : (s.updPower f).flash = s.flash := rfl
@[simp] theorem State.updPower_flashCap (s : State) (f : Power → Power) : (s.updPower f).flashCap = s.flashCap := rfl
@[simp] theorem State.updPower_couch (s : State) (f : Power → Power) : (s.updPower f).couch = s.couch := rfl
@[simp] theorem State.updPower_chain (s : State) (f : Power → Power) : (s.updPower f).chain = s.chain := rfl
@[simp] theorem State.updPower_bb (s : State) (f : Power → Power) : (s.updPower f).bb = s.bb := rfl
@[simp] theorem State.updPower_wptr (s : State) (f : Power → Power) : (s.updPower f).wptr = s.wptr := rfl
@[simp] theorem State.updPower_fuse (s : State) (f : Power → Power) : (s.updPower f).fuse = s.fuse := rfl
@[simp] theorem State.updPower_booted (s : State) (f : Power → Power) : (s.updPower f).booted = s.booted := rfl
@[simp] theorem State.updPower_sigCode (s : State) (f : Power → Power) : (s.updPower f).sigCode = s.sigCode := rfl
@[simp] theorem State.updPower_xspiRes (s : State) (f : Power → Power) : (s.updPower f).xspiRes = s.xspiRes := rfl
@[simp] theorem State.updPower_mgmtSending (s : State) (f : Power → Power) : (s.updPower f).mgmtSending = s.mgmtSending := rfl
@[simp] theorem State.updPower_smbIndex (s : State) (f : Power → Power) : (s.updPower f).smbIndex = s.smbIndex := rfl
@[simp] theorem State.updPower_jtag (s : State) (f : Power → Power) : (s.updPower f).jtag = s.jtag := rfl
@[simp] theorem State.updPower_pcieAsks (s : State) (f : Power → Power) : (s.updPower f).pcieAsks = s.pcieAsks := rfl
@[simp] theorem State.updPower_pcieAns (s : State) (f : Power → Power) : (s.updPower f).pcieAns = s.pcieAns := rfl
@[simp] theorem State.updPower_pcieHeld (s : State) (f : Power → Power) : (s.updPower f).pcieHeld = s.pcieHeld := rfl
@[simp] theorem State.updPower_msix (s : State) (f : Power → Power) : (s.updPower f).msix = s.msix := rfl
@[simp] theorem State.updPower_ctrlHeld (s : State) (f : Power → Power) : (s.updPower f).ctrlHeld = s.ctrlHeld := rfl
@[simp] theorem State.updPower_out (s : State) (f : Power → Power) : (s.updPower f).out = s.out := rfl
@[simp] theorem State.updPower_freeTick (s : State) (f : Power → Power) : (s.updPower f).freeTick = s.freeTick := rfl

/-! ## emit -/

@[simp] theorem State.emit_pending (s : State) (o : Out) : (s.emit o).pending = s.pending := rfl
@[simp] theorem State.emit_ctrl (s : State) (o : Out) : (s.emit o).ctrl = s.ctrl := rfl
@[simp] theorem State.emit_hub (s : State) (o : Out) : (s.emit o).hub = s.hub := rfl
@[simp] theorem State.emit_aonPend (s : State) (o : Out) : (s.emit o).aonPend = s.aonPend := rfl
@[simp] theorem State.emit_woken (s : State) (o : Out) : (s.emit o).woken = s.woken := rfl
@[simp] theorem State.emit_aonQueue (s : State) (o : Out) : (s.emit o).aonQueue = s.aonQueue := rfl
@[simp] theorem State.emit_aonWait (s : State) (o : Out) : (s.emit o).aonWait = s.aonWait := rfl
@[simp] theorem State.emit_aonAcks (s : State) (o : Out) : (s.emit o).aonAcks = s.aonAcks := rfl
@[simp] theorem State.emit_lines (s : State) (o : Out) : (s.emit o).lines = s.lines := rfl
@[simp] theorem State.emit_lineFuses (s : State) (o : Out) : (s.emit o).lineFuses = s.lineFuses := rfl
@[simp] theorem State.emit_passes (s : State) (o : Out) : (s.emit o).passes = s.passes := rfl
@[simp] theorem State.emit_calPos (s : State) (o : Out) : (s.emit o).calPos = s.calPos := rfl
@[simp] theorem State.emit_xings (s : State) (o : Out) : (s.emit o).xings = s.xings := rfl
@[simp] theorem State.emit_queues (s : State) (o : Out) : (s.emit o).queues = s.queues := rfl
@[simp] theorem State.emit_power (s : State) (o : Out) : (s.emit o).power = s.power := rfl
@[simp] theorem State.emit_clock (s : State) (o : Out) : (s.emit o).clock = s.clock := rfl
@[simp] theorem State.emit_cores (s : State) (o : Out) : (s.emit o).cores = s.cores := rfl
@[simp] theorem State.emit_links (s : State) (o : Out) : (s.emit o).links = s.links := rfl
@[simp] theorem State.emit_rtWait (s : State) (o : Out) : (s.emit o).rtWait = s.rtWait := rfl
@[simp] theorem State.emit_outst (s : State) (o : Out) : (s.emit o).outst = s.outst := rfl
@[simp] theorem State.emit_nextTag (s : State) (o : Out) : (s.emit o).nextTag = s.nextTag := rfl
@[simp] theorem State.emit_qholds (s : State) (o : Out) : (s.emit o).qholds = s.qholds := rfl
@[simp] theorem State.emit_coll (s : State) (o : Out) : (s.emit o).coll = s.coll := rfl
@[simp] theorem State.emit_collOwed (s : State) (o : Out) : (s.emit o).collOwed = s.collOwed := rfl
@[simp] theorem State.emit_tsync (s : State) (o : Out) : (s.emit o).tsync = s.tsync := rfl
@[simp] theorem State.emit_straps (s : State) (o : Out) : (s.emit o).straps = s.straps := rfl
@[simp] theorem State.emit_epochWait (s : State) (o : Out) : (s.emit o).epochWait = s.epochWait := rfl
@[simp] theorem State.emit_mem (s : State) (o : Out) : (s.emit o).mem = s.mem := rfl
@[simp] theorem State.emit_chk (s : State) (o : Out) : (s.emit o).chk = s.chk := rfl
@[simp] theorem State.emit_segLines (s : State) (o : Out) : (s.emit o).segLines = s.segLines := rfl
@[simp] theorem State.emit_tags (s : State) (o : Out) : (s.emit o).tags = s.tags := rfl
@[simp] theorem State.emit_spareOf (s : State) (o : Out) : (s.emit o).spareOf = s.spareOf := rfl
@[simp] theorem State.emit_hardWait (s : State) (o : Out) : (s.emit o).hardWait = s.hardWait := rfl
@[simp] theorem State.emit_conv (s : State) (o : Out) : (s.emit o).conv = s.conv := rfl
@[simp] theorem State.emit_beaten (s : State) (o : Out) : (s.emit o).beaten = s.beaten := rfl
@[simp] theorem State.emit_flash (s : State) (o : Out) : (s.emit o).flash = s.flash := rfl
@[simp] theorem State.emit_flashCap (s : State) (o : Out) : (s.emit o).flashCap = s.flashCap := rfl
@[simp] theorem State.emit_couch (s : State) (o : Out) : (s.emit o).couch = s.couch := rfl
@[simp] theorem State.emit_chain (s : State) (o : Out) : (s.emit o).chain = s.chain := rfl
@[simp] theorem State.emit_bb (s : State) (o : Out) : (s.emit o).bb = s.bb := rfl
@[simp] theorem State.emit_wptr (s : State) (o : Out) : (s.emit o).wptr = s.wptr := rfl
@[simp] theorem State.emit_fuse (s : State) (o : Out) : (s.emit o).fuse = s.fuse := rfl
@[simp] theorem State.emit_booted (s : State) (o : Out) : (s.emit o).booted = s.booted := rfl
@[simp] theorem State.emit_sigCode (s : State) (o : Out) : (s.emit o).sigCode = s.sigCode := rfl
@[simp] theorem State.emit_xspiRes (s : State) (o : Out) : (s.emit o).xspiRes = s.xspiRes := rfl
@[simp] theorem State.emit_mgmtSending (s : State) (o : Out) : (s.emit o).mgmtSending = s.mgmtSending := rfl
@[simp] theorem State.emit_smbIndex (s : State) (o : Out) : (s.emit o).smbIndex = s.smbIndex := rfl
@[simp] theorem State.emit_jtag (s : State) (o : Out) : (s.emit o).jtag = s.jtag := rfl
@[simp] theorem State.emit_pcieAsks (s : State) (o : Out) : (s.emit o).pcieAsks = s.pcieAsks := rfl
@[simp] theorem State.emit_pcieAns (s : State) (o : Out) : (s.emit o).pcieAns = s.pcieAns := rfl
@[simp] theorem State.emit_pcieHeld (s : State) (o : Out) : (s.emit o).pcieHeld = s.pcieHeld := rfl
@[simp] theorem State.emit_msix (s : State) (o : Out) : (s.emit o).msix = s.msix := rfl
@[simp] theorem State.emit_ctrlHeld (s : State) (o : Out) : (s.emit o).ctrlHeld = s.ctrlHeld := rfl
@[simp] theorem State.emit_freeTick (s : State) (o : Out) : (s.emit o).freeTick = s.freeTick := rfl

/-! ## tick -/

@[simp] theorem State.tick_pending (s : State) : (s.tick).pending = s.pending := rfl
@[simp] theorem State.tick_ctrl (s : State) : (s.tick).ctrl = s.ctrl := rfl
@[simp] theorem State.tick_hub (s : State) : (s.tick).hub = s.hub := rfl
@[simp] theorem State.tick_aonPend (s : State) : (s.tick).aonPend = s.aonPend := rfl
@[simp] theorem State.tick_woken (s : State) : (s.tick).woken = s.woken := rfl
@[simp] theorem State.tick_aonQueue (s : State) : (s.tick).aonQueue = s.aonQueue := rfl
@[simp] theorem State.tick_aonWait (s : State) : (s.tick).aonWait = s.aonWait := rfl
@[simp] theorem State.tick_aonAcks (s : State) : (s.tick).aonAcks = s.aonAcks := rfl
@[simp] theorem State.tick_lines (s : State) : (s.tick).lines = s.lines := rfl
@[simp] theorem State.tick_lineFuses (s : State) : (s.tick).lineFuses = s.lineFuses := rfl
@[simp] theorem State.tick_passes (s : State) : (s.tick).passes = s.passes := rfl
@[simp] theorem State.tick_calPos (s : State) : (s.tick).calPos = s.calPos := rfl
@[simp] theorem State.tick_xings (s : State) : (s.tick).xings = s.xings := rfl
@[simp] theorem State.tick_queues (s : State) : (s.tick).queues = s.queues := rfl
@[simp] theorem State.tick_power (s : State) : (s.tick).power = s.power := rfl
@[simp] theorem State.tick_clock (s : State) : (s.tick).clock = s.clock := rfl
@[simp] theorem State.tick_cores (s : State) : (s.tick).cores = s.cores := rfl
@[simp] theorem State.tick_links (s : State) : (s.tick).links = s.links := rfl
@[simp] theorem State.tick_rtWait (s : State) : (s.tick).rtWait = s.rtWait := rfl
@[simp] theorem State.tick_outst (s : State) : (s.tick).outst = s.outst := rfl
@[simp] theorem State.tick_nextTag (s : State) : (s.tick).nextTag = s.nextTag := rfl
@[simp] theorem State.tick_qholds (s : State) : (s.tick).qholds = s.qholds := rfl
@[simp] theorem State.tick_coll (s : State) : (s.tick).coll = s.coll := rfl
@[simp] theorem State.tick_collOwed (s : State) : (s.tick).collOwed = s.collOwed := rfl
@[simp] theorem State.tick_tsync (s : State) : (s.tick).tsync = s.tsync := rfl
@[simp] theorem State.tick_straps (s : State) : (s.tick).straps = s.straps := rfl
@[simp] theorem State.tick_epochWait (s : State) : (s.tick).epochWait = s.epochWait := rfl
@[simp] theorem State.tick_mem (s : State) : (s.tick).mem = s.mem := rfl
@[simp] theorem State.tick_chk (s : State) : (s.tick).chk = s.chk := rfl
@[simp] theorem State.tick_segLines (s : State) : (s.tick).segLines = s.segLines := rfl
@[simp] theorem State.tick_tags (s : State) : (s.tick).tags = s.tags := rfl
@[simp] theorem State.tick_spareOf (s : State) : (s.tick).spareOf = s.spareOf := rfl
@[simp] theorem State.tick_hardWait (s : State) : (s.tick).hardWait = s.hardWait := rfl
@[simp] theorem State.tick_conv (s : State) : (s.tick).conv = s.conv := rfl
@[simp] theorem State.tick_beaten (s : State) : (s.tick).beaten = s.beaten := rfl
@[simp] theorem State.tick_flash (s : State) : (s.tick).flash = s.flash := rfl
@[simp] theorem State.tick_flashCap (s : State) : (s.tick).flashCap = s.flashCap := rfl
@[simp] theorem State.tick_couch (s : State) : (s.tick).couch = s.couch := rfl
@[simp] theorem State.tick_chain (s : State) : (s.tick).chain = s.chain := rfl
@[simp] theorem State.tick_bb (s : State) : (s.tick).bb = s.bb := rfl
@[simp] theorem State.tick_wptr (s : State) : (s.tick).wptr = s.wptr := rfl
@[simp] theorem State.tick_fuse (s : State) : (s.tick).fuse = s.fuse := rfl
@[simp] theorem State.tick_booted (s : State) : (s.tick).booted = s.booted := rfl
@[simp] theorem State.tick_sigCode (s : State) : (s.tick).sigCode = s.sigCode := rfl
@[simp] theorem State.tick_xspiRes (s : State) : (s.tick).xspiRes = s.xspiRes := rfl
@[simp] theorem State.tick_mgmtSending (s : State) : (s.tick).mgmtSending = s.mgmtSending := rfl
@[simp] theorem State.tick_smbIndex (s : State) : (s.tick).smbIndex = s.smbIndex := rfl
@[simp] theorem State.tick_jtag (s : State) : (s.tick).jtag = s.jtag := rfl
@[simp] theorem State.tick_pcieAsks (s : State) : (s.tick).pcieAsks = s.pcieAsks := rfl
@[simp] theorem State.tick_pcieAns (s : State) : (s.tick).pcieAns = s.pcieAns := rfl
@[simp] theorem State.tick_pcieHeld (s : State) : (s.tick).pcieHeld = s.pcieHeld := rfl
@[simp] theorem State.tick_msix (s : State) : (s.tick).msix = s.msix := rfl
@[simp] theorem State.tick_ctrlHeld (s : State) : (s.tick).ctrlHeld = s.ctrlHeld := rfl
@[simp] theorem State.tick_out (s : State) : (s.tick).out = s.out := rfl

/-! ## Readers after updates -/

/-- A register reads back what was written; every other keeps its value. -/
theorem State.rd_wr (s : State) (a b : Nat) (v : Word) : (s.wr a v).rd b = if b = a then v else s.rd b := by
  unfold State.rd State.wr
  by_cases h : b = a
  · subst h; simp
  · simp [h, SMap.get_put_ne _ _ _ _ _ _ h]

@[simp] theorem State.rd_wr_self (s : State) (a : Nat) (v : Word) : (s.wr a v).rd a = v := by simp [State.rd_wr]

theorem State.rd_wr_ne (s : State) (a b : Nat) (v : Word) (h : b ≠ a) : (s.wr a v).rd b = s.rd b := by
  simp [State.rd_wr, h]

/-- A write of a field changes that register only. -/
theorem State.rd_setF (s : State) (a b : Nat) (f : Fld) (v : Nat) :
    (s.setF a f v).rd b = if b = a then fput f v (s.rd a) else s.rd b := by simp [State.setF, State.rd_wr]

/-- A core reads back as it was stored; every other core keeps its state. -/
theorem State.core_setCore (s : State) (c d : Nat) (k : Core) :
    (s.setCore c k).core d = if d = c then k else s.core d := by simp [State.core, State.setCore, SMap.get_put]

@[simp] theorem State.core_setCore_self (s : State) (c : Nat) (k : Core) : (s.setCore c k).core c = k := by
  simp [State.core_setCore]

/-- An event source reads back as it was stored. -/
theorem State.src_setSrc (s : State) (n m : Nat) (e : EvSource) :
    (s.setSrc n e).src m = if m = n then e else s.src m := by
  unfold State.src State.setSrc
  by_cases h : m = n
  · subst h; simp
  · simp [h, SMap.get_put_ne _ _ _ _ _ _ h]

/-- A queue reads back as it was stored. -/
theorem State.queue_setQueue (s : State) (p q p' q' : Nat) (m : MQueue) :
    (s.setQueue p q m).queue p' q' = if p' * 32 + q' = p * 32 + q then m else s.queue p' q' := by
  simp [State.queue, State.setQueue, SMap.get_put]

@[simp] theorem State.queue_setQueue_self (s : State) (p q : Nat) (m : MQueue) : (s.setQueue p q m).queue p q = m := by
  simp [State.queue_setQueue]

/-- A link reads back as it was stored. -/
theorem State.lk_setLk (s : State) (n m : Nat) (l : LinkSt) :
    (s.setLk n l).lk m = if m = n then l else s.lk m := by simp [State.lk, State.setLk, SMap.get_put]

/-- A byte of storage reads back as it was stored; every other byte is unchanged. -/
theorem State.byteAt_setByte (s : State) (k j : Nat) (b : Byte) :
    (s.setByte k b).byteAt j = if j = k then b else s.byteAt j := by
  simp [State.byteAt, State.setByte, SMap.get_put]

/-- A crossing reads back as it was stored. -/
@[simp] theorem State.xing_setXing_self (s : State) (w : Window) (x : Nat) (c : Crossing) :
    (s.setXing w x c).xing w x = c := by simp [State.xing, State.setXing]

/-- A delay line reads back as it was stored. -/
theorem State.line_setLine (s : State) (w i w' i' : Nat) (l : DelayLine) :
    (s.setLine w i l).line w' i' = if w' + i' = w + i then l else s.line w' i' := by
  simp [State.line, State.setLine, SMap.get_put]

/-! ## What other readers see -/

/-- What is read through registers alone is unchanged by an update of anything else. -/
@[simp] theorem State.rd_setCore (s : State) (c : Nat) (k : Core) (a : Nat) : (s.setCore c k).rd a = s.rd a := rfl
@[simp] theorem State.rd_setSrc (s : State) (n : Nat) (e : EvSource) (a : Nat) : (s.setSrc n e).rd a = s.rd a := rfl
@[simp] theorem State.rd_setXing (s : State) (w : Window) (x : Nat) (c : Crossing) (a : Nat) :
    (s.setXing w x c).rd a = s.rd a := rfl
@[simp] theorem State.rd_setLine (s : State) (w i : Nat) (l : DelayLine) (a : Nat) :
    (s.setLine w i l).rd a = s.rd a := rfl
@[simp] theorem State.rd_setQueue (s : State) (p q : Nat) (m : MQueue) (a : Nat) :
    (s.setQueue p q m).rd a = s.rd a := rfl
@[simp] theorem State.rd_setLk (s : State) (n : Nat) (l : LinkSt) (a : Nat) : (s.setLk n l).rd a = s.rd a := rfl
@[simp] theorem State.rd_emit (s : State) (o : Out) (a : Nat) : (s.emit o).rd a = s.rd a := rfl
@[simp] theorem State.rd_tick (s : State) (a : Nat) : s.tick.rd a = s.rd a := rfl
@[simp] theorem State.core_wr (s : State) (a : Nat) (v : Word) (c : Nat) : (s.wr a v).core c = s.core c := rfl
@[simp] theorem State.core_setF (s : State) (a : Nat) (f : Fld) (v : Nat) (c : Nat) :
    (s.setF a f v).core c = s.core c := rfl
@[simp] theorem State.src_wr (s : State) (a : Nat) (v : Word) (n : Nat) : (s.wr a v).src n = s.src n := rfl
@[simp] theorem State.src_setF (s : State) (a : Nat) (f : Fld) (v : Nat) (n : Nat) :
    (s.setF a f v).src n = s.src n := rfl
@[simp] theorem State.queue_wr (s : State) (a : Nat) (v : Word) (p q : Nat) : (s.wr a v).queue p q = s.queue p q := rfl
@[simp] theorem State.queue_setF (s : State) (a : Nat) (f : Fld) (v : Nat) (p q : Nat) :
    (s.setF a f v).queue p q = s.queue p q := rfl
@[simp] theorem State.xing_wr (s : State) (a : Nat) (v : Word) (w : Window) (x : Nat) :
    (s.wr a v).xing w x = s.xing w x := rfl
@[simp] theorem State.xing_setF (s : State) (a : Nat) (f : Fld) (v : Nat) (w : Window) (x : Nat) :
    (s.setF a f v).xing w x = s.xing w x := rfl
@[simp] theorem State.lk_wr (s : State) (a : Nat) (v : Word) (n : Nat) : (s.wr a v).lk n = s.lk n := rfl
@[simp] theorem State.lk_setF (s : State) (a : Nat) (f : Fld) (v : Nat) (n : Nat) : (s.setF a f v).lk n = s.lk n := rfl
@[simp] theorem State.byteAt_wr (s : State) (a : Nat) (v : Word) (k : Nat) : (s.wr a v).byteAt k = s.byteAt k := rfl
@[simp] theorem State.line_wr (s : State) (a : Nat) (v : Word) (w i : Nat) : (s.wr a v).line w i = s.line w i := rfl
@[simp] theorem State.line_setF (s : State) (a : Nat) (f : Fld) (v : Nat) (w i : Nat) :
    (s.setF a f v).line w i = s.line w i := rfl

end Sys2Proof.Machine
end

