-- ==== Sys2Proof/Laws/Bundle.lean ====
section
/-!
SUPPORT. What a bundle of one syllable does to a core that is ready for it.
-/

namespace Sys2Proof.Machine

/-! ## What does not depend on the cores -/

@[simp] theorem State.isLocal_setCore (s : State) (c : Nat) (k : Core) (a : Nat) :
    (s.setCore c k).isLocal a = s.isLocal a := rfl
@[simp] theorem State.region_setCore (s : State) (c : Nat) (k : Core) (d a : Nat) :
    (s.setCore c k).region d a = s.region d a := rfl
@[simp] theorem State.fetchable_setCore (s : State) (c : Nat) (k : Core) (d a : Nat) :
    (s.setCore c k).fetchable d a = s.fetchable d a := rfl
@[simp] theorem State.fetchFault_setCore (s : State) (c : Nat) (k : Core) (d : Nat) (q : Core) (a : Word) (n : Nat) :
    (s.setCore c k).fetchFault d q a n = s.fetchFault d q a n := rfl
@[simp] theorem State.cause_setCore (s : State) (c : Nat) (k : Core) (d : Nat) (q : Core) (a : Word) (ys : List Syl)
    (f : Option (Nat × Word)) : (s.setCore c k).cause d q a ys f = s.cause d q a ys f := rfl
@[simp] theorem State.acts_setCore (s : State) (c : Nat) (k : Core) (d : Nat) (q : Core) (ys : List Syl) :
    (s.setCore c k).acts d q ys = s.acts d q ys := rfl
@[simp] theorem State.coreOn_setCore (s : State) (c : Nat) (k : Core) (d : Nat) :
    (s.setCore c k).coreOn d = s.coreOn d := rfl
@[simp] theorem State.eventPending_setCore (s : State) (c : Nat) (k : Core) (d : Nat) :
    (s.setCore c k).eventPending d = s.eventPending d := rfl

/-! ## System registers -/

theorem Core.sysRd_sysWr (k : Core) (n m : Nat) (v : Word) :
    (k.sysWr n v).sysRd m = if m = n then v else k.sysRd m := by
  unfold Core.sysRd Core.sysWr
  by_cases h : m = n
  · subst h; simp
  · simp [h, SMap.get_put_ne _ _ _ _ _ _ h]

/-- Everything of a core but its system registers, which agree outside the performance counters and those listed. -/
structure Core.OnlySys (k k' : Core) (but : List Nat) : Prop where
  core : k' = { k with sys := k'.sys }
  sys : k.SysKept k' but

theorem Core.OnlySys.refl (k : Core) (l : List Nat) : k.OnlySys k l := ⟨rfl, fun _ _ _ => rfl⟩

theorem Core.OnlySys.trans {a b c : Core} {l : List Nat} (h : a.OnlySys b l) (g : b.OnlySys c l) : a.OnlySys c l := by
  obtain ⟨h1, h2⟩ := h
  obtain ⟨g1, g2⟩ := g
  refine ⟨?_, fun n hn hp => (g2 n hn hp).trans (h2 n hn hp)⟩
  rw [g1, h1]

theorem Core.OnlySys.mono {a b : Core} {l m : List Nat} (h : a.OnlySys b l) (hl : ∀ n, n ∈ l → n ∈ m) : a.OnlySys b m :=
  ⟨h.core, fun n hn hp => h.sys n (fun x => hn (hl n x)) hp⟩

theorem Core.onlySys_sysWr (k : Core) (n : Nat) (v : Word) (l : List Nat)
    (h : n ∈ l ∨ (0x070 ≤ n ∧ n ≤ 0x07F) ∨ v = k.sysRd n) : k.OnlySys (k.sysWr n v) l := by
  refine ⟨rfl, fun m hm hp => ?_⟩
  rw [Core.sysRd_sysWr]
  split
  · subst m
    rcases h with h | h | h
    · exact absurd h hm
    · omega
    · exact h
  · rfl

theorem Core.onlySys_advance (k : Core) (i n : Nat) (l : List Nat) (hi : i < 8) : k.OnlySys (k.advance i n) l := by
  unfold Core.advance
  dsimp only
  have h1 := k.onlySys_sysWr (0x078 + i) (BitVec.ofNat 64 ((k.sysRd (0x078 + i)).toNat + n)) l (Or.inr (Or.inl (by omega)))
  split
  · exact h1.trans (Core.onlySys_sysWr _ _ _ l (Or.inr (Or.inl (by omega))))
  · exact h1

theorem mem_numsFrom (lo n x : Nat) : x ∈ numsFrom lo n ↔ lo ≤ x ∧ x < lo + n := by
  induction n generalizing lo with
  | zero => simp [numsFrom]
  | succ n ih => simp only [numsFrom, List.mem_cons, ih]; omega

theorem Core.onlySys_foldl {β : Type} (f : Core → β → Core) (l : List Nat) (xs : List β) (k : Core)
    (h : ∀ (k : Core) x, x ∈ xs → k.OnlySys (f k x) l) : k.OnlySys (xs.foldl f k) l := by
  induction xs generalizing k with
  | nil => exact .refl k l
  | cons x r ih =>
    exact (h k x (List.mem_cons_self ..)).trans (ih _ fun k y hy => h k y (List.mem_cons_of_mem _ hy))

/-- Counting events changes performance counters only (R190, R191). -/
theorem Core.onlySys_countAll (k : Core) (pl : Nat) (w : Bool) (skip : Option Nat) (evs : List (Nat × Nat))
    (l : List Nat) : k.OnlySys (k.countAll pl w skip evs) l := by
  unfold Core.countAll
  refine Core.onlySys_foldl _ l evs k fun k e _ => Core.onlySys_foldl _ l _ k fun k i hi => ?_
  rw [mem_numsFrom] at hi
  split
  · exact k.onlySys_advance i e.2 l (by omega)
  · exact .refl k l

/-! ## Registers -/

theorem Core.rg_setG (k : Core) (d r : RegNo) (w : PW) :
    (k.setG d w).rg r = if r = d then (if d = 0 then ⟨0, false⟩ else w) else k.rg r := by
  unfold Core.setG Core.rg
  by_cases hd : d = 0
  · rw [if_pos hd]
    by_cases hr : r = d
    · rw [if_pos hr, if_pos hd, if_pos (hr.trans hd)]
    · rw [if_neg hr]
  · rw [if_neg hd]
    by_cases hr : r = d
    · subst hr; rw [if_pos rfl, if_neg hd, if_neg hd]; simp
    · have : d.toNat ≠ r.toNat := fun h => hr (BitVec.eq_of_toNat_eq h.symm)
      rw [if_neg hr]
      simp [this]

theorem Core.onlySys_rg {k k' : Core} {l : List Nat} (h : k.OnlySys k' l) (r : RegNo) : k'.rg r = k.rg r := by
  rw [h.core]; rfl

/-! ## The bundle -/

theorem State.onlyCore_setCore (s : State) (c : Nat) (k : Core) : s.OnlyCore (s.setCore c k) c :=
  ⟨rfl, fun c' h => by simp [State.core_setCore, h]⟩

theorem State.OnlyCore.trans {a b d : State} {c : Nat} (h : a.OnlyCore b c) (g : b.OnlyCore d c) : a.OnlyCore d c := by
  obtain ⟨h1, h2⟩ := h
  obtain ⟨g1, g2⟩ := g
  exact ⟨by rw [g1, h1], fun c' hc => (g2 c' hc).trans (h2 c' hc)⟩

theorem State.Ready.same {s : State} {c : Nat} (h : s.Ready c) (l : List (List Syl)) :
    ({ { s.core c with forming := [], late := (s.core c).late ++ l } with late := [] } : Core) = s.core c := by
  have h1 := h.forming; have h2 := h.late
  cases hk : s.core c
  simp_all

theorem State.result_setCore (s : State) (c : Nat) (k : Core) (hk : k = s.core c) (ret : Word) (bs : List Byte)
    (pz : List Bool) (op : Op) : (s.setCore c k).result c k ret bs pz op = s.result c k ret bs pz op := by
  subst hk
  cases op <;> first | rfl | skip
  · simp only [State.result]; congr 1; simp only [State.sysRead, State.core_setCore_self]; rfl

theorem State.interrupt_setCore (s : State) (c : Nat) (f : List Syl) (l : List (List Syl)) :
    (s.setCore c { s.core c with forming := f, late := l }).interrupt? c = s.interrupt? c := by
  unfold State.interrupt?
  simp only [State.core_setCore_self, State.eventPending_setCore]
  rfl

/-- A core with nothing waiting goes no further. -/
theorem State.resume_idle (s : State) (c n : Nat) (hr : (s.core c).running = true) (hon : s.coreOn c = true)
    (h1 : (s.core c).cur = none) (h2 : (s.core c).late = []) (h3 : (s.core c).bundles = []) :
    s.resume (n + 1) c = s := by
  unfold State.resume
  simp [hr, hon, h1, h2, h3]

/-- A core with a given bundle and nothing older starts it. -/
theorem State.resume_given (s : State) (c n : Nat) (ys : List Syl) (r : List (List Syl))
    (hr : (s.core c).running = true) (hon : s.coreOn c = true) (h1 : (s.core c).cur = none)
    (h2 : (s.core c).late = ys :: r) (h3 : s.interrupt? c = none) :
    s.resume (n + 1) c = ((s.setCore c { s.core c with late := r }).startGiven c ys).resume n c := by
  conv => lhs; unfold State.resume
  simp [hr, hon, h1, h2, h3]

/-- A bundle that is given to a ready core starts at once, in a state whose core is the ready one. -/
theorem State.giveBundle_ready (s : State) (c : Nat) (ys : List Syl) (hr : s.Ready c) :
    ∃ t : State, t = { s with cores := t.cores } ∧ (∀ d, t.core d = s.core d) ∧
      s.giveBundle c ys = (t.startGiven c ys).resume 4 c := by
  refine ⟨(s.setCore c { s.core c with forming := [], late := (s.core c).late ++ [ys] }).setCore c (s.core c), rfl, ?_, ?_⟩
  · intro d; simp only [State.core_setCore]; split <;> simp_all
  · have hsame := hr.same [ys]
    have hi := State.interrupt_setCore s c [] ((s.core c).late ++ [ys])
    have hg : s.giveBundle c ys = (s.setCore c { s.core c with forming := [], late := (s.core c).late ++ [ys] }).go c := rfl
    rw [hg]
    unfold State.go
    obtain ⟨k0, hk0⟩ : ∃ k0, k0 = { s.core c with forming := [], late := (s.core c).late ++ [ys] } := ⟨_, rfl⟩
    have e1 : k0.running = true := by rw [hk0]; exact hr.running
    have e2 : k0.cur = none := by rw [hk0]; exact hr.cur
    have e3 : k0.late = [ys] := by rw [hk0]; simp [hr.late]
    have e4 : k0.bundles = [] := by rw [hk0]; exact hr.bundles
    rw [← hk0] at hsame hi ⊢
    simp only [State.core_setCore_self, e3, e4, List.length_cons, List.length_nil]
    rw [State.resume_given _ c _ ys [] (by simpa using e1) (by simpa using hr.on) (by simpa using e2) (by simpa using e3)
      (by rw [hi]; exact hr.noInt)]
    simp only [State.core_setCore_self, hsame]

/-- What a state looks like to a bundle: `t` agrees with `s` but for the list that holds the cores. -/
structure State.Same (s t : State) : Prop where
  rest : t = { s with cores := t.cores }
  cores : ∀ d, t.core d = s.core d

theorem State.Same.cause {s t : State} (h : s.Same t) (c : Nat) (k : Core) (a : Word) (ys : List Syl)
    (f : Option (Nat × Word)) : t.cause c k a ys f = s.cause c k a ys f := by rw [h.rest]; rfl
theorem State.Same.acts {s t : State} (h : s.Same t) (c : Nat) (k : Core) (ys : List Syl) :
    t.acts c k ys = s.acts c k ys := by rw [h.rest]; rfl
theorem State.Same.fetchFault {s t : State} (h : s.Same t) (c : Nat) (k : Core) (a : Word) (n : Nat) :
    t.fetchFault c k a n = s.fetchFault c k a n := by rw [h.rest]; rfl
theorem State.Same.coreOn {s t : State} (h : s.Same t) (c : Nat) : t.coreOn c = s.coreOn c := by rw [h.rest]; rfl
theorem State.Same.result {s t : State} (h : s.Same t) (c : Nat) (k : Core) (ret : Word) (bs : List Byte)
    (pz : List Bool) (op : Op) : t.result c k ret bs pz op = s.result c k ret bs pz op := by
  have hc := h.cores c
  rw [h.rest] at hc ⊢
  cases op <;> first | rfl | skip
  · simp only [State.result]; congr 1; simp only [State.sysRead, hc]; rfl

/-- An operation that flushes the instruction caches. -/
def Op.flushes : Op → Bool
  | .iflushAll => true
  | .iflushRange _ _ => true
  | _ => false

theorem State.iflush_none (s : State) (c : Nat) (k : Core) (op : Op) (h : op.flushes = false) : s.iflush c k op = s := by
  cases op <;> first | rfl | simp [Op.flushes] at h

theorem State.advance_nil (s : State) (c : Nat) (cu : Cur) (h : cu.todo = []) : s.advance c cu = s.commit c cu := by
  simp [State.advance, State.runActs, h]

/-- A bundle without a transfer, a flush, held fills or remote pushes changes its core only. -/
theorem State.commit_plain (s : State) (c : Nat) (cu : Cur) (hf : (s.core c).fills = []) (hp : cu.pushes = [])
    (hb : bOf cu.syls = none) (hi : ∀ y ∈ cu.syls, y.op.flushes = false) :
    s.commit c cu = s.setCore c (s.committed c cu) := by
  unfold State.commit
  simp only [hf, hp, hb, List.foldl_nil, Option.isSome_none, Bool.false_eq_true, if_false]
  generalize s.core c = k
  generalize s.setCore c (s.committed c cu) = t
  revert hi
  generalize cu.syls = ys
  induction ys generalizing t with
  | nil => intro _; rfl
  | cons y r ih =>
    intro hi
    rw [List.foldl_cons, State.iflush_none _ _ _ _ (hi y (List.mem_cons_self ..))]
    exact ih t fun z hz => hi z (List.mem_cons_of_mem _ hz)

theorem Pred.predict_none (p : Pred) (a : Word) (ys : List Syl) (h : bOf ys = none) :
    p.predict a ys = (p, ⟨behind a ys, false, false, p.hist, p.top⟩) := by
  simp [Pred.predict, h]

theorem behind_one (a : Word) (y : Syl) : behind a [y] = a + 4 := rfl

/-! ## What no commit touches -/

/-- The parts of a core that neither register writes nor SYS.MT touch. -/
structure Core.Steady (k k' : Core) : Prop where
  running : k'.running = k.running
  late : k'.late = k.late
  bundles : k.bundles = [] → k'.bundles = []
  forming : k'.forming = k.forming
  lineBuf : k'.lineBuf = k.lineBuf
  l1i : k'.l1i = k.l1i
  sb : k'.sb = k.sb
  misp : k'.misp = k.misp
  pc : k'.pc = k.pc
  gather : k'.gather = k.gather

theorem Core.Steady.refl (k : Core) : k.Steady k := ⟨rfl, rfl, id, rfl, rfl, rfl, rfl, rfl, rfl, rfl⟩

theorem Core.Steady.trans {a b c : Core} (h : a.Steady b) (g : b.Steady c) : a.Steady c :=
  ⟨g.1.trans h.1, g.2.trans h.2, fun e => g.3 (h.3 e), g.4.trans h.4, g.5.trans h.5, g.6.trans h.6, g.7.trans h.7,
   g.8.trans h.8, g.9.trans h.9, g.10.trans h.10⟩

theorem Core.Steady.foldl {β : Type} (f : Core → β → Core) (xs : List β) (k : Core)
    (h : ∀ (k : Core) x, k.Steady (f k x)) : k.Steady (xs.foldl f k) := by
  induction xs generalizing k with
  | nil => exact .refl k
  | cons x r ih => exact (h k x).trans (ih _)

theorem Core.Steady.ite {k a b : Core} {c : Prop} [Decidable c] (h : k.Steady a) (g : k.Steady b) :
    k.Steady (if c then a else b) := by split <;> assumption

theorem Core.steady_sysWr (k : Core) (n : Nat) (v : Word) : k.Steady (k.sysWr n v) :=
  ⟨rfl, rfl, id, rfl, rfl, rfl, rfl, rfl, rfl, rfl⟩
theorem Core.steady_setSf (k : Core) (n : Nat) (f : Fld) (v : Nat) : k.Steady (k.setSf n f v) := k.steady_sysWr _ _
theorem Core.steady_setTlb (k : Core) (i : Nat) (e : TlbEntry) : k.Steady (k.setTlb i e) :=
  ⟨rfl, rfl, id, rfl, rfl, rfl, rfl, rfl, rfl, rfl⟩
theorem Core.steady_storeSf (k : Core) (n : Nat) (v : Word) (fs : List Fld) : k.Steady (k.storeSf n v fs) :=
  Core.Steady.foldl _ _ _ fun k _ => k.steady_setSf _ _ _
theorem Core.steady_tlbDrop (k : Core) (f : Nat → TlbEntry → Bool) : k.Steady (k.tlbDrop f) := by
  refine Core.Steady.foldl _ _ _ fun k i => ?_
  split
  · exact k.steady_setTlb _ _
  · exact .refl k
theorem Core.steady_tlbNext (k : Core) (i : Nat) : k.Steady (k.tlbNext i) := by
  unfold Core.tlbNext
  split
  · exact k.steady_setSf _ _ _
  · exact .refl k
theorem Core.steady_tlbWrite (k : Core) (i : Nat) : k.Steady (k.tlbWrite i) := by
  unfold Core.tlbWrite
  dsimp only
  exact ((Core.Steady.ite (k.steady_tlbDrop _) (.refl k)).trans (Core.steady_setTlb _ _ _)).trans (Core.steady_tlbNext _ _)
theorem Core.steady_tlbCmd (k : Core) (c : Nat) : k.Steady (k.tlbCmd c) := by
  unfold Core.tlbCmd
  dsimp only
  split
  · exact (k.steady_sysWr _ _).trans (Core.steady_sysWr _ _ _)
  · exact k.steady_tlbWrite _
  · split
    · exact (k.steady_setSf _ _ _).trans (Core.steady_setSf _ _ _ _)
    · exact k.steady_setSf _ _ _
  · exact k.steady_setTlb _ _
  · exact k.steady_tlbDrop _
  · exact k.steady_tlbDrop _
  · exact ⟨rfl, rfl, fun e => by show List.map _ k.bundles = []; rw [e]; rfl, rfl, rfl, rfl, rfl, rfl, rfl, rfl⟩
  · exact .refl k
theorem Core.steady_writeIndex (k : Core) (v : Word) : k.Steady (k.writeIndex v) := by
  unfold Core.writeIndex
  dsimp only
  have h := (k.steady_setSf 0x050 fINDEX (fget fINDEX v)).trans (Core.steady_setSf _ 0x050 fWIRED (fget fWIRED v))
  exact (h.trans (Core.Steady.ite (Core.steady_setSf _ _ _ _) (.refl _))).trans (Core.steady_tlbCmd _ _)
theorem Core.steady_writeStatus (k : Core) (pl : Nat) (v : Word) : k.Steady (k.writeStatus pl v) := by
  unfold Core.writeStatus
  exact (k.steady_storeSf _ _ _).trans (Core.Steady.ite ((Core.steady_setSf _ _ _ _).trans (Core.steady_storeSf _ _ _ _)) (.refl _))
theorem Core.steady_pred (k : Core) (p : Pred) : k.Steady { k with pred := p } :=
  ⟨rfl, rfl, id, rfl, rfl, rfl, rfl, rfl, rfl, rfl⟩
theorem Core.steady_sysWrite (k : Core) (pl n : Nat) (v : Word) : k.Steady (k.sysWrite pl n v) := by
  unfold Core.sysWrite
  refine .ite (k.steady_writeStatus _ _) (.ite ((k.steady_storeSf _ _ _).trans (.ite (Core.steady_storeSf _ _ _ _) (.refl _)))
    (.ite (k.steady_writeIndex _) (.ite ((k.steady_storeSf _ _ _).trans (.ite (.refl _) (Core.steady_storeSf _ _ _ _)))
      ((k.steady_sysWr _ _).trans (.ite (Core.steady_pred _ _) (.refl _))))))
theorem Core.OnlySys.steady {k k' : Core} {l : List Nat} (h : k.OnlySys k' l) : k.Steady k' := by
  rw [h.core]; exact ⟨rfl, rfl, id, rfl, rfl, rfl, rfl, rfl, rfl, rfl⟩
theorem Core.steady_countAll (k : Core) (pl : Nat) (w : Bool) (skip : Option Nat) (evs : List (Nat × Nat)) :
    k.Steady (k.countAll pl w skip evs) := (k.onlySys_countAll pl w skip evs []).steady
theorem Core.steady_countAndWrite (k : Core) (evs : List (Nat × Nat)) (mt : Option (Nat × Word)) :
    k.Steady (k.countAndWrite evs mt) := by
  unfold Core.countAndWrite
  split
  · exact k.steady_countAll _ _ _ _
  · exact ((k.steady_countAll _ _ _ _).trans (Core.steady_sysWrite _ _ _ _)).trans (.ite (Core.steady_setSf _ _ _ _) (.refl _))
theorem Core.steady_setG (k : Core) (r : RegNo) (w : PW) : k.Steady (k.setG r w) := by
  unfold Core.setG
  split
  · exact .refl k
  · exact ⟨rfl, rfl, id, rfl, rfl, rfl, rfl, rfl, rfl, rfl⟩
theorem Core.steady_writeRegs (k : Core) (w : Wb) : k.Steady (k.writeRegs w) := by
  unfold Core.writeRegs
  dsimp only
  refine Core.Steady.trans (Core.Steady.trans (Core.Steady.foldl _ w.g k fun k p => k.steady_setG _ _) (Core.Steady.foldl _ w.v _ fun k p => ?_)) (Core.Steady.foldl _ w.acc _ fun k p => ?_)
  · exact ⟨rfl, rfl, id, rfl, rfl, rfl, rfl, rfl, rfl, rfl⟩
  · exact ⟨rfl, rfl, id, rfl, rfl, rfl, rfl, rfl, rfl, rfl⟩
theorem Core.steady_raise (k : Core) (f : FFlags) : k.Steady (k.raise f) := k.steady_sysWr _ _
theorem Core.steady_dirty (k : Core) (w : Wb) : k.Steady (k.dirty w) := by
  unfold Core.dirty
  exact (Core.Steady.ite (.refl k) (k.steady_setSf _ _ _)).trans (.ite (.refl _) (Core.steady_setSf _ _ _ _))

/-- Register writes change the registers only. -/
theorem Core.writeRegs_eq (k : Core) (w : Wb) :
    k.writeRegs w = { k with g := (k.writeRegs w).g, v := (k.writeRegs w).v, acc := (k.writeRegs w).acc } := by
  have hg : ∀ (l : List (RegNo × PW)) (k : Core), l.foldl (fun k p => k.setG p.1 p.2) k
      = { k with g := (l.foldl (fun k p => k.setG p.1 p.2) k).g } := by
    intro l
    induction l with
    | nil => intro k; rfl
    | cons p r ih =>
      intro k
      rw [List.foldl_cons, ih]
      unfold Core.setG
      split <;> rfl
  have hv : ∀ (l : List (RegNo × VReg)) (k : Core), l.foldl (fun k p => k.setV p.1 p.2) k
      = { k with v := (l.foldl (fun k p => k.setV p.1 p.2) k).v } := by
    intro l
    induction l with
    | nil => intro k; rfl
    | cons p r ih => intro k; rw [List.foldl_cons, ih]; rfl
  have ha : ∀ (l : List (RegNo × Ream)) (k : Core), l.foldl (fun k p => k.setA p.1 p.2) k
      = { k with acc := (l.foldl (fun k p => k.setA p.1 p.2) k).acc } := by
    intro l
    induction l with
    | nil => intro k; rfl
    | cons p r ih => intro k; rw [List.foldl_cons, ih]; rfl
  unfold Core.writeRegs
  dsimp only
  rw [ha, hv, hg]

/-- The bundle of one syllable that makes no access. -/
def Core.curOne (k : Core) (y : Syl) : Cur :=
  { addr := k.pc, syls := [y], todo := [], got := [], stores := [], pushes := [], events := [],
    pr := ⟨k.pc + 4, false, false, k.pred.hist, k.pred.top⟩, sent := false, fixed := false,
    behind := false }

/-- What a bundle of one syllable that makes no access, is no transfer and no ERET leaves its core as. -/
def State.ranOne (s : State) (c : Nat) (y : Syl) : Core :=
  let k := s.core c
  let w := s.result c k (k.pc + 4) [] [] y.op
  let k' := (((k.writeRegs w).countAndWrite ((k.curOne y).allEvents []) (k.mtOf [y])).raise w.flags).dirty w
  { k' with cur := none, waiting := false, sleeping := false, pc := k.pc + 4 }

theorem Wb.none_also (w : Wb) : Wb.none.also w = w := by
  cases w; simp [Wb.none, Wb.also]

theorem State.Same.setCore {s t : State} (h : s.Same t) (c : Nat) : s.Same (t.setCore c (s.core c)) := by
  refine ⟨by rw [h.rest]; rfl, fun d => ?_⟩
  rw [State.core_setCore]
  split
  · rename_i e; rw [e]
  · exact h.cores d

/-- A core without held fills is as it is with none. -/
theorem Core.fills_nil (k : Core) (h : k.fills = []) (p : Pred) : ({ k with pred := p, fills := [] } : Core) = { k with pred := p } := by
  cases k; simp only at h; subst h; rfl

/-- Nothing to recover: a ready core starts a bundle as it is. -/
theorem State.mispredict_none (s : State) (c : Nat) (h : (s.core c).misp = none) : s.mispredict c = s := by
  unfold State.mispredict; rw [h]; rfl

/-- Registers without upsets are read as they are. -/
theorem State.checkRegs_none (s : State) (c : Nat) (ys : List Syl) (h : (s.core c).flips = []) : s.checkRegs c ys = s := by
  unfold State.checkRegs; rw [h]; rfl

theorem Core.freshRegs_none (k : Core) (w : Wb) (h : k.flips = []) : k.freshRegs w = k := by
  unfold Core.freshRegs; rw [h]; rfl

/-- With no bundle queued, PRED_FLUSH leaves nothing to predict anew (R171). -/
theorem Core.flush_none (k : Core) (b : Bool) (f : List Bool × Nat → List Bool × Nat) (h1 : k.bundles = []) (h2 : k.misp = none) :
    (if b = true then ({ k with bundles := [], misp := k.misp.map f } : Core).predictAgain k.bundles else k) = k := by
  cases k; simp only at h1 h2; subst h1 h2; split <;> rfl

/-- A bundle of one syllable that meets no cause, makes no access and is no transfer: its core, and nothing else. -/
theorem State.giveBundle_one (s : State) (c : Nat) (y : Syl) (hr : s.Ready c)
    (hc : s.cause c (s.core c) (s.core c).pc [y] none = none) (ha : s.acts c (s.core c) [y] = [])
    (hb : bOf [y] = none) (hi : y.op.flushes = false) (he : (y.op == .eret) = false) :
    s.OnlyCore (s.giveBundle c [y]) c ∧ (s.giveBundle c [y]).core c = s.ranOne c y := by
  obtain ⟨t, h1, h2, h3⟩ := s.giveBundle_ready c [y] hr
  have hs : s.Same t := ⟨h1, h2⟩
  have e : t.startGiven c [y] = (t.setCore c (s.core c)).commit c ((s.core c).curOne y) := by
    rw [← State.advance_nil _ _ _ rfl]
    unfold State.startGiven State.start
    rw [t.mispredict_none c (by rw [h2]; exact hr.misp)]
    dsimp only
    rw [t.checkRegs_none c _ (by rw [h2]; exact hr.flips)]
    have hfl : ({ s.core c with pred := (s.core c).pred, fills := [] } : Core) = s.core c := Core.fills_nil _ hr.fills _
    simp only [h2, hfl, hs.fetchFault, List.length_cons, List.length_nil, Pred.predict_none _ _ _ hb, hs.cause, hs.acts, ha,
      behind_one]
    have := hr.fetch
    simp only [Nat.zero_add, this, hc]
    rfl
  have hst := ((((s.core c).steady_writeRegs (s.result c (s.core c) ((s.core c).pc + 4) [] [] y.op)).trans
      (Core.steady_countAndWrite _ (((s.core c).curOne y).allEvents []) ((s.core c).mtOf [y]))).trans
      (Core.steady_raise _ (s.result c (s.core c) ((s.core c).pc + 4) [] [] y.op).flags)).trans
      (Core.steady_dirty _ (s.result c (s.core c) ((s.core c).pc + 4) [] [] y.op))
  have hs2 : s.Same (t.setCore c (s.core c)) := hs.setCore c
  have e2 : (t.setCore c (s.core c)).commit c ((s.core c).curOne y) = (t.setCore c (s.core c)).setCore c (s.ranOne c y) := by
    rw [State.commit_plain _ _ _ (by rw [State.core_setCore_self]; exact hr.fills) rfl hb (fun z hz => by rw [List.mem_singleton.mp hz]; exact hi)]
    congr 1
    have hres : (t.setCore c (s.core c)).results c (s.core c) ((s.core c).curOne y)
        = s.result c (s.core c) ((s.core c).pc + 4) [] [] y.op := by
      show Wb.none.also _ = _
      rw [Wb.none_also, hs2.result]
      rfl
    have hn : (s.core c).nextPc ((s.core c).curOne y).addr ((s.core c).curOne y).syls = (s.core c).pc + 4 := by
      show (match bOf [y] with | none => _ | some o => _) = _
      rw [hb]; rfl
    have hbc : bOf ((s.core c).curOne y).syls = none := hb
    have her : hasEret ((s.core c).curOne y).syls = false := by
      show (y.op == .eret || false) = false
      rw [he]; rfl
    have htf : ∀ k : Core, k.fills = [] → k.takeFills = k := by
      intro k hk; cases k; simp only at hk; subst hk; rfl
    have hfw : ((s.core c).writeRegs (s.result c (s.core c) ((s.core c).pc + 4) [] [] y.op)).fills = [] := by
      rw [Core.writeRegs_eq]; exact hr.fills
    have hff : ((s.core c).writeRegs (s.result c (s.core c) ((s.core c).pc + 4) [] [] y.op)).flips = [] := by
      rw [Core.writeRegs_eq]; exact hr.flips
    unfold State.committed State.ranOne
    simp only [State.core_setCore_self, hres, hn, hbc, her, Core.resolve, Core.freshRegs_none _ _ hff, htf _ hfw]
    have hb2 := hst.bundles hr.bundles
    have hm2 := hst.misp.trans hr.misp
    have hmt : (s.core c).mtOf ((s.core c).curOne y).syls = (s.core c).mtOf [y] := rfl
    simp only [hmt]
    rw [Core.flush_none _ _ _ hb2 hm2]
    simp only [Core.curOne, List.append_nil, Bool.false_eq_true, if_false]
  rw [h3, e, e2, State.resume_idle]
  · refine ⟨⟨?_, ?_⟩, State.core_setCore_self _ _ _⟩
    · rw [h1]; rfl
    · intro d hd; rw [State.core_setCore, if_neg hd, State.core_setCore, if_neg hd, h2]
  · rw [State.core_setCore_self]; exact hst.running.trans hr.running
  · rw [State.coreOn_setCore, hs2.coreOn]; exact hr.on
  · rw [State.core_setCore_self]; rfl
  · rw [State.core_setCore_self]; exact hst.late.trans hr.late
  · rw [State.core_setCore_self]; exact hst.bundles hr.bundles

theorem State.give_stop (s : State) (sl : Slot) (u : Nat) (op : Op) (hr : s.Ready sl.core) (h : sl.stop = true) :
    s.give sl u op = s.giveBundle sl.core [⟨u, true, op⟩] := by
  unfold State.give State.giveSyl
  simp [hr.running, hr.forming, h]

/-- A bundle of one legal syllable meets a cause only in row 8 (R85). -/
theorem State.cause_one (s : State) (c : Nat) (k : Core) (a : Word) (u : Nat) (op : Op)
    (hw : k.watchFetch a 1 = false) (ho : op.ok u = true) (hc : op.isCop = false) (hb : beyond k.pl op = false) :
    s.cause c k a [⟨u, true, op⟩] none = s.sylCause c k 0 op := by
  have h1 : firstIllegal [⟨u, true, op⟩] = none := by
    have he : (op == .eret && u == 6) = false := by
      by_cases h : op = .eret
      · subst h
        have : u = 7 := by simpa [Op.ok] using ho
        subst this; rfl
      · simp [h]
    simp [firstIllegal, firstIllegal.numsUpTo, illegalAt, ho, he]
  have h2 : ∀ f : Op → Bool, f op = false → firstSyl [⟨u, true, op⟩] f = none := by
    intro f hf
    simp [firstSyl, numsFrom, hf]
  have h3 : s.rowEight c k [⟨u, true, op⟩] = s.sylCause c k 0 op := by
    show firstOf [s.sylCause c k 0 op] = _
    cases s.sylCause c k 0 op <;> rfl
  unfold State.cause
  simp only [List.length_cons, List.length_nil, Nat.zero_add, hw, h1, h2 _ hc, h2 _ hb, h3, Bool.false_eq_true, if_false]

/-- Operations on general registers alone, which meet no cause: legal at every level, with no access. -/
def Op.plainG : Op → Bool
  | .alu .csel _ _ _ => false
  | .alu _ _ _ _ => true
  | .alu3 _ _ _ _ => true
  | .cnt _ _ _ => true
  | .ldi _ _ _ => true
  | _ => false

theorem State.acts_one (s : State) (c : Nat) (k : Core) (y : Syl) (h : s.sylActs c k 0 y.op = []) :
    s.acts c k [y] = [] := by
  simp [State.acts, numsFrom, h, State.amoLast]

/-- Raising no flag changes nothing that can be read. -/
theorem Core.onlySys_raise_zero (k : Core) (l : List Nat) : k.OnlySys (k.raise 0) l := by
  refine k.onlySys_sysWr _ _ l (Or.inr (Or.inr ?_))
  simp

/-- A ready core and one legal syllable without a cause or an access: what it writes to a general register, and
nothing else. -/
theorem State.ranG_give (s : State) (sl : Slot) (u : Nat) (op : Op) (d : RegNo) (w : PW) (hr : s.Ready sl.core)
    (hst : sl.stop = true) (hu : u ≠ 6) (ho : op.ok u = true) (hc : op.isCop = false)
    (hb : beyond (s.core sl.core).pl op = false) (hy : s.sylCause sl.core (s.core sl.core) 0 op = none)
    (ha : s.sylActs sl.core (s.core sl.core) 0 op = []) (hf : op.flushes = false) (he : (op == .eret) = false)
    (hm : (s.core sl.core).mtOf [⟨u, true, op⟩] = none)
    (hw : s.result sl.core (s.core sl.core) ((s.core sl.core).pc + 4) [] [] op = .toG d w) :
    s.RanG (s.give sl u op) sl.core d w := by
  rw [s.give_stop sl u op hr hst]
  have hbo : bOf [⟨u, true, op⟩] = none := by simp [bOf, hu]
  obtain ⟨h1, h2⟩ := s.giveBundle_one sl.core ⟨u, true, op⟩ hr
    (by rw [s.cause_one _ _ _ _ _ hr.watch ho hc hb, hy]) (s.acts_one _ _ _ ha) hbo hf he
  have h3 : s.ranOne sl.core ⟨u, true, op⟩ =
      { ((((s.core sl.core).setG d w).countAll ((s.core sl.core).setG d w).pl false none
          (((s.core sl.core).curOne ⟨u, true, op⟩).allEvents [])).raise 0) with
        cur := none, waiting := false, sleeping := false, pc := (s.core sl.core).pc + 4 } := by
    unfold State.ranOne
    dsimp only
    rw [hw, hm]
    rfl
  obtain ⟨K0, hK0⟩ : ∃ K0, K0 = (((s.core sl.core).setG d w).countAll ((s.core sl.core).setG d w).pl false none
          (((s.core sl.core).curOne ⟨u, true, op⟩).allEvents [])).raise 0 := ⟨_, rfl⟩
  have ho2 : ((s.core sl.core).setG d w).OnlySys K0 [] := by
    rw [hK0]
    exact (Core.onlySys_countAll _ _ _ _ _ _).trans (Core.onlySys_raise_zero _ _)
  rw [h3, ← hK0] at h2
  have hrg : ∀ r, ((s.giveBundle sl.core [⟨u, true, op⟩]).core sl.core).rg r = ((s.core sl.core).setG d w).rg r := by
    intro r; rw [h2]; exact Core.onlySys_rg ho2 r
  refine ⟨h1, ?_, ?_, ?_, ?_⟩
  · rw [h2]
    have e1 := hr.cur; have e2 := hr.waiting; have e3 := hr.sleeping
    rw [ho2.core]
    unfold Core.setG
    generalize s.core sl.core = k at *
    cases k
    simp only at e1 e2 e3
    subst e1 e2 e3
    split <;> rfl
  · rw [hrg, Core.rg_setG, if_pos rfl]
  · intro r h; rw [hrg, Core.rg_setG, if_neg h]
  · intro n h1 h4
    have := ho2.sys n h1 h4
    rw [h2]
    refine Eq.trans this ?_
    unfold Core.setG; split <;> rfl
end Sys2Proof.Machine
end

