-- ==== Sys2Proof/Laws/Entry.lean ====
section
/-!
SUPPORT. What taking a trap or an interrupt does to a core (R88, R89).
-/

namespace Sys2Proof.Machine

theorem Core.sysRd_setSf (k : Core) (n m : Nat) (f : Fld) (v : Nat) :
    (k.setSf n f v).sysRd m = if m = n then fput f v (k.sysRd n) else k.sysRd m := by
  simp [Core.setSf, Core.sysRd_sysWr]

/-- Everything of a core but its system registers. -/
def Core.SysOnly (k k' : Core) : Prop := k' = { k with sys := k'.sys }

theorem Core.SysOnly.trans {a b c : Core} (h : a.SysOnly b) (g : b.SysOnly c) : a.SysOnly c := by
  unfold Core.SysOnly at *; rw [g, h]
theorem Core.SysOnly.ite {k a b : Core} {c : Prop} [Decidable c] (h : k.SysOnly a) (g : k.SysOnly b) :
    k.SysOnly (if c then a else b) := by split <;> assumption
theorem Core.sysOnly_sysWr (k : Core) (n : Nat) (v : Word) : k.SysOnly (k.sysWr n v) := rfl
theorem Core.sysOnly_setSf (k : Core) (n : Nat) (f : Fld) (v : Nat) : k.SysOnly (k.setSf n f v) := rfl

/-- STATUS as entry at level `lv` leaves it (R89 step 5). -/
def entryStatus (lv pl ie : Nat) (w : Word) : Word :=
  let w := if lv = 2 then fput fMPPL pl (fput fMPIE ie w) else fput fSPPL pl (fput fSPIE ie w)
  fput fIE 0 (fput fPL lv w)

/-- The system registers of entry, with the bank they lie in. -/
def Core.enterSys (k : Core) (b lv : Nat) (epc : Word) (int : Bool) (code blen slot : Nat) (bad syl : Word) (pl ie : Nat) : Core :=
  let k := k.sysWr b (epc &&& 0xFFFFFFFFFFFFFFFC#64)
  let k := k.sysWr (b + 1) (BitVec.ofNat 64 (b2n int * 2 ^ 63 + slot * 2 ^ 12 + blen * 2 ^ 8 + code))
  let k := (k.sysWr (b + 2) bad).sysWr (b + 3) syl
  let k := if lv = 2 then (k.setSf 0x010 fMPIE ie).setSf 0x010 fMPPL pl
           else (k.setSf 0x010 fSPIE ie).setSf 0x010 fSPPL pl
  (k.setSf 0x010 fPL lv).setSf 0x010 fIE 0

theorem Core.enterTrap_enterSys (k : Core) (lv : Nat) (epc : Word) (int : Bool) (code blen slot : Nat) (bad syl : Word) :
    k.enterTrap lv epc int code blen slot bad syl =
      { k.enterSys (entryBank lv) lv epc int code blen slot bad syl k.pl (k.sf 0x010 fIE) with
        pc := k.sysRd (entryBank lv + 4) + (if int then 0x400 else 0) } := rfl

theorem Core.sysOnly_enterSys (k : Core) (b lv : Nat) (epc : Word) (int : Bool) (code blen slot : Nat) (bad syl : Word)
    (pl ie : Nat) : k.SysOnly (k.enterSys b lv epc int code blen slot bad syl pl ie) := by
  unfold Core.enterSys
  exact (((((k.sysOnly_sysWr _ _).trans (Core.sysOnly_sysWr _ _ _)).trans (Core.sysOnly_sysWr _ _ _)).trans
    (Core.sysOnly_sysWr _ _ _)).trans (.ite ((Core.sysOnly_setSf _ _ _ _).trans (Core.sysOnly_setSf _ _ _ _))
      ((Core.sysOnly_setSf _ _ _ _).trans (Core.sysOnly_setSf _ _ _ _)))).trans
    ((Core.sysOnly_setSf _ _ _ _).trans (Core.sysOnly_setSf _ _ _ _))

theorem Core.enterSys_sysRd (k : Core) (b lv : Nat) (epc : Word) (int : Bool) (code blen slot : Nat) (bad syl : Word)
    (pl ie n : Nat) (hb : 0x010 < b) : (k.enterSys b lv epc int code blen slot bad syl pl ie).sysRd n =
      if n = 0x010 then entryStatus lv pl ie (k.sysRd 0x010)
      else if n = b then epc &&& ~~~ 3#64
      else if n = b + 1 then BitVec.ofNat 64 ((if int then 2 ^ 63 else 0) + slot * 2 ^ 12 + blen * 2 ^ 8 + code)
      else if n = b + 2 then bad
      else if n = b + 3 then syl
      else k.sysRd n := by
  have hi : (b2n int) * 2 ^ 63 = (if int then 2 ^ 63 else 0) := by cases int <;> rfl
  have hc : (0xFFFFFFFFFFFFFFFC#64) = ~~~ 3#64 := by decide
  unfold Core.enterSys entryStatus
  rw [hi, hc]
  by_cases h0 : n = 0x010
  · subst h0
    have e1 : (16 : Nat) ≠ b := by omega
    have e2 : (16 : Nat) ≠ b + 1 := by omega
    have e3 : (16 : Nat) ≠ b + 2 := by omega
    have e4 : (16 : Nat) ≠ b + 3 := by omega
    by_cases hl : lv = 2 <;>
      simp only [hl, if_true, if_false, Core.sysRd_setSf, Core.sysRd_sysWr, e1, e2, e3, e4]
  · by_cases hl : lv = 2 <;>
      simp only [hl, if_true, if_false, Core.sysRd_setSf, Core.sysRd_sysWr, h0]
    all_goals
      by_cases h1 : n = b
      · subst h1; simp
      · by_cases h2 : n = b + 1
        · subst h2; simp
        · by_cases h3 : n = b + 2
          · subst h3; simp
          · simp [h1, h2, h3]

/-! ## STATUS after entry -/

theorem entryStatus_pl (lv pl ie : Nat) (w : Word) (h : lv < 4) : fget fPL (entryStatus lv pl ie w) = lv := by
  unfold entryStatus
  dsimp only
  rw [fget_fput_ne _ _ _ _ (by decide) (by decide) (by decide), fget_fput _ _ _ (by decide)]
  exact Nat.mod_eq_of_lt h

theorem entryStatus_ie (lv pl ie : Nat) (w : Word) : fget fIE (entryStatus lv pl ie w) = 0 := by
  unfold entryStatus
  dsimp only
  rw [fget_fput _ _ _ (by decide)]; rfl

theorem entryStatus_savedIe (lv pl ie : Nat) (w : Word) (h : ie < 2) :
    fget (if lv = 2 then fMPIE else fSPIE) (entryStatus lv pl ie w) = ie := by
  unfold entryStatus
  dsimp only
  by_cases hl : lv = 2
  · simp only [hl, if_true]
    rw [fget_fput_ne _ _ _ _ (by decide) (by decide) (by decide), fget_fput_ne _ _ _ _ (by decide) (by decide) (by decide),
      fget_fput_ne _ _ _ _ (by decide) (by decide) (by decide), fget_fput _ _ _ (by decide)]
    exact Nat.mod_eq_of_lt h
  · simp only [hl, if_false]
    rw [fget_fput_ne _ _ _ _ (by decide) (by decide) (by decide), fget_fput_ne _ _ _ _ (by decide) (by decide) (by decide),
      fget_fput_ne _ _ _ _ (by decide) (by decide) (by decide), fget_fput _ _ _ (by decide)]
    exact Nat.mod_eq_of_lt h

theorem entryStatus_savedPl (lv pl ie : Nat) (w : Word) :
    fget (if lv = 2 then fMPPL else fSPPL) (entryStatus lv pl ie w) = pl % (if lv = 2 then 4 else 2) := by
  unfold entryStatus
  dsimp only
  by_cases hl : lv = 2
  · simp only [hl, if_true]
    rw [fget_fput_ne _ _ _ _ (by decide) (by decide) (by decide), fget_fput_ne _ _ _ _ (by decide) (by decide) (by decide),
      fget_fput _ _ _ (by decide)]
    rfl
  · simp only [hl, if_false]
    rw [fget_fput_ne _ _ _ _ (by decide) (by decide) (by decide), fget_fput_ne _ _ _ _ (by decide) (by decide) (by decide),
      fget_fput _ _ _ (by decide)]
    rfl

theorem entryStatus_other (lv pl ie : Nat) (w : Word) (i : Nat)
    (h : i ∉ (if lv = 2 then [0, 1, 2, 8, 9, 10] else [0, 1, 2, 4, 5])) :
    (entryStatus lv pl ie w).getLsbD i = w.getLsbD i := by
  unfold entryStatus
  dsimp only
  have hPL : ∀ (f : Fld), f.lo ≤ f.hi → (i < f.lo ∨ f.hi < i) → ∀ v w, (fput f v w).getLsbD i = w.getLsbD i :=
    fun f hf hd v w => fput_other f v w i hf hd
  by_cases hl : lv = 2
  · simp only [hl, if_true, List.mem_cons, List.not_mem_nil, or_false, not_or] at h ⊢
    rw [hPL fIE (by decide) (by simp only [fIE]; omega), hPL fPL (by decide) (by simp only [fPL]; omega),
      hPL fMPPL (by decide) (by simp only [fMPPL]; omega), hPL fMPIE (by decide) (by simp only [fMPIE]; omega)]
  · simp only [hl, if_false, List.mem_cons, List.not_mem_nil, or_false, not_or] at h ⊢
    rw [hPL fIE (by decide) (by simp only [fIE]; omega), hPL fPL (by decide) (by simp only [fPL]; omega),
      hPL fSPPL (by decide) (by simp only [fSPPL]; omega), hPL fSPIE (by decide) (by simp only [fSPIE]; omega)]

theorem entryBank_bounds (lv : Nat) : 0x010 < entryBank lv ∧ entryBank lv + 4 < 0x070 := by
  unfold entryBank; split <;> decide

/-- What entry leaves in every system register. -/
theorem Core.enterTrap_sysRd (k : Core) (lv : Nat) (epc : Word) (int : Bool) (code blen slot : Nat) (bad syl : Word)
    (n : Nat) : (k.enterTrap lv epc int code blen slot bad syl).sysRd n =
      if n = 0x010 then entryStatus lv k.pl (k.sf 0x010 fIE) (k.sysRd 0x010)
      else if n = entryBank lv then epc &&& ~~~ 3#64
      else if n = entryBank lv + 1 then BitVec.ofNat 64 ((if int then 2 ^ 63 else 0) + slot * 2 ^ 12 + blen * 2 ^ 8 + code)
      else if n = entryBank lv + 2 then bad
      else if n = entryBank lv + 3 then syl
      else k.sysRd n := by
  rw [Core.enterTrap_enterSys]
  exact Core.enterSys_sysRd k (entryBank lv) lv epc int code blen slot bad syl k.pl (k.sf 0x010 fIE) n (entryBank_bounds lv).1

/-- Everything of a core that entry from outside a bundle touches, beside its system registers and pc. -/
theorem Core.entered_of (s t : State) (c lv : Nat) (int : Bool) (epc : Word) (code blen slot : Nat) (bad syl : Word)
    (but : List Nat) (k : Core) (ho : s.OnlyCore t c) (hlv : lv = 1 ∨ lv = 2)
    (hk : (s.core c).SysKept k but) (h10 : 0x010 ∉ but) (hv : entryBank lv + 4 ∉ but)
    (hkc : k = { s.core c with sys := k.sys, pred := k.pred, misp := none, cur := none, bundles := [], fills := [],
                               lineBuf := [], ask := none, sleepRes := none, resp := none })
    (ht : t.core c = k.enterTrap lv epc int code blen slot bad syl) :
    s.Entered t c lv int epc code blen slot bad syl but := by
  have hb := entryBank_bounds lv
  have hsys := fun n => (congrArg (fun q : Core => q.sysRd n) ht).trans (k.enterTrap_sysRd lv epc int code blen slot bad syl n)
  have hst : k.sysRd 0x010 = (s.core c).sysRd 0x010 := hk 0x010 h10 (by omega)
  have hpl : k.pl = (s.core c).pl := by unfold Core.pl Core.sf; rw [hst]
  have hie : k.sf 0x010 fIE = (s.core c).sf 0x010 fIE := by unfold Core.sf; rw [hst]
  have h0 : (t.core c).sysRd 0x010 = entryStatus lv (s.core c).pl ((s.core c).sf 0x010 fIE) ((s.core c).sysRd 0x010) := by
    rw [hsys, if_pos rfl, hst, hpl, hie]
  have hie2 : (s.core c).sf 0x010 fIE < 2 := fget_lt _ _
  refine ⟨ho, ?_, ?_, ?_, ?_, ?_, ?_, ?_, ?_, ?_, ?_, ?_, ?_⟩
  · rw [ht, Core.enterTrap_enterSys, (Core.sysOnly_enterSys k _ lv epc int code blen slot bad syl k.pl (k.sf 0x010 fIE)), hkc]
  · rw [hsys, if_neg (by omega), if_pos rfl]
  · rw [hsys, if_neg (by omega), if_neg (by omega), if_pos rfl]
  · rw [hsys, if_neg (by omega), if_neg (by omega), if_neg (by omega), if_pos rfl]
  · rw [hsys, if_neg (by omega), if_neg (by omega), if_neg (by omega), if_neg (by omega), if_pos rfl]
  · unfold Core.sf; rw [h0, entryStatus_pl _ _ _ _ (by omega)]
  · unfold Core.sf; rw [h0, entryStatus_ie]
  · conv => lhs; unfold Core.sf
    rw [h0, entryStatus_savedIe _ _ _ _ hie2]
  · conv => lhs; unfold Core.sf
    rw [h0, entryStatus_savedPl]
  · intro i hi; rw [h0, entryStatus_other _ _ _ _ _ hi]
  · rw [ht, Core.enterTrap_enterSys]
    show k.sysRd (entryBank lv + 4) + _ = _
    rw [hk _ hv (by omega)]
  · intro n hn hp
    simp only [List.cons_append, List.nil_append, List.mem_cons, not_or] at hn
    rw [hsys, if_neg hn.1, if_neg hn.2.1, if_neg hn.2.2.1, if_neg hn.2.2.2.1, if_neg hn.2.2.2.2.1]
    exact hk n hn.2.2.2.2.2 hp

/-- `k` without what was fetched ahead, with other system registers and prediction state. -/
def Core.cleared (k : Core) (sys : SMap Word) (p : Pred) : Core :=
  { k with sys := sys, pred := p, misp := none, cur := none, bundles := [], fills := [], lineBuf := [], ask := none, waiting := false,
           sleeping := false, sleepRes := none, resp := none }

theorem Core.restart_eq (k : Core) : k.restart = k.cleared k.sys k.restart.pred := by
  unfold Core.restart Core.recover Core.cleared
  split <;> simp_all

theorem Core.sysRd_restart (k : Core) (n : Nat) : k.restart.sysRd n = k.sysRd n := by
  rw [Core.restart_eq]; rfl

/-- What a synchronous trap does to its core, before the entry itself. -/
def Core.trapBase (k : Core) (code : Nat) (bad : Word) : Core :=
  let k := (k.countAll k.pl false none [(0x1B, 1)]).restart
  if code = 5 || code = 6 || code = 7 then k.setSf 0x051 fVPN (nbits 55 16 bad.toNat) else k

theorem Core.trap_eq (k : Core) (a : Word) (ys : List Syl) (x : Trap) :
    k.trap a ys x = (k.trapBase x.code x.bad).enterTrap ((k.trapBase x.code x.bad).trapLevel x.code x.mtrap) a false x.code
      (x.place ys).1 (x.place ys).2.1 x.bad (x.place ys).2.2 := rfl

theorem Core.trapBase_sys (k : Core) (code : Nat) (bad : Word) (l : List Nat)
    (h : 0x051 ∈ l ∨ (code ≠ 5 ∧ code ≠ 6 ∧ code ≠ 7)) : k.SysKept (k.trapBase code bad) l := by
  have h1 : k.SysKept (k.countAll k.pl false none [(0x1B, 1)]).restart l := fun n hn hp => by
    rw [Core.sysRd_restart]; exact (k.onlySys_countAll k.pl false none [(0x1B, 1)] l).sys n hn hp
  unfold Core.trapBase
  dsimp only
  split
  · rename_i hc
    rcases h with h | h
    · intro n hn hp
      have : n ≠ 0x051 := fun e => hn (by rw [e]; exact h)
      rw [Core.sysRd_setSf, if_neg this]
      exact h1 n hn hp
    · simp at hc; omega
  · exact h1

theorem Core.trapBase_eq (k : Core) (code : Nat) (bad : Word) :
    k.trapBase code bad = k.cleared (k.trapBase code bad).sys (k.trapBase code bad).pred := by
  have h1 : ∃ S p, (k.countAll k.pl false none [(0x1B, 1)]).restart = k.cleared S p := by
    have e := (k.onlySys_countAll k.pl false none [(0x1B, 1)] []).core
    generalize k.countAll k.pl false none [(0x1B, 1)] = q at e
    refine ⟨q.sys, q.restart.pred, (Core.restart_eq q).trans ?_⟩
    generalize q.restart.pred = p
    rw [e]
    rfl
  obtain ⟨S, p, h1⟩ := h1
  unfold Core.trapBase
  dsimp only
  rw [h1]
  split <;> rfl

/-- A bundle given to a ready core that meets a cause is left for its handler. -/
theorem State.giveBundle_trap (s : State) (c : Nat) (ys : List Syl) (x : Trap) (hr : s.Ready c)
    (hc : s.cause c (s.core c) (s.core c).pc ys (s.fetchFault c (s.core c) (s.core c).pc ys.length) = some x) :
    s.OnlyCore (s.giveBundle c ys) c ∧ ∃ p, (s.giveBundle c ys).core c
      = ({ s.core c with pred := p } : Core).trap (s.core c).pc ys x := by
  obtain ⟨t, h1, h2, h3⟩ := s.giveBundle_ready c ys hr
  have hs : s.Same t := ⟨h1, h2⟩
  obtain ⟨q, hq⟩ : ∃ q : Pred × Predn, q = (s.core c).pred.predict (s.core c).pc ys := ⟨_, rfl⟩
  obtain ⟨k, hk⟩ : ∃ k : Core, k = { s.core c with pred := q.1 } := ⟨_, rfl⟩
  have e : t.startGiven c ys = (t.setCore c k).takeTrap c (s.core c).pc ys x := by
    unfold State.startGiven State.start
    rw [t.mispredict_none c (by rw [h2]; exact hr.misp)]
    dsimp only
    rw [t.checkRegs_none c _ (by rw [h2]; exact hr.flips)]
    simp only [h2, hs.fetchFault, hs.cause, hc, ← hq, hk, Core.fills_nil _ hr.fills]
  have e2 : (t.setCore c k).takeTrap c (s.core c).pc ys x = (t.setCore c k).setCore c (k.trap (s.core c).pc ys x) := by
    have hb : ((t.setCore c k).core c).bundles = [] := by rw [State.core_setCore_self, hk]; exact hr.bundles
    rw [State.takeTrap, State.squash, hb]
    show (t.setCore c k).updCore c _ = _
    unfold State.updCore
    rw [State.core_setCore_self]
  obtain ⟨S, pc, p, hkt⟩ : ∃ S pc p, k.trap (s.core c).pc ys x = { k.cleared S p with pc := pc } := by
    rw [Core.trap_eq, Core.enterTrap_enterSys, Core.sysOnly_enterSys, Core.trapBase_eq]
    exact ⟨_, _, _, rfl⟩
  have hkk : ∀ S p pc, ({ k.cleared S p with pc := pc } : Core).running = true ∧ ({ k.cleared S p with pc := pc } : Core).late = [] := by
    intro S p pc; rw [hk]; exact ⟨hr.running, hr.late⟩
  rw [h3, e, e2, State.resume_idle]
  · refine ⟨⟨by rw [h1]; rfl, fun d hd => ?_⟩, q.1, ?_⟩
    · rw [State.core_setCore, if_neg hd, State.core_setCore, if_neg hd, h2]
    · rw [State.core_setCore_self, hk]
  · rw [State.core_setCore_self, hkt]; exact (hkk _ _ _).1
  · rw [State.coreOn_setCore, State.coreOn_setCore, hs.coreOn]; exact hr.on
  · rw [State.core_setCore_self, hkt]; rfl
  · rw [State.core_setCore_self, hkt]; exact (hkk _ _ _).2
  · rw [State.core_setCore_self, hkt]; rfl

/-- The trap of a bundle given to a ready core, as R88 and R89 describe it. -/
theorem State.entered_give (s : State) (c : Nat) (ys : List Syl) (x : Trap) (but : List Nat) (hr : s.Ready c)
    (hc : s.cause c (s.core c) (s.core c).pc ys (s.fetchFault c (s.core c) (s.core c).pc ys.length) = some x)
    (hb : 0x051 ∈ but ∨ (x.code ≠ 5 ∧ x.code ≠ 6 ∧ x.code ≠ 7)) (hn : ∀ n, n ∈ but → n = 0x051) :
    s.Entered (s.giveBundle c ys) c (if x.mtrap then 2 else (s.core c).routed x.code) false (s.core c).pc x.code
      (x.place ys).1 (x.place ys).2.1 x.bad (x.place ys).2.2 but := by
  obtain ⟨h1, p, h2⟩ := s.giveBundle_trap c ys x hr hc
  obtain ⟨k, hk⟩ : ∃ k : Core, k = ({ s.core c with pred := p } : Core).trapBase x.code x.bad := ⟨_, rfl⟩
  have hkept : (s.core c).SysKept k but := by
    rw [hk]; exact Core.trapBase_sys { s.core c with pred := p } x.code x.bad but hb
  have h10 : 0x010 ∉ but := fun h => by have := hn _ h; omega
  have h26 : 0x026 ∉ but := fun h => by have := hn _ h; omega
  have hlv : k.trapLevel x.code x.mtrap = if x.mtrap then 2 else (s.core c).routed x.code := by
    have e1 : k.pl = (s.core c).pl := by unfold Core.pl Core.sf; rw [hkept _ h10 (by decide)]
    unfold Core.trapLevel Core.routed
    rw [e1, hkept _ h26 (by decide)]
    cases x.mtrap <;> simp
  rw [Core.trap_eq, ← hk, hlv] at h2
  refine Core.entered_of s _ c _ false _ _ _ _ _ _ but k h1 ?_ hkept h10 ?_ ?_ h2
  · unfold Core.routed; split
    · exact Or.inr rfl
    · split
      · exact Or.inr rfl
      · exact Or.inl rfl
  · intro h; have := hn _ h; unfold entryBank at this; generalize (if x.mtrap then 2 else (s.core c).routed x.code) = lv at this; split at this <;> omega
  · have e := Core.trapBase_eq { s.core c with pred := p } x.code x.bad
    rw [← hk] at e
    rw [e]
    unfold Core.cleared
    have e1 := hr.waiting; have e2 := hr.sleeping
    generalize s.core c = q at *
    cases q
    simp only at e1 e2
    subst e1 e2
    rfl

/-- The trap of one syllable given to a ready core. -/
theorem State.trapped_give (s : State) (sl : Slot) (u : Nat) (op : Op) (code : Nat) (bad : Word) (but : List Nat)
    (hr : s.Ready sl.core) (hst : sl.stop = true)
    (hc : s.cause sl.core (s.core sl.core) (s.core sl.core).pc [⟨u, true, op⟩] none = some (.at_ 0 code bad))
    (hb : 0x051 ∈ but ∨ (code ≠ 5 ∧ code ≠ 6 ∧ code ≠ 7)) (hn : ∀ n, n ∈ but → n = 0x051) :
    s.Trapped (s.give sl u op) sl u op code bad but := by
  rw [s.give_stop sl u op hr hst]
  exact s.entered_give sl.core [⟨u, true, op⟩] (.at_ 0 code bad) but hr
    (by have := hr.fetch
        simp only [List.length_cons, List.length_nil, Nat.zero_add, this]; exact hc) hb hn

/-- One syllable that is illegal in its unit raises ILLEGAL_BUNDLE (R72, R85). -/
theorem State.cause_illegal (s : State) (c : Nat) (k : Core) (a : Word) (u : Nat) (op : Op)
    (hw : k.watchFetch a 1 = false) (ho : op.ok u = false) :
    s.cause c k a [⟨u, true, op⟩] none = some (.at_ 0 0x01 0) := by
  have h1 : firstIllegal [⟨u, true, op⟩] = some 0 := by
    simp [firstIllegal, firstIllegal.numsUpTo, illegalAt, ho]
  unfold State.cause
  simp only [List.length_cons, List.length_nil, Nat.zero_add, hw, h1, Bool.false_eq_true, if_false]

/-- A syllable beyond the level raises PRIVILEGE (R85 row 7). -/
theorem State.cause_beyond (s : State) (c : Nat) (k : Core) (a : Word) (u : Nat) (op : Op)
    (hw : k.watchFetch a 1 = false) (ho : op.ok u = true) (hc : op.isCop = false) (hb : beyond k.pl op = true)
    (he : (op == .eret && u == 6) = false) : s.cause c k a [⟨u, true, op⟩] none = some (.at_ 0 0x03 0) := by
  have h1 : firstIllegal [⟨u, true, op⟩] = none := by simp [firstIllegal, firstIllegal.numsUpTo, illegalAt, ho, he]
  have h2 : firstSyl [⟨u, true, op⟩] Op.isCop = none := by simp [firstSyl, numsFrom, hc]
  have h3 : firstSyl [⟨u, true, op⟩] (beyond k.pl) = some 0 := by simp [firstSyl, numsFrom, hb]
  unfold State.cause
  simp only [List.length_cons, List.length_nil, Nat.zero_add, hw, h1, h2, h3, Bool.false_eq_true, if_false]

/-- A coprocessor syllable raises COP_ABSENT (R81, R85 row 6). -/
theorem State.cause_cop (s : State) (c : Nat) (k : Core) (a : Word) (u : Nat) (op : Op)
    (hw : k.watchFetch a 1 = false) (ho : op.ok u = true) (hc : op.isCop = true)
    (he : (op == .eret && u == 6) = false) : s.cause c k a [⟨u, true, op⟩] none = some (.at_ 0 0x02 0) := by
  have h1 : firstIllegal [⟨u, true, op⟩] = none := by simp [firstIllegal, firstIllegal.numsUpTo, illegalAt, ho, he]
  have h2 : firstSyl [⟨u, true, op⟩] Op.isCop = some 0 := by simp [firstSyl, numsFrom, hc]
  unfold State.cause
  simp only [List.length_cons, List.length_nil, Nat.zero_add, hw, h1, h2, Bool.false_eq_true, if_false]

/-! ## Vector registers and accumulators -/

theorem Core.vr_setV (k : Core) (d r : RegNo) (x : VReg) :
    (k.setV d x).vr r = if r.toNat % 32 = d.toNat % 32 then x else k.vr r := by
  unfold Core.setV Core.vr
  simp only [Vector.getElem_set]
  by_cases h : d.toNat % 32 = r.toNat % 32
  · simp [h]
  · have : ¬ r.toNat % 32 = d.toNat % 32 := fun e => h e.symm
    simp [h, this]

theorem Core.ac_setA (k : Core) (d r : RegNo) (x : Ream) :
    (k.setA d x).ac r = if r.toNat % 4 = d.toNat % 4 then x else k.ac r := by
  unfold Core.setA Core.ac
  simp only [Vector.getElem_set]
  by_cases h : d.toNat % 4 = r.toNat % 4
  · simp [h]
  · have : ¬ r.toNat % 4 = d.toNat % 4 := fun e => h e.symm
    simp [h, this]

theorem fput_vdirty (w : Word) : fput fVDIRTY 1 w = w ||| 0x4000#64 := by
  have h : fmask fVDIRTY = 0x4000#64 := by decide
  unfold fput
  rw [h]
  show _ ||| (0x4000#64 &&& 0x4000#64) = _
  rw [BitVec.and_self]
  ext i hi
  simp only [BitVec.getElem_or, BitVec.getElem_and, BitVec.getElem_not]
  cases w[i] <;> cases (0x4000#64)[i] <;> rfl

theorem fput_rdirty (w : Word) : fput fRDIRTY 1 w = w ||| 0x8000#64 := by
  have h : fmask fRDIRTY = 0x8000#64 := by decide
  unfold fput
  rw [h]
  show _ ||| (0x8000#64 &&& 0x8000#64) = _
  rw [BitVec.and_self]
  ext i hi
  simp only [BitVec.getElem_or, BitVec.getElem_and, BitVec.getElem_not]
  cases w[i] <;> cases (0x8000#64)[i] <;> rfl

/-- What a ready core's one-syllable bundle comes to, when it meets no cause and makes no access. -/
theorem State.give_one (s : State) (sl : Slot) (u : Nat) (op : Op) (hr : s.Ready sl.core)
    (hst : sl.stop = true) (hu : u ≠ 6) (ho : op.ok u = true) (hc : op.isCop = false)
    (hb : beyond (s.core sl.core).pl op = false) (hy : s.sylCause sl.core (s.core sl.core) 0 op = none)
    (ha : s.sylActs sl.core (s.core sl.core) 0 op = []) (hf : op.flushes = false) (he : (op == .eret) = false) :
    s.OnlyCore (s.give sl u op) sl.core ∧ (s.give sl u op).core sl.core = s.ranOne sl.core ⟨u, true, op⟩ := by
  rw [s.give_stop sl u op hr hst]
  have hbo : bOf [⟨u, true, op⟩] = none := by simp [bOf, hu]
  exact s.giveBundle_one sl.core ⟨u, true, op⟩ hr
    (by rw [s.cause_one _ _ _ _ _ hr.watch ho hc hb, hy]) (s.acts_one _ _ _ ha) hbo hf he

/-- A ready core and one legal syllable without a cause, an access or a result. -/
theorem State.ranN_give (s : State) (sl : Slot) (u : Nat) (op : Op) (hr : s.Ready sl.core) (hst : sl.stop = true)
    (hu : u ≠ 6) (ho : op.ok u = true) (hc : op.isCop = false) (hb : beyond (s.core sl.core).pl op = false)
    (hy : s.sylCause sl.core (s.core sl.core) 0 op = none) (ha : s.sylActs sl.core (s.core sl.core) 0 op = [])
    (hf : op.flushes = false) (he : (op == .eret) = false) (hm : (s.core sl.core).mtOf [⟨u, true, op⟩] = none)
    (hw : s.result sl.core (s.core sl.core) ((s.core sl.core).pc + 4) [] [] op = .none) :
    s.RanN (s.give sl u op) sl.core := by
  obtain ⟨h1, h2⟩ := s.give_one sl u op hr hst hu ho hc hb hy ha hf he
  obtain ⟨K, hK⟩ : ∃ K : Core, K = ((s.core sl.core).countAll (s.core sl.core).pl false none
      (((s.core sl.core).curOne ⟨u, true, op⟩).allEvents [])).raise 0 := ⟨_, rfl⟩
  have hos : (s.core sl.core).OnlySys K [] := by
    rw [hK]; exact (Core.onlySys_countAll _ _ _ _ _ _).trans (Core.onlySys_raise_zero _ _)
  have h3 : s.ranOne sl.core ⟨u, true, op⟩ =
      { K with cur := none, waiting := false, sleeping := false, pc := (s.core sl.core).pc + 4 } := by
    unfold State.ranOne
    dsimp only
    rw [hw, hm, hK]
    rfl
  refine ⟨h1, ?_, fun n hn hp => ?_⟩
  · rw [h2, h3, hos.core]
    have e1 := hr.cur; have e2 := hr.waiting; have e3 := hr.sleeping
    generalize K.sys = S
    clear hK hos h3 h2 h1 hw hm ha hy hb
    generalize s.core sl.core = k at *
    cases k
    simp only at e1 e2 e3
    subst e1 e2 e3
    rfl
  · rw [h2, h3]
    exact hos.sys n hn hp

theorem State.ranV_give (s : State) (sl : Slot) (u : Nat) (op : Op) (d : RegNo) (x : VReg × FFlags) (hr : s.Ready sl.core)
    (hst : sl.stop = true) (hu : u ≠ 6) (ho : op.ok u = true) (hc : op.isCop = false)
    (hb : beyond (s.core sl.core).pl op = false) (hy : s.sylCause sl.core (s.core sl.core) 0 op = none)
    (ha : s.sylActs sl.core (s.core sl.core) 0 op = []) (hf : op.flushes = false) (he : (op == .eret) = false)
    (hm : (s.core sl.core).mtOf [⟨u, true, op⟩] = none)
    (hw : s.result sl.core (s.core sl.core) ((s.core sl.core).pc + 4) [] [] op = .toV d x) :
    s.RanV (s.give sl u op) sl.core d x.1 x.2 := by
  obtain ⟨h1, h2⟩ := s.give_one sl u op hr hst hu ho hc hb hy ha hf he
  obtain ⟨K1, hK1⟩ : ∃ K1, K1 = ((s.core sl.core).setV d x.1).countAll ((s.core sl.core).setV d x.1).pl false none
          (((s.core sl.core).curOne ⟨u, true, op⟩).allEvents []) := ⟨_, rfl⟩
  have h3 : s.ranOne sl.core ⟨u, true, op⟩ = { ((K1.raise x.2).setSf 0x010 fVDIRTY 1) with
      cur := none, waiting := false, sleeping := false, pc := (s.core sl.core).pc + 4 } := by
    unfold State.ranOne
    dsimp only
    rw [hw, hm, hK1]
    rfl
  have ho1 : ((s.core sl.core).setV d x.1).OnlySys K1 [] := by rw [hK1]; exact Core.onlySys_countAll _ _ _ _ _ _
  have hsys : ∀ n, ((s.give sl u op).core sl.core).sysRd n =
      if n = 0x010 then fput fVDIRTY 1 (K1.sysRd 0x010) else if n = 0x031 then K1.sysRd 0x031 ||| x.2.setWidth 64 else K1.sysRd n := by
    intro n
    rw [h2, h3]
    show ((K1.raise x.2).setSf 0x010 fVDIRTY 1).sysRd n = _
    rw [Core.sysRd_setSf]
    unfold Core.raise
    simp only [Core.sysRd_sysWr]
    rfl
  have hvr : ∀ r, ((s.give sl u op).core sl.core).vr r = ((s.core sl.core).setV d x.1).vr r := by
    intro r
    rw [h2, h3]
    show K1.vr r = _
    rw [ho1.core]; rfl
  have hk1 : ∀ n, (n < 0x070 ∨ 0x07F < n) → K1.sysRd n = (s.core sl.core).sysRd n := fun n hn => ho1.sys n (by simp) hn
  refine ⟨h1, ?_, ?_, ?_, ?_, ?_, ?_⟩
  · rw [h2, h3]
    have e1 := hr.cur; have e2 := hr.waiting; have e3 := hr.sleeping
    obtain ⟨S, hS⟩ : ∃ S, (K1.raise x.2).setSf 0x010 fVDIRTY 1 = { (s.core sl.core).setV d x.1 with sys := S } :=
      ⟨_, (Core.SysOnly.trans ho1.core (Core.SysOnly.trans (Core.sysOnly_sysWr _ _ _) (Core.sysOnly_setSf _ _ _ _)))⟩
    rw [hS]
    unfold Core.setV
    generalize s.core sl.core = k at *
    cases k
    simp only at e1 e2 e3
    subst e1 e2 e3
    rfl
  · rw [hvr, Core.vr_setV, if_pos rfl]
  · intro r h; rw [hvr, Core.vr_setV, if_neg h]
  · rw [hsys, if_pos rfl, fput_vdirty, hk1 _ (by decide)]
  · rw [hsys, if_neg (by decide), if_pos rfl, hk1 _ (by decide)]
  · intro n hn hp
    simp only [List.mem_cons, List.not_mem_nil, or_false, not_or] at hn
    rw [hsys, if_neg hn.1, if_neg hn.2, hk1 _ hp]
theorem State.ranA_give (s : State) (sl : Slot) (u : Nat) (op : Op) (d : RegNo) (x : Ream) (hr : s.Ready sl.core)
    (hst : sl.stop = true) (hu : u ≠ 6) (ho : op.ok u = true) (hc : op.isCop = false)
    (hb : beyond (s.core sl.core).pl op = false) (hy : s.sylCause sl.core (s.core sl.core) 0 op = none)
    (ha : s.sylActs sl.core (s.core sl.core) 0 op = []) (hf : op.flushes = false) (he : (op == .eret) = false)
    (hm : (s.core sl.core).mtOf [⟨u, true, op⟩] = none)
    (hw : s.result sl.core (s.core sl.core) ((s.core sl.core).pc + 4) [] [] op = .toA d x) :
    s.RanA (s.give sl u op) sl.core d x := by
  obtain ⟨h1, h2⟩ := s.give_one sl u op hr hst hu ho hc hb hy ha hf he
  obtain ⟨K1, hK1⟩ : ∃ K1, K1 = ((s.core sl.core).setA d x).countAll ((s.core sl.core).setA d x).pl false none
          (((s.core sl.core).curOne ⟨u, true, op⟩).allEvents []) := ⟨_, rfl⟩
  have h3 : s.ranOne sl.core ⟨u, true, op⟩ = { ((K1.raise 0).setSf 0x010 fRDIRTY 1) with
      cur := none, waiting := false, sleeping := false, pc := (s.core sl.core).pc + 4 } := by
    unfold State.ranOne
    dsimp only
    rw [hw, hm, hK1]
    rfl
  have ho1 : ((s.core sl.core).setA d x).OnlySys K1 [] := by rw [hK1]; exact Core.onlySys_countAll _ _ _ _ _ _
  have hsys : ∀ n, ((s.give sl u op).core sl.core).sysRd n =
      if n = 0x010 then fput fRDIRTY 1 (K1.sysRd 0x010) else K1.sysRd n := by
    intro n
    rw [h2, h3]
    show ((K1.raise 0).setSf 0x010 fRDIRTY 1).sysRd n = _
    rw [Core.sysRd_setSf]
    unfold Core.raise
    have : ∀ m, (K1.sysWr 0x031 (K1.sysRd 0x031 ||| (0 : FFlags).setWidth 64)).sysRd m = K1.sysRd m := by
      intro m; rw [Core.sysRd_sysWr]; split
      · rename_i e; subst e; simp
      · rfl
    simp only [this]
  have har : ∀ r, ((s.give sl u op).core sl.core).ac r = ((s.core sl.core).setA d x).ac r := by
    intro r
    rw [h2, h3]
    show K1.ac r = _
    rw [ho1.core]; rfl
  have hk1 : ∀ n, (n < 0x070 ∨ 0x07F < n) → K1.sysRd n = (s.core sl.core).sysRd n := fun n hn => ho1.sys n (by simp) hn
  refine ⟨h1, ?_, ?_, ?_, ?_, ?_⟩
  · rw [h2, h3]
    have e1 := hr.cur; have e2 := hr.waiting; have e3 := hr.sleeping
    obtain ⟨S, hS⟩ : ∃ S, (K1.raise 0).setSf 0x010 fRDIRTY 1 = { (s.core sl.core).setA d x with sys := S } :=
      ⟨_, (Core.SysOnly.trans ho1.core (Core.SysOnly.trans (Core.sysOnly_sysWr _ _ _) (Core.sysOnly_setSf _ _ _ _)))⟩
    rw [hS]
    unfold Core.setA
    generalize s.core sl.core = k at *
    cases k
    simp only at e1 e2 e3
    subst e1 e2 e3
    rfl
  · rw [har, Core.ac_setA, if_pos rfl]
  · intro r h; rw [har, Core.ac_setA, if_neg h]
  · rw [hsys, if_pos rfl, fput_rdirty, hk1 _ (by decide)]
  · intro n hn hp
    simp only [List.mem_cons, List.not_mem_nil, or_false] at hn
    rw [hsys, if_neg hn, hk1 _ hp]
end Sys2Proof.Machine
end

