-- ==== Sys2Proof/Laws/Events.lean ====
section
/-!
SUPPORT. What an arrival can change: registers, event sources, the crossings that carry it, the power block, cores, the
AON arrivals and wakes that wait and what leaves the pins; everything else is as before.
-/

namespace Sys2Proof.Machine

/-- From `s` to `t` only what an arrival, a wake or a ramp touches has changed. -/
def State.EventFrame (s t : State) : Prop :=
  t = { s with ctrl := t.ctrl, hub := t.hub, aonPend := t.aonPend, power := t.power, cores := t.cores, out := t.out,
               xings := t.xings, woken := t.woken }

theorem State.EventFrame.refl (s : State) : s.EventFrame s := rfl

theorem State.EventFrame.trans {a b c : State} (h : a.EventFrame b) (g : b.EventFrame c) : a.EventFrame c := by
  unfold State.EventFrame at *; rw [g, h]

theorem State.EventFrame.ite {s a b : State} {p : Prop} [Decidable p] (ha : s.EventFrame a) (hb : s.EventFrame b) :
    s.EventFrame (if p then a else b) := by split <;> assumption

theorem State.EventFrame.foldl {β : Type} (f : State → β → State) (l : List β) (s : State)
    (h : ∀ (s : State) (x : β), s.EventFrame (f s x)) : s.EventFrame (l.foldl f s) := by
  induction l generalizing s with
  | nil => exact .refl s
  | cons x r ih => exact (h s x).trans (ih (f s x))

theorem State.EventFrame.wr {s t : State} (h : s.EventFrame t) (a : Nat) (v : Word) : s.EventFrame (t.wr a v) :=
  h.trans rfl
theorem State.EventFrame.setF {s t : State} (h : s.EventFrame t) (a : Nat) (f : Fld) (v : Nat) : s.EventFrame (t.setF a f v) :=
  h.wr _ _
theorem State.EventFrame.satF {s t : State} (h : s.EventFrame t) (a : Nat) (f : Fld) (v : Nat) : s.EventFrame (t.satF a f v) :=
  h.wr _ _
theorem State.EventFrame.setCore {s t : State} (h : s.EventFrame t) (c : Nat) (k : Core) : s.EventFrame (t.setCore c k) :=
  h.trans rfl
theorem State.EventFrame.setSrc {s t : State} (h : s.EventFrame t) (n : Nat) (e : EvSource) : s.EventFrame (t.setSrc n e) :=
  h.trans rfl
theorem State.EventFrame.setXing {s t : State} (h : s.EventFrame t) (w : Window) (x : Nat) (c : Crossing) :
    s.EventFrame (t.setXing w x c) := h.trans rfl
theorem State.EventFrame.emit {s t : State} (h : s.EventFrame t) (o : Out) : s.EventFrame (t.emit o) := h.trans rfl
theorem State.EventFrame.power {s t : State} (h : s.EventFrame t) (p : Power) : s.EventFrame { t with power := p } :=
  h.trans rfl
theorem State.EventFrame.aonPend {s t : State} (h : s.EventFrame t) (l : List Nat) : s.EventFrame { t with aonPend := l } :=
  h.trans rfl

theorem State.EventFrame.rampNext {s t : State} (h : s.EventFrame t) : s.EventFrame t.rampNext := by
  unfold State.rampNext
  split
  · exact h
  · exact .ite ((h.power _).setF _ _ _) h

theorem State.EventFrame.rampStart {s t : State} (h : s.EventFrame t) (k : Nat) : s.EventFrame (t.rampStart k) := by
  unfold State.rampStart
  split
  · exact h
  · extract_lets e a b up wt
    have g : s.EventFrame b := (h.setF _ _ _).setF _ _ _
    clear_value b
    split
    · split
      · exact (g.power _).setF _ _ _
      · exact g.power _
    · split
      · exact ((g.power _).setF _ _ _).rampNext
      · exact ((g.power _).setF _ _ _).rampNext

theorem State.eventFrame_ramps (s : State) (l : List Nat) : s.EventFrame (l.foldl (fun s k => s.rampStart k) s) :=
  .foldl _ _ _ fun s k => (State.EventFrame.refl s).rampStart k

theorem State.eventFrame_relevel (s : State) : s.EventFrame s.relevel := by
  unfold State.relevel
  generalize (numsFrom 0 302).filter levelled = l
  exact s.eventFrame_ramps l

theorem State.EventFrame.holdEnd {s t : State} (h : s.EventFrame t) : s.EventFrame t.holdEnd := by
  have g : s.EventFrame (t.power.memWas.foldl (fun s p => s.setF (DOM_STAT.adr (144 + p.1)) DOM_STAT.LEVEL_NOW p.2) t) :=
    h.trans (.foldl _ _ _ fun s p => (State.EventFrame.refl s).setF _ _ _)
  exact (g.power _).trans (State.eventFrame_relevel _)

theorem State.EventFrame.wakeDevice {s t : State} (h : s.EventFrame t) (cause slot : Nat) : s.EventFrame (t.wakeDevice cause slot) := by
  unfold State.wakeDevice
  refine .ite ((h.wr _ _).setF _ _ _).holdEnd (.ite (((h.wr _ _).setF _ _ _).emit _) (.ite ?_ h))
  split
  · exact h
  · exact h.power _

theorem State.EventFrame.sleepResult {s t : State} (h : s.EventFrame t) (p code : Nat) : s.EventFrame (t.sleepResult p code) := by
  unfold State.sleepResult
  generalize t.tileCores p = l
  exact h.trans (.foldl _ _ _ fun s _ => .ite ((State.EventFrame.refl s).setCore _ _) (.refl s))

theorem State.EventFrame.wakeTile {s t : State} (h : s.EventFrame t) (p cause slot : Nat) : s.EventFrame (t.wakeTile p cause slot) := by
  unfold State.wakeTile State.napExitStart
  exact .ite ((((h.setF _ _ _).wr _ _).setF _ _ _).power _) (.ite ((((h.setF _ _ _).wr _ _).setF _ _ _).sleepResult _ _) h)

theorem State.EventFrame.fireSlot {s t : State} (h : s.EventFrame t) (i n : Nat) (hit : Bool × Bool) :
    s.EventFrame (t.fireSlot i n hit) := by
  unfold State.fireSlot
  extract_lets a b
  have ha : s.EventFrame a := .ite (h.wr _ _) h
  have hb : s.EventFrame b := by
    refine .ite ?_ ha
    split
    · exact ha.wakeTile _ _ _
    · exact ha
  exact .ite (hb.wakeDevice _ _) hb

theorem State.EventFrame.noteCore {s t : State} (h : s.EventFrame t) (c : Nat) : s.EventFrame (t.noteCore c) := by
  unfold State.noteCore
  exact .ite (h.trans rfl) h

theorem State.eventFrame_fireWhere (s : State) (f : Nat → Bool) : s.EventFrame (s.fireWhere f) :=
  .foldl _ _ _ fun s _ => (State.EventFrame.refl s).fireSlot _ _ _

theorem State.EventFrame.fireLevels {s t : State} (h : s.EventFrame t) : s.EventFrame t.fireLevels :=
  h.trans (t.eventFrame_fireWhere _)

/-- An arrival changes nothing but what the frame names. -/
theorem State.EventFrame.arrive {s t : State} (h : s.EventFrame t) (n k : Nat) : s.EventFrame (t.arrive n k) := by
  have f := h.trans (t.eventFrame_fireWhere fun m => m == n)
  unfold State.arrive
  exact .ite h (.ite (.ite (f.aonPend _) h)
    (.ite (h.satF _ _ _) (((h.setSrc _ _).trans (State.eventFrame_fireWhere _ _)).noteCore _)))

theorem State.EventFrame.event {s t : State} (h : s.EventFrame t) (n : Nat) : s.EventFrame (t.event n) := h.arrive n 1

theorem State.eventFrame_event (s : State) (n : Nat) : s.EventFrame (s.event n) := (State.EventFrame.refl s).event n

/-! ## Events of blocks -/

theorem State.EventFrame.putXing {s t : State} (h : s.EventFrame t) (w : Window) (x : Nat) (c : Crossing) :
    s.EventFrame (t.putXing w x c) := by
  unfold State.putXing
  exact .ite (((h.setXing _ _ _).setF _ _ _).setF _ _ _) ((h.setXing _ _ _).setF _ _ _)

theorem State.EventFrame.resyncComplete {s t : State} (h : s.EventFrame t) (w : Window) (x : Nat) :
    s.EventFrame (t.resyncComplete w x) := by
  unfold State.resyncComplete
  exact .ite h ((((h.putXing _ _ _).setF _ _ _).satF _ _ _).setF _ _ _)

theorem State.EventFrame.pulseEvent {s t : State} (h : s.EventFrame t) (w : Window) (x : Nat) :
    s.EventFrame (t.pulseEvent w x) := by
  unfold State.pulseEvent
  exact .ite h (.ite (h.setF _ _ _) (h.putXing _ _ _))

theorem State.EventFrame.pulseDeliver {s t : State} (h : s.EventFrame t) (w : Window) (x : Nat) :
    s.EventFrame (t.pulseDeliver w x) := by
  unfold State.pulseDeliver
  extract_lets c d
  have hd : s.EventFrame d := h.putXing _ _ _
  clear_value d
  refine .ite ?_ h
  split
  · exact hd.arrive _ _
  · exact hd

theorem State.EventFrame.pulseDone {s t : State} (h : s.EventFrame t) (w : Window) (x : Nat) :
    s.EventFrame (t.pulseDone w x) := by
  unfold State.pulseDone
  exact .ite (h.putXing _ _ _) h

/-- An event that a block raises changes nothing but what the frame names. -/
theorem State.EventFrame.pulse {s t : State} (h : s.EventFrame t) (n : Nat) : s.EventFrame (t.pulse n) := by
  unfold State.pulse
  split
  · exact h.event n
  · refine .ite (h.event n) ?_
    extract_lets a free b
    have ha : s.EventFrame a := by
      unfold a State.xWarm
      exact .ite (h.resyncComplete _ _) h
    have hb : s.EventFrame b := ha.pulseEvent _ _
    exact .ite ((hb.pulseDeliver _ _).pulseDone _ _) hb

theorem State.EventFrame.logErr {s t : State} (h : s.EventFrame t) (l : ErrLog) (unc : Bool) (a v : Word) :
    s.EventFrame (t.logErr l unc a v) := by
  unfold State.logErr
  extract_lets st first held take b c d
  have hb : s.EventFrame b := .ite ((h.satF _ _ _).setF _ _ _) ((h.satF _ _ _).setF _ _ _)
  have hc : s.EventFrame c := hb.pulse _
  refine .ite (((hc.wr _ _).wr _ _).setF _ _ _) ?_
  split
  · exact (hc.setF _ _ _).pulse _
  · exact hc.setF _ _ _

end Sys2Proof.Machine
end

