-- ==== Sys2Proof/Laws/Lanes.lean ====
section
/-!
SUPPORT. Vector registers as lanes (R120): what a lane of a packed list is, and the flags of a list of lanes.
-/

namespace Sys2Proof.Machine

theorem numsFrom_length (lo n : Nat) : (numsFrom lo n).length = n := by
  induction n generalizing lo with
  | zero => rfl
  | succ n ih => simp [numsFrom, ih]

theorem numsFrom_getElem? (lo n i : Nat) : (numsFrom lo n)[i]? = if i < n then some (lo + i) else none := by
  induction n generalizing lo i with
  | zero => simp [numsFrom]
  | succ n ih =>
    cases i with
    | zero => simp [numsFrom]
    | succ i => simp only [numsFrom, List.getElem?_cons_succ, ih]; simp only [Nat.add_lt_add_iff_right]; congr 2; omega

theorem packLanes_div (w : Nat) (ls : List Nat) (i : Nat) : packLanes w ls / 2 ^ (w * i) % 2 ^ w = ls.getD i 0 % 2 ^ w := by
  induction ls generalizing i with
  | nil => simp [packLanes]
  | cons x r ih =>
    have hx : x % 2 ^ w < 2 ^ w := Nat.mod_lt _ (Nat.two_pow_pos _)
    cases i with
    | zero => simp [packLanes, Nat.add_mul_mod_self_left]
    | succ i =>
      have h1 : packLanes w (x :: r) / 2 ^ (w * (i + 1)) = packLanes w r / 2 ^ (w * i) := by
        rw [Nat.mul_add, Nat.mul_one, Nat.add_comm, Nat.pow_add, ← Nat.div_div_eq_div_mul]
        congr 1
        show (x % 2 ^ w + 2 ^ w * packLanes w r) / 2 ^ w = _
        rw [Nat.add_mul_div_left _ _ (Nat.two_pow_pos _), Nat.div_eq_of_lt hx, Nat.zero_add]
      rw [h1, ih]
      simp

/-- Lane `i` of a register packed from lanes is the `i`-th of them. -/
theorem lane_ofLanes (w : Nat) (ls : List Nat) (p : BitVec 8) (i : Nat) (h : w * i + w ≤ 512) :
    ((VReg.ofLanes w ls p).val.extractLsb' (w * i) w).toNat = ls.getD i 0 % 2 ^ w := by
  rw [← packLanes_div, BitVec.extractLsb'_toNat]
  show (packLanes w ls % 2 ^ 512) >>> (w * i) % 2 ^ w = _
  rw [Nat.shiftRight_eq_div_pow]
  have hp : ∀ a m : Nat, a ≤ m → (2 : Nat) ^ m = 2 ^ a * 2 ^ (m - a) := fun a m h => by
    rw [← Nat.pow_add, Nat.add_sub_cancel' h]
  rw [hp (w * i) 512 (by omega), Nat.mod_mul_right_div_self, hp w (512 - w * i) (by omega), Nat.mod_mul_right_mod]

theorem lane_eq (w i : Nat) (v : BitVec 512) : lane w i v = (v.extractLsb' (w * i) w).toNat := by
  unfold lane
  rw [BitVec.extractLsb'_toNat, BitVec.toNat_ushiftRight]

/-- Bit `k` of a byte packed from truth values. -/
theorem packBits_get (n : Nat) (f : Nat → Bool) (k : Nat) (hk : k < n) (hn : n ≤ 8) :
    (BitVec.ofNat 8 (packLanes 1 ((numsFrom 0 n).map fun k => b2n (f k)))).getLsbD k = f k := by
  have h := packLanes_div 1 ((numsFrom 0 n).map fun k => b2n (f k)) k
  rw [BitVec.getLsbD_ofNat, Nat.testBit_eq_decide_div_mod_eq]
  simp only [Nat.one_mul, Nat.pow_one] at h
  rw [h]
  have hg : (List.map (fun k => b2n (f k)) (numsFrom 0 n)).getD k 0 = b2n (f k) := by
    rw [List.getD_eq_getElem?_getD, List.getElem?_map, numsFrom_getElem?, if_pos hk]; simp
  rw [hg]
  cases f k <;> simp [b2n] <;> omega

theorem mapNums_getD {α : Type} (n i : Nat) (f : Nat → α) (d : α) (h : i < n) : ((numsFrom 0 n).map f).getD i d = f i := by
  rw [List.getD_eq_getElem?_getD, List.getElem?_map, numsFrom_getElem?, if_pos h]; simp

theorem laneFlags_go (w : Nat) (p : BitVec 8) (ls : List (Nat × FFlags)) (lo : Nat) (f0 : FFlags) (j : Nat) :
    ((ls.zip (numsFrom lo ls.length)).foldl (fun f q => if p.getLsbD (w * q.2 / 64) then f else f ||| q.1.2) f0).getLsbD j = true ↔
      f0.getLsbD j = true ∨ ∃ i x, ls[i]? = some x ∧ p.getLsbD (w * (lo + i) / 64) = false ∧ x.2.getLsbD j = true := by
  induction ls generalizing lo f0 with
  | nil => simp
  | cons y r ih =>
    simp only [List.length_cons, numsFrom, List.zip_cons_cons, List.foldl_cons]
    rw [ih]
    constructor
    · rintro (h | ⟨i, x, h1, h2, h3⟩)
      · cases hp : p.getLsbD (w * lo / 64)
        · rw [hp] at h
          simp only [Bool.false_eq_true, if_false, BitVec.getLsbD_or, Bool.or_eq_true] at h
          rcases h with h | h
          · exact Or.inl h
          · exact Or.inr ⟨0, y, rfl, hp, h⟩
        · rw [hp] at h; exact Or.inl h
      · exact Or.inr ⟨i + 1, x, h1, by rw [← h2]; congr 3; omega, h3⟩
    · rintro (h | ⟨i, x, h1, h2, h3⟩)
      · left; split
        · exact h
        · simp [BitVec.getLsbD_or, h]
      · cases i with
        | zero =>
          left
          simp only [List.getElem?_cons_zero, Option.some.injEq] at h1
          subst h1
          rw [Nat.add_zero] at h2
          simp [h2, h3]
        | succ i =>
          right
          exact ⟨i, x, h1, by rw [← h2]; congr 3; omega, h3⟩

/-- The flags of a list of lanes: those of the lanes whose element is not poisoned (R121). -/
theorem laneFlags_get (w n : Nat) (p : BitVec 8) (g : Nat → Nat × FFlags) (j : Nat) :
    (laneFlags w p ((numsFrom 0 n).map g)).getLsbD j = true ↔
      ∃ i, i < n ∧ p.getLsbD (w * i / 64) = false ∧ (g i).2.getLsbD j = true := by
  unfold laneFlags
  rw [laneFlags_go]
  constructor
  · rintro (h | ⟨i, x, h1, h2, h3⟩)
    · simp at h
    · rw [List.getElem?_map, numsFrom_getElem?] at h1
      by_cases hi : i < n
      · rw [if_pos hi] at h1
        simp only [Nat.zero_add, Option.map_some, Option.some.injEq] at h1 h2
        subst h1
        exact ⟨i, hi, h2, h3⟩
      · rw [if_neg hi] at h1; simp at h1
  · rintro ⟨i, hi, h2, h3⟩
    refine Or.inr ⟨i, g i, ?_, by rw [Nat.zero_add]; exact h2, h3⟩
    rw [List.getElem?_map, numsFrom_getElem?, if_pos hi]; simp

end Sys2Proof.Machine
end

