-- ==== Sys2Proof/Laws/Memory.lean ====
section
/-!
SUPPORT. The storage arrays: a byte read after a write, the canonical form, and that every operation over them keeps
it.
-/

namespace Sys2Proof.Machine

/-! ## Bytes -/

@[simp] theorem State.byteAt_setByte_self (s : State) (k : Nat) (b : Byte) : (s.setByte k b).byteAt k = b :=
  SMap.get_put_self _ _ _ _

theorem State.byteAt_setByte_ne (s : State) (k j : Nat) (b : Byte) (h : j ≠ k) : (s.setByte k b).byteAt j = s.byteAt j :=
  SMap.get_put_ne _ _ _ _ _ _ h

/-! ## The canonical form -/

/-- The storage arrays of `s` are in canonical form. -/
abbrev State.MemWf (s : State) : Prop := Memory.wf s.mem = true

/-- A change that leaves the arrays alone keeps their form. -/
theorem State.memWf_of_mem {s t : State} (h : t.mem = s.mem) (hw : s.MemWf) : t.MemWf := by
  unfold State.MemWf; rw [h]; exact hw

theorem State.EventFrame.mem {s t : State} (h : s.EventFrame t) : t.mem = s.mem := by rw [h]

theorem State.memWf_setByte (s : State) (k : Nat) (b : Byte) (h : s.MemWf) : (s.setByte k b).MemWf :=
  SMap.wf_put _ _ _ _ h

theorem State.memWf_loseStore (s : State) (lo hi : Nat) (h : s.MemWf) : (s.loseStore lo hi).MemWf :=
  SMap.wf_eraseRange _ _ _ _ h

theorem State.memWf_foldl {β : Type} (f : State → β → State) (l : List β) (s : State)
    (h : ∀ s x, s.MemWf → (f s x).MemWf) (hs : s.MemWf) : (l.foldl f s).MemWf := by
  induction l generalizing s with
  | nil => exact hs
  | cons x r ih => exact ih (f s x) (h s x hs)

theorem State.memWf_rawWrite (s : State) (pl : Place) (k d c : Nat) (h : s.MemWf) : (s.rawWrite pl k d c).MemWf := by
  have h4 := State.memWf_setByte _ (k + 3) (BitVec.ofNat 8 (d / 2 ^ 24)) (State.memWf_setByte _ (k + 2) (BitVec.ofNat 8 (d / 2 ^ 16))
    (State.memWf_setByte _ (k + 1) (BitVec.ofNat 8 (d / 2 ^ 8)) (s.memWf_setByte k (BitVec.ofNat 8 d) h)))
  unfold State.rawWrite
  split <;> exact State.memWf_of_mem (by rfl) h4

/-- A raw read changes only the counter of free values. -/
theorem State.rawRead_mem (s : State) (pl : Place) (k : Nat) : (s.rawRead pl k).1.mem = s.mem := by
  unfold State.rawRead
  split
  · dsimp only; split <;> rfl
  · rfl

theorem State.hardError_mem (s : State) (pl : Place) (loc : Nat) : (s.hardError pl loc).mem = s.mem := by
  unfold State.hardError
  split
  · rfl
  · exact (((((State.EventFrame.refl s).satF _ _ _).setF _ _ _).pulse _).mem :)

theorem State.track_mem (s : State) (pl : Place) (loc : Nat) (w : Bool) : (s.track pl loc w).mem = s.mem := by
  have hw (a : Nat) (v : Word) : (s.wr a v).mem = s.mem := rfl
  unfold State.track
  extract_lets b
  split
  · rfl
  · split
    · extract_lets n
      split
      · split <;> exact hw _ _
      · split
        · split
          · exact (State.hardError_mem _ _ _).trans (hw _ _)
          · exact hw _ _
        · rfl
    · split
      · exact State.satF_mem _ _ _ _
      · exact hw _ _

theorem State.found_mem (s : State) (pl : Place) (o : Nat) (x : Decoded) (d c : Nat) (w : Bool) :
    (s.found pl o x d c w).mem = s.mem := by
  unfold State.found
  split
  · rw [State.track_mem]; exact ((State.EventFrame.refl _).logErr _ _ _ _).mem
  · split
    · exact ((State.EventFrame.refl _).logErr _ _ _ _).mem
    · rfl

/-- Reading a word never changes a stored byte. -/
theorem State.readWord_mem (s : State) (pl : Place) (i : Nat) : (s.readWord pl i).1.mem = s.mem := by
  unfold State.readWord
  split
  · rfl
  · split
    · rfl
    · dsimp only; rw [State.found_mem, State.rawRead_mem]

theorem State.readWords_mem (s : State) (pl : Place) (i n : Nat) : (s.readWords pl i n).1.mem = s.mem := by
  induction n generalizing s i with
  | zero => rfl
  | succ n ih => unfold State.readWords; dsimp only; rw [ih, State.readWord_mem]

/-- Reading bytes of a line never changes a stored byte. -/
theorem State.readLine_mem (s : State) (pl : Place) (o n : Nat) : (s.readLine pl o n).1.mem = s.mem := by
  unfold State.readLine; dsimp only; rw [State.readWords_mem]

theorem State.memWf_openLine (s : State) (pl : Place) (h : s.MemWf) : (s.openLine pl).MemWf := by
  unfold State.openLine
  split
  · split
    · extract_lets k u
      have hu : u.MemWf := State.memWf_foldl _ _ _ (fun s x hs => s.memWf_rawWrite _ _ _ _ hs) h
      clear_value u
      exact hu
    · exact h
  · exact h

theorem State.memWf_writeWord (s : State) (pl : Place) (i : Nat) (bs : List (Option Byte)) (p : Bool) (h : s.MemWf) :
    (s.writeWord pl i bs p).MemWf := by
  have ho := s.memWf_openLine pl h
  unfold State.writeWord
  split
  · exact h
  · dsimp only
    split
    · exact State.memWf_rawWrite _ _ _ _ _ ho
    · have hr : ((s.openLine pl).rawRead pl ((s.openLine pl).storeAt pl + 4 * i)).1.MemWf :=
        State.memWf_of_mem (State.rawRead_mem _ _ _) ho
      split
      · exact State.memWf_rawWrite _ _ _ _ _ hr
      · exact State.memWf_rawWrite _ _ _ _ _ (State.memWf_of_mem (State.found_mem _ _ _ _ _ _ _) hr)

/-- A write to a line keeps the canonical form. -/
theorem State.memWf_writeLine (s : State) (pl : Place) (o : Nat) (bs : List Byte) (pz : List Bool) (h : s.MemWf) :
    (s.writeLine pl o bs pz).MemWf :=
  State.memWf_foldl _ _ _ (fun s j hs => s.memWf_writeWord _ _ _ _ hs) h

/-- The storage arrays after reset list nothing. -/
theorem State.reset_memWf : State.reset.MemWf := rfl

end Sys2Proof.Machine
end

