-- ==== Sys2Proof/Laws/Transfer.lean ====
section
/-!
SUPPORT. What a transfer alone in its bundle does to a core that is ready for it (R116).
-/

namespace Sys2Proof.Machine

theorem Core.takeFills_nil (k : Core) (h : k.fills = []) : k.takeFills = k := by
  cases k; simp only at h; subst h; rfl

/-- A bundle without accesses that meets no cause commits at once. -/
theorem State.giveBundle_commit (s : State) (c : Nat) (ys : List Syl) (hr : s.Ready c)
    (hc : s.cause c (s.core c) (s.core c).pc ys (s.fetchFault c (s.core c) (s.core c).pc ys.length) = none)
    (ha : s.acts c (s.core c) ys = []) :
    ∃ t : State, s.Same t ∧ s.giveBundle c ys = ((t.setCore c { s.core c with pred := ((s.core c).pred.predict (s.core c).pc ys).1 }).commit c
        { addr := (s.core c).pc, syls := ys, todo := [], got := [], stores := [], pushes := [], events := [],
          pr := ((s.core c).pred.predict (s.core c).pc ys).2, sent := false, fixed := false, behind := false }).resume 4 c := by
  obtain ⟨t, h1, h2, h3⟩ := s.giveBundle_ready c ys hr
  have hs : s.Same t := ⟨h1, h2⟩
  refine ⟨t, hs, ?_⟩
  rw [h3, ← State.advance_nil _ _ _ rfl]
  unfold State.startGiven State.start
  rw [t.mispredict_none c (by rw [h2]; exact hr.misp)]
  dsimp only
  rw [t.checkRegs_none c _ (by rw [h2]; exact hr.flips)]
  simp only [h2, hs.fetchFault, hs.cause, hs.acts, ha, hc, Core.fills_nil _ hr.fills]

/-- `k` with other prediction state. -/
def Core.predicted (k : Core) (p : Pred) (m : Option (List Bool × Nat)) : Core := { k with pred := p, misp := m }

/-- Resolving a transfer changes prediction state only. -/
theorem Core.resolve_eq (k : Core) (cu : Cur) (b : Bool) (n f : Word) :
    ∃ p m, k.resolve cu b n f = k.predicted p m := by
  unfold Core.resolve
  split
  · exact ⟨_, _, rfl⟩
  · split <;> exact ⟨_, _, rfl⟩

/-- What a transfer writes: at most its link register. -/
def Wb.link : Option RegNo → Word → Wb
  | .none, _ => Wb.none
  | .some d, r => .toG d ⟨r, false⟩

/-- The last updates of a committing core. -/
def Core.behindBundle (k : Core) (st : List SbEntry) (next : Word) : Core :=
  { k with cur := none, sb := k.sb ++ st, waiting := false, sleeping := false, pc := next }

theorem State.committed_eq (s : State) (c : Nat) (cu : Cur) (w : Wb) (o : Op) (kind : Nat) (hw : s.results c (s.core c) cu = w)
    (hb : bOf cu.syls = some o) (ht : o.transfer = some kind) (he : hasEret cu.syls = false)
    (hm : (s.core c).mtOf cu.syls = none) (hf : (s.core c).flips = []) : ∃ next taken tr, next = (s.core c).nextPc cu.addr cu.syls ∧
      s.committed c cu = (((((((s.core c).writeRegs w).resolve cu taken next (Config.freeWord s.freeTick)).takeFills).countAll
        ((((s.core c).writeRegs w).resolve cu taken next (Config.freeWord s.freeTick)).takeFills).pl false none tr).raise w.flags).dirty w).behindBundle cu.stores next := by
  refine ⟨_, (s.core c).takes o, cu.allEvents (transferEvents kind cu.pr ((s.core c).takes o) ((s.core c).nextPc cu.addr cu.syls)), rfl, ?_⟩
  have hff : ((s.core c).writeRegs w).flips = [] := by rw [Core.writeRegs_eq]; exact hf
  unfold State.committed
  simp only [hw, hb, ht, he, hm, Bool.false_eq_true, if_false, Core.freshRegs_none _ _ hff, flushesPred]
  rfl

theorem Core.writeRegs_pred (k : Core) (p : Pred) (w : Wb) :
    ({ k with pred := p } : Core).writeRegs w = { k.writeRegs w with pred := p } := by
  have hg : ∀ (l : List (RegNo × PW)) (k : Core), l.foldl (fun k p => k.setG p.1 p.2) { k with pred := p }
      = { l.foldl (fun k p => k.setG p.1 p.2) k with pred := p } := by
    intro l
    induction l with
    | nil => intro k; rfl
    | cons x r ih =>
      intro k
      rw [List.foldl_cons, List.foldl_cons, ← ih]
      unfold Core.setG
      split <;> rfl
  have hv : ∀ (l : List (RegNo × VReg)) (k : Core), l.foldl (fun k p => k.setV p.1 p.2) { k with pred := p }
      = { l.foldl (fun k p => k.setV p.1 p.2) k with pred := p } := by
    intro l
    induction l with
    | nil => intro k; rfl
    | cons x r ih => intro k; rw [List.foldl_cons, List.foldl_cons, ← ih]; rfl
  have ha : ∀ (l : List (RegNo × Ream)) (k : Core), l.foldl (fun k p => k.setA p.1 p.2) { k with pred := p }
      = { l.foldl (fun k p => k.setA p.1 p.2) k with pred := p } := by
    intro l
    induction l with
    | nil => intro k; rfl
    | cons x r ih => intro k; rw [List.foldl_cons, List.foldl_cons, ← ih]; rfl
  unfold Core.writeRegs
  dsimp only
  rw [hg, hv, ha]

theorem State.result_transfer (s t : State) (c : Nat) (k : Core) (p : Pred) (r : Word) (op : Op) (kind : Nat)
    (h : op.transfer = some kind) : s.result c { k with pred := p } r [] [] op = t.result c k r [] [] op := by
  cases op <;> first | (cases h; done) | rfl

/-- The commit of a transfer alone in its bundle: at most its link register, the prediction, the event counters and the
pc change. -/
theorem State.commit_transfer (T : State) (c : Nat) (b : Core) (p0 : Pred) (cu : Cur) (op : Op) (kind : Nat) (W : Wb) (target : Word)
    (hTk : T.core c = { b with pred := p0 }) (hsyls : cu.syls = [⟨6, true, op⟩]) (hp : cu.pushes = []) (hst0 : cu.stores = [])
    (hkind : op.transfer = some kind) (hf : op.flushes = false) (he : (op == .eret) = false)
    (hm : (T.core c).mtOf cu.syls = none) (hres : T.results c (T.core c) cu = W) (hnx : (T.core c).nextPc cu.addr cu.syls = target)
    (hW : W.flags = 0 ∧ W.v = [] ∧ W.acc = []) (hfills : b.fills = []) (hflips : b.flips = []) (hcur : b.cur = none)
    (hwait : b.waiting = false) (hsleep : b.sleeping = false) :
    ∃ X p m S, T.commit c cu = (T.setCore c X).tick ∧
      X = { b.writeRegs W with pred := p, misp := m, sys := S, pc := target } ∧ (b.writeRegs W).SysKept X [] := by
  have hb6 : bOf cu.syls = some op := by rw [hsyls]; rfl
  have e2 : T.commit c cu = (T.setCore c (T.committed c cu)).tick := by
    unfold State.commit
    have f1 : (T.core c).fills = [] := by rw [hTk]; exact hfills
    simp only [f1, hp, List.foldl_nil, hb6, Option.isSome_some, if_true]
    rw [hsyls]
    simp only [List.foldl_cons, List.foldl_nil]
    rw [State.iflush_none _ _ _ _ hf]
  have her : hasEret cu.syls = false := by
    rw [hsyls]
    show (op == .eret || false) = false
    rw [he]; rfl
  obtain ⟨next, taken, tr, hnext, hcom⟩ := T.committed_eq c cu W op kind hres hb6 hkind her hm (by rw [hTk]; exact hflips)
  rw [hnx] at hnext
  rw [hnext, hTk] at hcom
  obtain ⟨p, m, hpm⟩ := Core.resolve_eq (({ b with pred := p0 } : Core).writeRegs W) cu taken target (Config.freeWord T.freeTick)
  rw [hpm, Core.writeRegs_pred] at hcom
  obtain ⟨k2, hk2⟩ : ∃ k2 : Core, k2 = ({ b.writeRegs W with pred := p0 } : Core).predicted p m := ⟨_, rfl⟩
  rw [← hk2] at hcom
  have hwe := b.writeRegs_eq W
  obtain ⟨kw, hkw⟩ : ∃ kw, kw = b.writeRegs W := ⟨_, rfl⟩
  rw [← hkw] at hk2 hwe ⊢
  have hfl : k2.fills = [] := by rw [hk2, hwe]; exact hfills
  rw [Core.takeFills_nil _ hfl] at hcom
  have hdr : ∀ q : Core, q.dirty W = q := by
    intro q; unfold Core.dirty; simp [hW.2.1, hW.2.2]
  rw [hW.1, hdr] at hcom
  obtain ⟨kf, hkf⟩ : ∃ kf, kf = (k2.countAll k2.pl false none tr).raise 0 := ⟨_, rfl⟩
  rw [← hkf] at hcom
  have hos : k2.OnlySys kf [] := by
    rw [hkf]; exact (Core.onlySys_countAll _ _ _ _ _ _).trans (Core.onlySys_raise_zero _ _)
  have e3 : kw.cur = none := by rw [hwe]; exact hcur
  have e4 : kw.waiting = false := by rw [hwe]; exact hwait
  have e5 : kw.sleeping = false := by rw [hwe]; exact hsleep
  refine ⟨T.committed c cu, kf.pred, kf.misp, kf.sys, e2, ?_, ?_⟩
  · rw [hcom, hst0]
    unfold Core.predicted at hk2
    unfold Core.behindBundle
    rw [hos.core, hk2, List.append_nil]
    generalize kf.sys = S
    clear hwe hkw hk2 hos hkf hfl hcom e2
    cases kw
    simp only at e3 e4 e5
    subst e3 e4 e5
    rfl
  · intro n hn hq
    rw [hcom]
    refine (hos.sys n hn hq).trans ?_
    rw [hk2]; rfl

/-- A transfer alone in its bundle, given to a ready core. -/
theorem State.ranB_give (s : State) (sl : Slot) (op : Op) (target : Word) (link : Option RegNo) (hr : s.Ready sl.core)
    (hst : sl.stop = true) (ho : op.ok 6 = true) (hc : op.isCop = false)
    (hb : beyond (s.core sl.core).pl op = false) (hy : s.sylCause sl.core (s.core sl.core) 0 op = none)
    (ha : s.sylActs sl.core (s.core sl.core) 0 op = []) (hf : op.flushes = false) (he : (op == .eret) = false)
    (hm : (s.core sl.core).mtOf [⟨6, true, op⟩] = none)
    (hn : (s.core sl.core).nextPc (s.core sl.core).pc [⟨6, true, op⟩] = target)
    (kind : Nat) (hkind : op.transfer = some kind)
    (hw : s.result sl.core (s.core sl.core) ((s.core sl.core).pc + 4) [] [] op = .link link ((s.core sl.core).pc + 4)) :
    s.RanB (s.give sl 6 op) sl.core target link := by
  rw [s.give_stop sl 6 op hr hst]
  obtain ⟨t, hs, e⟩ := s.giveBundle_commit sl.core [⟨6, true, op⟩] hr
    (by have := hr.fetch
        simp only [List.length_cons, List.length_nil, Nat.zero_add, this]
        rw [s.cause_one _ _ _ _ _ hr.watch ho hc hb, hy]) (s.acts_one _ _ _ ha)
  obtain ⟨q, hq⟩ : ∃ q : Pred × Predn, q = (s.core sl.core).pred.predict (s.core sl.core).pc [⟨6, true, op⟩] := ⟨_, rfl⟩
  rw [← hq] at e
  obtain ⟨T, hT⟩ : ∃ T : State, T = t.setCore sl.core { s.core sl.core with pred := q.1 } := ⟨_, rfl⟩
  rw [← hT] at e
  have hTk : T.core sl.core = { s.core sl.core with pred := q.1 } := by rw [hT]; exact State.core_setCore_self _ _ _
  obtain ⟨W, hW⟩ : ∃ W : Wb, W = Wb.link link ((s.core sl.core).pc + 4) := ⟨_, rfl⟩
  have hWf : W.flags = 0 ∧ W.v = [] ∧ W.acc = [] := by rw [hW]; cases link <;> exact ⟨rfl, rfl, rfl⟩
  rw [← hW] at hw
  obtain ⟨X, p, m, S, hX, hXe, hXs⟩ := T.commit_transfer sl.core (s.core sl.core) q.1
    { addr := (s.core sl.core).pc, syls := [⟨6, true, op⟩], todo := [], got := [], stores := [], pushes := [], events := [],
      pr := q.2, sent := false, fixed := false, behind := false } op kind W target hTk rfl rfl rfl hkind hf he
    (by rw [hTk, ← hm]; rfl)
    (by
      show Wb.none.also _ = _
      rw [Wb.none_also, ← hw, hTk]
      exact State.result_transfer _ _ _ _ _ _ _ kind hkind)
    (by rw [hTk, ← hn]; rfl) hWf hr.fills hr.flips hr.cur hr.waiting hr.sleeping
  rw [hX] at e
  clear hX hq
  have hcore : (T.setCore sl.core X).tick.core sl.core = X := State.core_setCore_self _ _ _
  have hXk := hXe
  rw [(s.core sl.core).writeRegs_eq W] at hXk
  rw [e, State.resume_idle]
  · refine ⟨?_, ?_, ?_, ?_, ?_⟩
    · rw [hT, hs.rest]; rfl
    · intro d hd
      show (T.setCore sl.core X).core d = _
      rw [State.core_setCore, if_neg hd, hT, State.core_setCore, if_neg hd, hs.cores]
    · rw [hcore, hXk]
      have : ((s.core sl.core).writeRegs W).v = (s.core sl.core).v ∧ ((s.core sl.core).writeRegs W).acc = (s.core sl.core).acc := by
        rw [hW]
        cases link with
        | none => exact ⟨rfl, rfl⟩
        | some d =>
          show ((s.core sl.core).setG d _).v = _ ∧ ((s.core sl.core).setG d _).acc = _
          unfold Core.setG
          split <;> exact ⟨rfl, rfl⟩
      rw [this.1, this.2]
    · intro r
      rw [hcore, hXe]
      show ((s.core sl.core).writeRegs W).rg r = _
      rw [hW]
      cases link with
      | none => rfl
      | some d =>
        show ((s.core sl.core).setG d _).rg r = _
        rw [Core.rg_setG]
        by_cases h : r = d
        · subst h
          by_cases h0 : r = 0
          · subst h0; rw [if_pos rfl, if_pos rfl, if_neg (fun e => e.2 rfl)]; unfold Core.rg; rw [if_pos rfl]
          · rw [if_pos rfl, if_neg h0, if_pos ⟨rfl, h0⟩]
        · have : ¬ (some d = some r ∧ r ≠ 0) := fun e => h (Option.some.inj e.1).symm
          rw [if_neg h, if_neg this]
    · intro n hn hp
      rw [hcore]
      refine (hXs n hn hp).trans ?_
      rw [(s.core sl.core).writeRegs_eq W]; rfl
  · rw [hcore, hXk]; exact hr.running
  · show State.coreOn _ _ = true
    have : (T.setCore sl.core X).tick.coreOn sl.core = s.coreOn sl.core := by
      rw [hT, hs.rest]; rfl
    rw [this]; exact hr.on
  · rw [hcore, hXk]; exact hr.cur
  · rw [hcore, hXk]; exact hr.late
  · rw [hcore, hXk]; exact hr.bundles
end Sys2Proof.Machine
end

