-- ==== Sys2Proof/Tests/Slice0.lean ====
section
/-!
SUPPORT. The author's own tests: an ill-formed term for each check of WellFormed, the words of R75's table, and for the
statements with hypotheses a state and operands that meet them. Expected values are those of the spec's tables and rules.
-/

set_option maxRecDepth 20000
set_option exponentiation.threshold 5000

namespace Sys2Proof.Tests

open Sys2Proof Sys2Proof.Machine

/-! ## Ill-formed commands -/

/-- A slot of service core 0, alone in its bundle. -/
def sv0 : Slot := ⟨0x1000, false, true⟩
/-- A request to this device with no data. -/
def pk0 : Packet := ⟨0, 0, 2, false, false, 0, 0, 0, 0, 0, false, [], [], []⟩

theorem test_wf_accepts : Instr.wf (.add sv0 3 1 (.reg 2)) = true := by decide
theorem test_wf_core : Instr.wf (.add ⟨0x1002, false, true⟩ 3 1 (.reg 2)) = false := by decide
theorem test_wf_unit : Instr.wf (.jr ⟨0, true, true⟩ 1) = false := by decide
theorem test_wf_words : Instr.wf (.illegalBundle 0 [0, 0, 0, 0, 0, 0, 0, 0, 0]) = false := by decide
theorem test_wf_tile : Instr.wf (.napNow 136) = false := by decide
theorem test_wf_ltile : Instr.wf (.stale 128 0) = false := by decide
theorem test_wf_queue : Instr.wf (.stale 127 32) = false := by decide
theorem test_wf_die : Instr.wf (.memFill 8) = false := by decide
theorem test_wf_link : Instr.wf (.rxLock 144) = false := by decide
theorem test_wf_slice : Instr.wf (.oldPktsDrained 4) = false := by decide
theorem test_wf_vc : Instr.wf (.packetRoute 3 8 pk0) = false := by decide
theorem test_wf_domain : Instr.wf (.levelRampStart 303) = false := by decide
theorem test_wf_link_domain : Instr.wf (.domainOffRequest 152) = false := by decide
theorem test_wf_context : Instr.wf (.collCombine 64) = false := by decide
theorem test_wf_unit_repair : Instr.wf (.beatPass (.tile 136)) = false := by decide
theorem test_wf_controller_repair : Instr.wf (.beatPass (.mc 8)) = false := by decide
theorem test_wf_window : Instr.wf (.calStep (.link 144)) = false := by decide
theorem test_wf_crossing : Instr.wf (.hfrAck (.mc 7) 12) = false := by decide
theorem test_wf_segment : Instr.wf (.segErase 135 16) = false := by decide
theorem test_wf_region : Instr.wf (.spareMapWrite 0 0 8 0) = false := by decide
theorem test_wf_remap : Instr.wf (.dramRemapWrite 0 1024 0) = false := by decide
theorem test_wf_recurrence : Instr.wf (.recEntryFree (.tile 0) 32) = false := by decide
theorem test_wf_convert : Instr.wf (.dramCodeConvert 512 false) = false := by decide
theorem test_wf_source : Instr.wf (.eventArrival 7712) = false := by decide
theorem test_wf_pending : Instr.wf (.evPendSet 128 0) = false := by decide
theorem test_wf_hub_core : Instr.wf (.evClaim 2048) = false := by decide
theorem test_wf_aon_setting : Instr.wf (.aonSettingWrite (.svc 0) 0xC050300200 0) = false := by decide
theorem test_wf_device : Instr.wf (.gatherQabort 0 65536 0 0) = false := by decide
theorem test_wf_extent : Instr.wf (.extentFull 256) = false := by decide
theorem test_wf_granule : Instr.wf (.preimageCopy 67108864) = false := by decide
theorem test_wf_enum : Instr.wf (.chainEnum 256) = false := by decide
theorem test_wf_slot_watcher : Instr.wf (.deviceWake 64 false) = false := by decide
theorem test_wf_thermal_die : Instr.wf (.thermalStep 12 [] false) = false := by decide
theorem test_wf_sensor : Instr.wf (.thermalTrip 256) = false := by decide
theorem test_wf_tile_core : Instr.wf (.tileCoreStart 0 16) = false := by decide
theorem test_wf_outbound : Instr.wf (.pcieOutWindow (.svc 0) 4 false ⟨0, false⟩) = false := by decide
theorem test_wf_debug_code : Instr.wf (.debugAccess 0xC0 0) = false := by decide

/-! ## The words of R75's table -/

theorem test_word_add : decodeSyl 0x00030420 = ⟨0, false, .alu .add 3 1 (.reg 2)⟩ := by decide
theorem test_word_ld64 : decodeSyl 0x29841410 = ⟨2, false, .ld .ld64 4 5 (.imm 16)⟩ := by decide
theorem test_word_vfma : decodeSyl 0x40000420 = ⟨4, false, .vfma 0 1 2 false false .fp64⟩ := by decide
theorem test_word_bnz : decodeSyl 0xE8C3FFFC = ⟨6, true, .bz true 3 0xFFFC⟩ := by decide
theorem test_word_vld : decodeSyl 0x23021870 = ⟨2, false, .vld 2 6 (.reg 7)⟩ := by decide
theorem test_word_fma4 : decodeSyl 0xFC810831 = ⟨7, true, .rmFma4 1 2 3 true⟩ := by decide
theorem test_word_nop : decodeSyl 0xF0000000 = ⟨7, true, .nop⟩ := by decide
theorem test_word_mul : decodeSyl 0x96870420 = ⟨1, true, .alu3 .mul 7 1 2⟩ := by decide
theorem test_word_mul_in_i0 : illegalAt [decodeSyl 0x86870420] 0 (decodeSyl 0x86870420) = true := by decide
theorem test_word_unit_order :
    illegalAt [decodeSyl 0x10030420, decodeSyl 0x80030420] 0 (decodeSyl 0x10030420) = false ∧
    illegalAt [decodeSyl 0x10030420, decodeSyl 0x80030420] 1 (decodeSyl 0x80030420) = true := by decide
theorem test_word_reserved_f : (decodeSyl 0x80030421).op = .bad 0x0030421 := by decide
theorem test_word_vector_40 : illegalAt [decodeSyl 0xB3281400] 0 (decodeSyl 0xB3281400) = true := by decide
theorem test_word_cop : decodeSyl 0xFE010000 = ⟨7, true, .cop 0 0x010000⟩ := by decide
theorem test_table_word : decodeTableWord 32 0xF0000000 = none ∧ State.reset.withFetchWord 32 0 = State.reset := ⟨rfl, rfl⟩

/-! ## A core that is ready -/

/-- Service core 0, running in the boot ROM. -/
def kReady : Core := { Core.reset with running := true, pc := 0xF100000000 }
/-- The service complex is on and its core 0 is `k`. -/
def withK (k : Core) : State := ({ State.reset with cores := [(0x1000, k)] } : State).setDom 301 1
/-- The same with the ready core. -/
def w : State := withK kReady

theorem ready : w.Ready 0x1000 where
  running := by decide
  on := by decide
  cur := by decide
  late := by decide
  bundles := by decide
  forming := by decide
  fills := by decide
  waiting := by decide
  sleeping := by decide
  woken := by decide
  misp := by decide
  flips := by decide
  noInt := by decide
  fetch := by decide
  watch := by decide

/-- What a command leaves. -/
def after (i : Instr) (s : State) : State :=
  match exec i s with
  | .next t => t
  | _ => s

/-- The ready core with general registers 1 to 3 holding `a`, `b`, `d`. -/
def kG (a b d : PW) : Core := { kReady with g := ((kReady.g.set 1 a).set 2 b).set 3 d }
/-- Its general register 3 after a command. -/
def g3 (i : Instr) (a b d : PW) : PW := ((after i (withK (kG a b d))).core 0x1000).rg 3

/-- The hypotheses of every statement about one bundle of a core: IntArithmetic, ShiftsAndRotate, Comparisons,
SelectFieldsCountsConstants, BranchesAndJumps, SystemRegisterReads, SystemRegisterWrites, ExceptionReturn and the others
with no more. -/
theorem witness_ready : w.Ready sv0.core ∧ sv0.stop = true ∧ (w.core sv0.core).pl < 3 := ⟨ready, rfl, by decide⟩

theorem test_add : g3 (.add sv0 3 1 (.imm 0x3FF)) ⟨0, true⟩ ⟨0, false⟩ ⟨0, false⟩ = ⟨0xFFFFFFFFFFFFFFFF, true⟩ := by decide
theorem test_sub : g3 (.sub sv0 3 1 (.reg 2)) ⟨1, false⟩ ⟨2, false⟩ ⟨0, false⟩ = ⟨0xFFFFFFFFFFFFFFFF, false⟩ := by decide
theorem test_andn : g3 (.andn sv0 3 1 (.reg 2)) ⟨7, false⟩ ⟨5, false⟩ ⟨0, false⟩ = ⟨2, false⟩ := by decide
theorem test_min : g3 (.min sv0 3 1 (.imm 0x200)) ⟨1, false⟩ ⟨0, false⟩ ⟨0, false⟩ = ⟨0xFFFFFFFFFFFFFE00, false⟩ := by decide
theorem test_minu : g3 (.minu sv0 3 1 (.imm 0x200)) ⟨1, false⟩ ⟨0, false⟩ ⟨0, false⟩ = ⟨1, false⟩ := by decide
theorem test_shl_64 : g3 (.shl sv0 3 1 (.imm 64)) ⟨1, false⟩ ⟨0, false⟩ ⟨0, false⟩ = ⟨0, false⟩ := by decide
theorem test_sar_200 : g3 (.sar sv0 3 1 (.reg 2)) ⟨0x8000000000000000, false⟩ ⟨0xFC8, false⟩ ⟨0, false⟩ = ⟨0xFFFFFFFFFFFFFFFF, false⟩ := by
  decide
theorem test_rol : g3 (.rol sv0 3 1 (.imm 68)) ⟨0xF000000000000001, false⟩ ⟨0, false⟩ ⟨0, false⟩ = ⟨0x1F, false⟩ := by decide
theorem test_cmpltu : g3 (.cmpltu sv0 3 1 (.imm 0x3FF)) ⟨5, false⟩ ⟨0, false⟩ ⟨0, false⟩ = ⟨1, false⟩ := by decide
theorem test_cmple : g3 (.cmple sv0 3 1 (.reg 2)) ⟨5, false⟩ ⟨5, false⟩ ⟨0, false⟩ = ⟨1, false⟩ := by decide
theorem test_csel : g3 (.csel sv0 3 1 (.reg 2)) ⟨0, false⟩ ⟨5, false⟩ ⟨9, true⟩ = ⟨9, true⟩ := by decide
theorem test_bfx : g3 (.bfx sv0 3 1 2) ⟨0x8000000000000000, false⟩ ⟨0x0238, false⟩ ⟨0, false⟩ = ⟨0, false⟩ ∧
    g3 (.bfx sv0 3 1 2) ⟨0x8000000000000000, false⟩ ⟨0x083C, false⟩ ⟨0, false⟩ = ⟨8, false⟩ := by decide
theorem test_bfi : g3 (.bfi sv0 3 1 2) ⟨0xFF, false⟩ ⟨0x0408, false⟩ ⟨0, false⟩ = ⟨0xF00, false⟩ := by decide
theorem test_clz : g3 (.clz sv0 3 1) ⟨1, false⟩ ⟨0, false⟩ ⟨0, false⟩ = ⟨63, false⟩ := by decide
theorem test_bperm : g3 (.bperm sv0 3 1 2) ⟨0x1122334455667788, false⟩ ⟨0x000000F8, false⟩ ⟨0xAABBCCDDEEFF0102, false⟩ =
    ⟨0x888888888888AA02, false⟩ := by decide
theorem test_ldih : g3 (.ldih sv0 3 0x8000) ⟨0, false⟩ ⟨0, false⟩ ⟨0xFFFF000000000001, false⟩ = ⟨0x0000000000018000, false⟩ := by
  decide
theorem test_g0 : ((after (.ldil sv0 0 5) w).core 0x1000).rg 0 = ⟨0, false⟩ := by decide

/-- A slot of unit I1. -/
def sv1 : Slot := ⟨0x1000, true, true⟩
theorem witness_MultiplyDivide : w.Ready sv1.core ∧ sv1.stop = true ∧ sv1.odd = true ∧ sv0.odd = false := ⟨ready, rfl, rfl, rfl⟩
theorem test_mulh : g3 (.mulh sv1 3 1 2) ⟨0xFFFFFFFFFFFFFFFF, false⟩ ⟨1, false⟩ ⟨0, false⟩ = ⟨0xFFFFFFFFFFFFFFFF, false⟩ := by decide
theorem test_div_zero : g3 (.div sv1 3 1 2) ⟨7, false⟩ ⟨0, false⟩ ⟨0, false⟩ = ⟨0xFFFFFFFFFFFFFFFF, false⟩ ∧
    g3 (.remu sv1 3 1 2) ⟨7, false⟩ ⟨0, false⟩ ⟨0, false⟩ = ⟨7, false⟩ := by decide
theorem test_div_edge : g3 (.div sv1 3 1 2) ⟨0x8000000000000000, false⟩ ⟨0xFFFFFFFFFFFFFFFF, false⟩ ⟨0, false⟩ =
      ⟨0x8000000000000000, false⟩ ∧
    g3 (.rem sv1 3 1 2) ⟨0x8000000000000000, false⟩ ⟨0xFFFFFFFFFFFFFFFF, false⟩ ⟨0, false⟩ = ⟨0, false⟩ := by decide

/-- A bundle that traps leaves its cause in MCAUSE. -/
def mcause (i : Instr) (a : PW) : Nat := (((after i (withK (kG a ⟨0, false⟩ ⟨0, false⟩))).core 0x1000).sysRd 0x021).toNat % 32
theorem test_mul_i0 : mcause (.mul sv0 3 1 2) ⟨0, false⟩ = 1 := by decide
theorem test_jr_odd : mcause (.jr sv0 1) ⟨2, false⟩ = 4 ∧ mcause (.jr sv0 1) ⟨2, true⟩ = 9 := by decide
theorem test_call : ((after (.call sv0 0x3FFFFF) w).core 0x1000).pc = 0xF0FFFFFFFC ∧
    ((after (.call sv0 0x3FFFFF) w).core 0x1000).rg 63 = ⟨0xF100000004, false⟩ := by decide
theorem test_callr_self : ((after (.callr sv0 1 1) (withK (kG ⟨0xF100000100, false⟩ ⟨0, false⟩ ⟨0, false⟩))).core 0x1000).pc = 0xF100000100 := by
  decide
theorem test_bz : ((after (.bz sv0 0 4) w).core 0x1000).pc = 0xF100000010 := by decide
theorem test_syscall : mcause (.syscall sv0 0x123) ⟨0, false⟩ = 0xE ∧ mcause (.breakpoint sv0 0) ⟨0, false⟩ = 0xD := by decide
theorem test_cop : mcause (.copAbsent sv0 0 0x10000) ⟨0, false⟩ = 2 := by decide
theorem test_mepc : ((after (.syscall sv0 0x012) w).core 0x1000).sysRd 0x020 = 0xF100000000 ∧
    ((after (.syscall sv0 0x012) w).core 0x1000).sysRd 0x023 = 0xF0C00120 := by decide
theorem test_mf_feat : g3 (.sysMf sv0 3 0x001) ⟨0, false⟩ ⟨0, false⟩ ⟨0, false⟩ = ⟨0x02000000FF0840E0, false⟩ := by decide
theorem test_mt_scratch : ((after (.sysMt sv0 1 0x025) (withK (kG ⟨0x1234, false⟩ ⟨0, false⟩ ⟨0, false⟩))).core 0x1000).sysRd 0x025 = 0x1234 := by
  decide
theorem test_eret : ((after (.eret sv0) (withK { kReady with sys := [(0x010, 0x402), (0x020, 0x1000)] })).core 0x1000).pc = 0x1000 := by
  decide

/-- TrapInstructionsAndIllegalBundles: the two words of R75's row of wrong order; the other rows need a ready core only. -/
theorem witness_TrapInstructionsAndIllegalBundles :
    w.Ready 0x1000 ∧ ([0x10030420#32].all fun x => x.getLsbD 31 == false) = true ∧ (0x80030420#32).getLsbD 31 = true ∧
    ([0x10030420#32] ++ [0x80030420#32])[1]? = some 0x80030420#32 ∧
    firstIllegal (([0x10030420#32] ++ [0x80030420#32]).map decodeSyl) = some 1 ∧
    w.fetchFault 0x1000 (w.core 0x1000) (w.core 0x1000).pc 2 = none ∧
    (w.core 0x1000).watchFetch (w.core 0x1000).pc 2 = false := ⟨ready, by decide⟩
theorem test_mtrap : mcause (.mtrap sv0 0x123) ⟨0, false⟩ = 0xE := by decide
theorem test_unit_order : ((after (.illegalBundle 0x1000 [0x10030420, 0x80030420]) w).core 0x1000).sysRd 0x021 = 0x1201 ∧
    ((after (.illegalBundle 0x1000 [0x10030420, 0x80030420]) w).core 0x1000).sysRd 0x023 = 0x80030420 := by decide

/-- InterruptTaken: an overflow of counter 0 that monitor level with IE takes; nothing pending is the other clause. -/
def kOvf : Core := { kReady with sys := [(0x010, 6), (0x024, 0xF100008000), (0x026, 0x20000), (0x070, 0xC0000000)] }
/-- The same in a bundle that has sent nothing and may be abandoned. -/
def kOvfCur : Core := { kOvf with cur := some ⟨0xF100000000, [], [], [], [], [], [], ⟨0, false, false, [], 0⟩, false, false, false⟩ }
theorem witness_InterruptTaken :
    ((withK kOvf).core 0x1000).running = true ∧ (withK kOvf).coreOn 0x1000 = true ∧ ((withK kOvf).core 0x1000).cur = none ∧
    (∃ cu, ((withK kOvfCur).core 0x1000).cur = some cu ∧ cu.fixed = false) ∧
    ((withK kOvf).core 0x1000).waiting = false ∧ ((withK kOvf).core 0x1000).sleeping = false ∧ ((withK kOvf).core 0x1000).pl < 3 ∧
    (withK kOvf).eventPending 0x1000 = false ∧ ((withK kOvf).core 0x1000).sf 0x010 fIE = 1 ∧ ((withK kOvf).core 0x1000).pl = 2 := by
  decide
theorem test_interrupt : ((after (.interruptEntry 0x1000) (withK kOvf)).core 0x1000).pc = 0xF100008400 ∧
    ((after (.interruptEntry 0x1000) (withK kOvf)).core 0x1000).sysRd 0x021 = 0x8000000000000002 ∧
    ((after (.interruptEntry 0x1000) w).core 0x1000).pc = 0xF100000000 := by decide

/-! ## Vector and accumulator rows -/

/-- The ready core with vector registers 1 and 2 holding `a` and `b`. -/
def kV (a b : VReg) : Core := { kReady with v := (kReady.v.set 1 a).set 2 b }
/-- Its vector register 3 after a command. -/
def v3 (i : Instr) (a b : VReg) : VReg := ((after i (withK (kV a b))).core 0x1000).vr 3

theorem witness_VectorIntegerAndMoves : w.Ready sv0.core ∧ sv0.stop = true ∧ (31#6).toNat < 32 ∧ tyWidth .fp16 * (31#6).toNat < 512 :=
  ⟨ready, by decide⟩
theorem test_viadd : v3 (.viadd sv0 3 1 2 2) ⟨0x1FFFF, 2⟩ ⟨1, 4⟩ = ⟨0x10000, 6⟩ := by decide
theorem test_vpermb : v3 (.vpermb sv0 3 1 2) ⟨0xAB00, 1⟩ ⟨0x8001, 0⟩ = ⟨0xAB, 0xFF⟩ := by decide
theorem test_vbcast : (v3 (.vbcast sv0 3 0 .fp16) ⟨1, 0⟩ ⟨0, 0⟩) = ⟨0, 0⟩ := by decide
theorem test_vfadd : v3 (.vfadd sv0 3 1 2 .fp64) ⟨0x3FF0000000000000, 0⟩ ⟨0x3FF0000000000000, 0⟩ = ⟨0x4000000000000000, 0⟩ := by decide
theorem test_vcmp_unord : v3 (.vcmp sv0 3 1 2 3 .fp16) ⟨0x7E00, 0⟩ ⟨0, 0⟩ = ⟨0xFFFF, 0⟩ := by decide
theorem test_vcvt : v3 (.vcvt sv0 3 1 0 4) ⟨0x4014000000000000, 0⟩ ⟨0, 0⟩ = ⟨5, 0⟩ := by decide
theorem witness_RoundingDirections : (3 : Nat) < 5 ∧ 0x7BFF < 2 ^ tyWidth .fp16 ∧ (fmtOf .fp16).mag 0x7BFF < (fmtOf .fp16).inf := by
  decide
theorem witness_ReamAccumulation : w.Ready sv0.core ∧ sv0.stop = true ∧ (3#6).toNat < 4 ∧ (31#6).toNat < 32 := ⟨ready, by decide⟩
theorem test_rm_addv :
    ((after (.rmAddv sv0 2 1) (withK (kV ⟨0x3FF0000000000000, 0⟩ ⟨0, 0⟩))).core 0x1000).ac 2 = { Ream.clear with value := BitVec.ofNat 4288 (2 ^ 2176) } := by
  decide
theorem test_rm_rnd :
    g3 (.rmRnd sv0 3 0 0) ⟨0, false⟩ ⟨0, false⟩ ⟨0, false⟩ = ⟨0, false⟩ ∧
    g3 (.rmRnd sv0 3 0 3) ⟨0, false⟩ ⟨0, false⟩ ⟨0, false⟩ = ⟨0x8000000000000000, false⟩ := by decide
theorem test_rm_stat : g3 (.rmStat sv0 3 0) ⟨0, false⟩ ⟨0, false⟩ ⟨0, false⟩ = ⟨0x00FF0080, false⟩ := by decide

/-! ## Loads, stores and translation -/

/-- Line `n` of L1D, its byte 0 being `b`. -/
def lineB (n : Nat) (b : Byte) : CLine := ⟨n, false, b :: List.replicate 59 0 ++ [1, 2, 3, 4], List.replicate 16 false, []⟩
/-- The ready core with address `va` in g1, and lines 4 and 5 in L1D. -/
def kL (va : Word) : Core := { kG ⟨va, false⟩ ⟨0, false⟩ ⟨0x55, false⟩ with l1d := [lineB 4 0x80, lineB 5 7] }
/-- The lines by the offset of a part of an access at 0x13C. -/
def xL (o : Nat) : CLine := if o < 4 then lineB 4 0x80 else lineB 5 7

theorem kL_pl (k : Word) : ((withK (kL k)).core 0x1000).pl = 2 := by
  rw [show (withK (kL k)).core 0x1000 = kL k from rfl]
  simp only [Core.pl, Core.sf, Core.sysRd, kL, kG, kReady]
  decide
theorem open_at (va : Word) (c : Want) (k : Word) (h : ((withK (kL k)).core 0x1000).walk va = some (va.toNat, none))
    (hl : (withK (kL k)).isLocal va.toNat = true) (hr : (withK (kL k)).region 0x1000 va.toNat = .dram) :
    (withK (kL k)).Open 0x1000 c va va.toNat .dram where
  walk := ⟨none, h, rfl⟩
  own := hl
  region := hr
  watch := .inl (by simp only [kL_pl])
  cached := by
    intro _ g e he
    rw [h] at he
    cases he
    decide

/-- LoadsFromHeldLines: eight bytes in two lines that L1D holds; the last byte of a line and the first of the next. -/
theorem witness_Hits : (withK (kL 0x13C)).Hits 0x1000 0x13C 8 (fun o => 0x13C + o) xL where
  opened := by
    intro p hp
    rw [show lineCut 0x13C 8 = [(0, 4), (4, 4)] by decide] at hp
    simp only [List.mem_cons, List.not_mem_nil, or_false] at hp
    rcases hp with rfl | rfl
    · exact open_at 0x13C .load _ (by decide) (by decide) (by decide)
    · exact open_at 0x140 .load _ (by decide) (by decide) (by decide)
  clear := by
    intro p _ e he
    rw [show ((withK (kL 0x13C)).core 0x1000).sb = [] by decide] at he
    cases he
  held := by decide
  whole := by decide
  sound := by decide
  sets := by decide
theorem test_ld64_two_lines : ((after (.ld64 sv0 3 1 (.imm 0)) (withK (kL 0x13C))).core 0x1000).rg 3 = ⟨0x0000000704030201, false⟩ := by decide
theorem test_ld8 : ((after (.ld8 sv0 3 1 (.imm 0)) (withK (kL 0x100))).core 0x1000).rg 3 = ⟨0xFFFFFFFFFFFFFF80, false⟩ := by decide

/-- Memory controller 0 and its fabric are on, it is READY, and lines 0 and 1 of DRAM have been written with zeros. -/
def wM (k : Core) : State :=
  { (((withK k).setDom 136 1).setDom 144 1).setF (MC_STATE.adr 0) MC_STATE.STATE 2 with
    chk := (List.range 32).map fun i => (i, 1) }
/-- LoadMissBringsLine: line 0 of DRAM answers, and L1D does not hold it. -/
theorem witness_LoadMissBringsLine :
    let r := (wM (kL 0x10)).memRead (coreWho 0x1000) true (0x10 / 64 * 64) 64
    r.ans = .ok ∧ r.bytes.length = 64 ∧ r.st.core 0x1000 = (wM (kL 0x10)).core 0x1000 ∧
    (∀ x ∈ ((wM (kL 0x10)).core 0x1000).l1d, x.line ≠ 0x10 % 2 ^ 40 / 64) ∧ ((wM (kL 0x10)).core 0x1000).sb = [] ∧
    ((wM (kL 0x10)).core 0x1000).walk 0x10 = some (0x10, none) ∧ (wM (kL 0x10)).isLocal 0x10 = true ∧
    (wM (kL 0x10)).region 0x1000 0x10 = .dram := by decide
/-- Its second clause: the store buffer holds the bytes. -/
def kSb : Core := { kL 0x10 with sb := [⟨0x10, [1, 2, 3, 4, 5, 6, 7, 8], [false, true], .cacheable, []⟩] }
theorem witness_LoadMiss_forwarded : ((withK kSb).core 0x1000).sb.filter (fun e => overlaps 0x10 8 e.addr e.bytes.length) =
    [⟨0x10, [1, 2, 3, 4, 5, 6, 7, 8], [false, true], .cacheable, []⟩] := by decide
theorem test_forward : ((after (.ld64 sv0 3 1 (.imm 0)) (withK kSb)).core 0x1000).rg 3 = ⟨0x0807060504030201, true⟩ := by decide

/-- StoresWaitInStoreBuffer: a store across two lines with room for both entries. -/
theorem witness_StoresWaitInStoreBuffer : (withK (kL 0x13C)).Posts 0x1000 0x13C 8 (fun o => 0x13C + o) .dram where
  region := .inl rfl
  opened := by
    intro p hp
    rw [show lineCut 0x13C 8 = [(0, 4), (4, 4)] by decide] at hp
    simp only [List.mem_cons, List.not_mem_nil, or_false] at hp
    rcases hp with rfl | rfl
    · exact open_at 0x13C .store _ (by decide) (by decide) (by decide)
    · exact open_at 0x140 .store _ (by decide) (by decide) (by decide)
  room := by decide
theorem test_st64 : ((after (.st64 sv0 3 1 (.imm 0)) (withK (kL 0x13C))).core 0x1000).sb =
    [⟨0x13C, [0x55, 0, 0, 0], [false], .cacheable, []⟩, ⟨0x140, [0, 0, 0, 0], [false], .cacheable, []⟩] := by decide

/-- StoreDrainPerformsEntry: entry 1 overlaps no older one and memory takes it; the entry at 0x12 overlaps that at 0x10. -/
def kDrain : Core :=
  { kReady with sb := [⟨0x10, [1, 2, 3, 4], [false], .cacheable, []⟩, ⟨0x40, [9], [false], .cacheable, []⟩, ⟨0x12, [5], [false], .cacheable, []⟩],
                l1d := [lineB 1 8] }
theorem witness_StoreDrainPerformsEntry :
    let r := (wM kDrain).memWrite (coreWho 0x1000) true (0x40 % 2 ^ 40) [9] [false]
    r.ans = .ok ∧ r.bytes = [] ∧ r.poison = [] ∧ r.st.core 0x1000 = (wM kDrain).core 0x1000 ∧
    ((wM kDrain).core 0x1000).late = [] ∧ ((wM kDrain).core 0x1000).bundles = [] ∧
    (∀ o ∈ ((wM kDrain).core 0x1000).sb.take 1, 0x40 + 1 ≤ o.addr ∨ o.addr + o.bytes.length ≤ 0x40) ∧
    (∃ o ∈ ((wM kDrain).core 0x1000).sb.take 2, o.addr < 0x12 + 1 ∧ 0x12 < o.addr + o.bytes.length) := by decide
/-- Memory refuses the write where the controller is OFF; a remote entry finds every request slot taken. -/
theorem witness_StoreDrain_refused :
    let r := (withK kDrain).memWrite (coreWho 0x1000) true (0x40 % 2 ^ 40) [9] [false]
    r.ans ≠ .ok ∧ r.ans ≠ .held ∧ r.st.core 0x1000 = (withK kDrain).core 0x1000 := by decide
theorem test_drain : ((after (.storeDrain 0x1000 1) (wM kDrain)).core 0x1000).sb.map (·.addr) = [0x10, 0x12] ∧
    ((after (.storeDrain 0x1000 1) (wM kDrain)).core 0x1000).l1d = [lineB 1 9] ∧
    (after (.storeDrain 0x1000 2) (wM kDrain)).core 0x1000 = (wM kDrain).core 0x1000 := by decide

/-- AtomicsAndPrefetch: memory answers the read and takes what AMOADD makes of it. -/
def kA : Core := kG ⟨0x40, false⟩ ⟨5, false⟩ ⟨0, false⟩
theorem witness_AtomicsAndPrefetch :
    let r := (wM kA).memRead (coreWho 0x1000) true 0x40 8
    let q := r.st.memWrite (coreWho 0x1000) true 0x40 [5, 0, 0, 0, 0, 0, 0, 0] [false, false]
    r.ans = .ok ∧ r.bytes = List.replicate 8 0 ∧ r.poison.any id = false ∧ q.ans = .ok ∧ q.bytes = [] ∧ q.poison = [] ∧
    q.st.core 0x1000 = (wM kA).core 0x1000 ∧ (wM kA).couch.pend.contains (0x40 % 2 ^ 40 / 65536) = false ∧
    (wM kA).region 0x1000 0x40 = .dram ∧ (1#6).toNat < 2 := by decide
theorem witness_Atomics_open : (wM kA).Allowed 0x1000 .amo 0x40 0x40 .dram ∧ (wM kA).DrainedFor (wM kA) 0x1000 0x40 8 :=
  ⟨⟨⟨none, by decide, rfl⟩, by decide, by decide, .inl (by decide)⟩,
   ⟨rfl, (by intro e he; rw [show ((wM kA).core 0x1000).sb = [] by decide] at he; cases he), rfl, rfl⟩⟩
/-- AtomicTraps: the flash window, a misaligned address, M1. -/
theorem witness_AtomicTraps : (wM kA).Allowed 0x1000 .amo 0xE000000000 0xE000000000 .flash ∧ (0x44#64).toNat % 8 ≠ 0 ∧ sv1.odd = true :=
  ⟨⟨⟨none, by decide, rfl⟩, by decide, by decide, .inl (by decide)⟩, by decide⟩
/-- PREF: a line that L1D holds; one that it does not hold. -/
theorem witness_Pref : (withK (kL 0x100)).Open 0x1000 .load 0x100 0x100 .dram ∧ (withK (kL 0x400)).Open 0x1000 .load 0x400 0x400 .dram ∧
    (kL 0x100).l1d.find? (fun y => y.line == 0x100 % 2 ^ 40 / 64) = some (lineB 4 0x80) ∧ (lineB 4 0x80).flips = [] ∧
    (∀ x ∈ (kL 0x400).l1d, x.line ≠ 0x400 % 2 ^ 40 / 64) :=
  ⟨open_at 0x100 .load 0x100 (by decide) (by decide) (by decide), open_at 0x400 .load 0x400 (by decide) (by decide) (by decide),
   by decide⟩
theorem test_pref : ((after (.pref sv0 0 1 (.imm 0)) (withK (kL 0x140))).core 0x1000).l1d.map (·.line) = [5, 4] := by decide
theorem test_amoadd : ((after (.amoadd sv0 3 1 2) (wM kA)).core 0x1000).rg 3 = ⟨0, false⟩ ∧
    ((after (.amoadd sv0 3 1 2) (wM kA)).memRead (coreWho 0x1000) true 0x40 8).bytes = [5, 0, 0, 0, 0, 0, 0, 0] := by decide
theorem test_amocas_fails : ((after (.amocas sv0 2 1 2) (wM kA)).memRead (coreWho 0x1000) true 0x40 8).bytes = List.replicate 8 0 := by
  decide

/-- AccessCauses: at user level with translation on; page 1 maps to DRAM for user reads, page 2 for user execution. -/
def kU (va watch : Word) : Core :=
  { kG ⟨va, false⟩ ⟨0, false⟩ ⟨0, false⟩ with
    sys := [(0x010, 0x800), (0x017, watch), (0x026, 0)], pc := 0x20000,
    etlb := [(0, ⟨0x10000, 0x101⟩), (1, ⟨0x20000, 0x20104⟩)] }
theorem readyU (va watch : Word) (hon : (withK (kU va watch)).coreOn 0x1000 = true) (h : (withK (kU va watch)).fetchFault 0x1000 (kU va watch) 0x20000 1 = none)
    (hw : (kU va watch).watchFetch 0x20000 1 = false) (hi : (withK (kU va watch)).interrupt? 0x1000 = none) :
    (withK (kU va watch)).Ready 0x1000 := ⟨rfl, hon, rfl, rfl, rfl, rfl, rfl, rfl, rfl, List.not_mem_nil, rfl, rfl, hi, h, hw⟩
/-- No entry; an entry that forbids the store; the line that WATCH watches for loads. -/
theorem witness_AccessCauses :
    ((withK (kU 0x90000 0)).Ready 0x1000 ∧ (kU 0x90000 0).walk 0x90000 = none) ∧
    ((withK (kU 0x10040 0)).Ready 0x1000 ∧ (kU 0x10040 0).walk 0x10040 = some (0x40, some 0x101) ∧
      (kU 0x10040 0).grants .store (some 0x101) = false ∧ (withK (kU 0x10040 0)).region 0x1000 0x40 = .dram) ∧
    ((withK (kU 0x10040 0x10041)).Ready 0x1000 ∧ (kU 0x10040 0x10041).grants .load (some 0x101) = true ∧
      (kU 0x10040 0x10041).pl ≠ 2 ∧ (0x10040#64).toNat / 64 = ((kU 0x10040 0x10041).sysRd 0x017).toNat / 64 ∧
      ((kU 0x10040 0x10041).sysRd 0x017).getLsbD 0 = true) :=
  ⟨⟨readyU _ _ (by decide) (by decide) (by decide) (by decide), by decide⟩, ⟨readyU _ _ (by decide) (by decide) (by decide) (by decide), by decide⟩,
   readyU _ _ (by decide) (by decide) (by decide) (by decide), by decide⟩
/-- CAUSE of the supervisor handler after a row on such a core. -/
def scause (i : Instr) (va watch : Word) : Word := ((after i (withK (kU va watch))).core 0x1000).sysRd 0x012
theorem test_miss : scause (.ld8 sv0 3 1 (.imm 0)) 0x90000 0 = 0x106 ∧ scause (.st8 sv0 3 1 (.imm 0)) 0x90000 0 = 0x107 := by decide
theorem test_permission : scause (.st8 sv0 3 1 (.imm 0)) 0x10040 0 = 0x108 := by decide
theorem test_watch : scause (.ld8 sv0 3 1 (.imm 0)) 0x10040 0x10041 = 0x10F := by decide
theorem test_atomic_misaligned : scause (.amoadd sv0 3 1 2) 0x10044 0 = 0x104 := by decide

/-- FencesAndFlushes: settled; a store awaiting its answer; a posted store that failed. -/
def kErr : Core := { kReady with pstoreCode := 0x0B, pstoreAddr := 0x8021000000 }
theorem drained : w.DrainedAll w 0x1000 := ⟨rfl, rfl, rfl⟩
theorem witness_FencesAndFlushes : w.DrainedAll w 0x1000 ∧ w.Settled 0x1000 ∧ (withK kErr).DrainedAll (withK kErr) 0x1000 ∧
    (withK kErr).Settled 0x1000 ∧ (withK kErr).pstoreCode 0x1000 = 0x0B :=
  ⟨drained, ⟨by decide, by decide⟩, ⟨rfl, rfl, rfl⟩, ⟨by decide, by decide⟩, by decide⟩
/-- A posted store of the core that awaits its answer. -/
def oStore : Outst :=
  ⟨0, 0x1000, .store, 0x50000000000, { pk0 with dest := 5, op := 1 }, 0, false⟩
theorem witness_fence_waits : ({ w with outst := [oStore] } : State).outst ≠ [] ∧ oStore.core = 0x1000 ∧ oStore.kind ≠ .load := by decide
theorem test_fence_waits : ((after (.fenceRel sv0) { w with outst := [oStore] }).core 0x1000).cur.isSome = true := by decide
theorem test_fence_rel_error : ((after (.fenceRel sv0) (withK kErr)).core 0x1000).sysRd 0x021 = 0x10B ∧
    ((after (.fenceRel sv0) (withK kErr)).core 0x1000).sysRd 0x022 = 0x8021000000 := by decide
theorem test_fence_acq : ((after (.fenceAcq sv0) (withK { kL 0 with l1d := [lineB 4 0, { lineB 5 0 with priv := true }] })).core 0x1000).l1d.map
    (·.line) = [5] := by decide

/-- WaitSleepEpoch: nothing to wake it; the three requests. -/
theorem witness_WaitSleepEpoch : w.Ready 0x1000 ∧ (w.core 0x1000).sleepRes = none ∧ (w.core 0x1000).pl ≠ 0 ∧ w.DrainedAll w 0x1000 ∧ w.Settled 0x1000 ∧
    (w.eventPending 0x1000 || (w.core 0x1000).perfOvf) = false ∧ (0x10#64).toNat % 16 = 0 ∧ (0x11#64).toNat % 16 = 1 ∧
    2 ≤ (0x1F#64).toNat % 16 :=
  ⟨ready, by decide, by decide, drained, ⟨by decide, by decide⟩, by decide⟩
theorem test_wait_holds : ((after (.wait sv0) w).core 0x1000).waiting = true ∧ ((after (.wait sv0) w).core 0x1000).pc = 0xF100000000 := by
  decide
theorem test_sleep_reserved : g3 (.sleepReserved sv0 3 1) ⟨7, false⟩ ⟨0, false⟩ ⟨0, false⟩ = ⟨4, false⟩ ∧
    g3 (.sleepNap sv0 3 1) ⟨1, false⟩ ⟨0, false⟩ ⟨0, false⟩ = ⟨3, false⟩ := by decide
theorem test_epoch_mark : g3 (.epochMark sv0 3 1) ⟨1, false⟩ ⟨0, false⟩ ⟨0, false⟩ = ⟨2, false⟩ := by decide

/-- ReamStoreAndLoad: the 16 bytes of the form of zero, at a line's end. -/
theorem witness_RmSt : (withK (kL 0x130)).Posts 0x1000 0x130 16 (fun o => 0x130 + o) .dram where
  region := .inl rfl
  opened := by
    intro p hp
    rw [show lineCut 0x130 16 = [(0, 16)] by decide] at hp
    simp only [List.mem_cons, List.not_mem_nil, or_false] at hp
    subst hp
    exact open_at 0x130 .store _ (by decide) (by decide) (by decide)
  room := by decide
theorem test_rm_st : ((after (.rmSt sv0 0 1) (withK (kL 0x130))).core 0x1000).sb.map (fun e => (e.addr, e.bytes.length)) = [(0x130, 16)] := by
  decide
/-- A line of zeros. -/
def line0 (n : Nat) : CLine := ⟨n, false, List.replicate 64 0, List.replicate 16 false, []⟩
/-- RM.LD of the form of zero: its sixteen bytes lie in one line. -/
def kLd : Core := { kG ⟨0x100, false⟩ ⟨0, false⟩ ⟨0, false⟩ with l1d := [line0 4], acc := kReady.acc.set 1 ⟨5, true, true, false, false, false, false, true⟩ }
theorem witness_RmLd : ∀ p ∈ lineCut 0x100 552, ((withK kLd).core 0x1000).walk (0x100 + BitVec.ofNat 64 p.1) = some (0x100 + p.1, none) ∧
    (withK kLd).isLocal (0x100 + p.1) = true ∧ (withK kLd).region 0x1000 (0x100 + p.1) = .dram := by decide
theorem witness_RmLd_held : ∀ p ∈ lineCut 0x100 16, ((withK kLd).core 0x1000).l1d.find? (fun y => y.line == (0x100 + p.1) % 2 ^ 40 / 64) = some (line0 4) := by
  decide
theorem test_rm_ld : ((after (.rmLd sv0 1 1) (withK kLd)).core 0x1000).ac 1 = Ream.clear := by decide

/-- EtlbCommands: the word of step 4 of the spec's refill example, CMD 2; the other commands by their CMD. -/
def kE : Core := { kG ⟨0x42011, false⟩ ⟨0x10, false⟩ ⟨0, false⟩ with sys := [(0x050, 0x11040000), (0x051, 0x1234004005), (0x052, 0x41000B000133)] }
theorem witness_EtlbCommands : (withK kE).Ready 0x1000 ∧ ((withK kE).core 0x1000).pl ≠ 0 ∧ ((withK kE).core 0x1000).pl < 3 ∧
    ((0x42011#64).extractLsb' 12 3).toNat = 2 ∧ sysLevel ((withK kE).core 0x1000).pl 0x040 = some 2 ∧ (0x10#64).getLsbD 4 = true :=
  ⟨⟨by decide, by decide, by decide, by decide, by decide, by decide, by decide, by decide, by decide, by decide, by decide, by decide,
    by decide, by decide, by decide⟩, by decide⟩
theorem test_refill : let k := (after (.etlbWrite sv0 1) (withK kE)).core 0x1000
    k.sf 0x050 ⟨29, 24⟩ = 0x12 ∧ k.sf 0x050 ⟨21, 16⟩ = 4 ∧ k.tlb 0x11 = ⟨0x1234004005, 0x41000B000133⟩ := by decide
theorem test_refilled : ({ (after (.etlbWrite sv0 1) (withK kE)).core 0x1000 with sys := [(0x010, 0x800), (0x051, 5)] } : Core).walk 0x1234567890 =
    some (0x41000B567890, some 0x41000B000133) := by decide
theorem test_pred_flush : ((after (.predFlush sv0 2) (withK { kE with pred := { Pred.clear with hist := [true] } })).core 0x1000).pred = Pred.clear := by
  decide

/-- FrontEndEvents: a line of DRAM that answers a fill of L1I and of L1D; NOP in a line that L1I holds; a mispredicted branch. -/
def kF : Core := { kReady with pc := 0x43C, l1i := [⟨0x10, false, List.replicate 63 0 ++ [0xF0], List.replicate 16 false, []⟩] }
theorem witness_FrontEndEvents :
    let r := (wM kReady).memRead (coreWho 0x1000) true (0x40 / 64 * 64 % 2 ^ 40) 64
    r.ans = .ok ∧ r.st.core 0x1000 = (wM kReady).core 0x1000 ∧ (wM kReady).fetchable 0x1000 0x40 = true ∧
    ((wM kReady).core 0x1000).fills.length < 8 := by decide
theorem witness_align : (withK kF).Ready 0x1000 ∧ kF.misp = none ∧ kF.walk 0x43C = some (0x43C, none) ∧ kF.lineBuf = [] ∧ kF.missed = 0 ∧
    kF.l1i.find? (fun y => y.line == 0x43C % 2 ^ 40 / 64) = some ⟨0x10, false, List.replicate 63 0 ++ [0xF0], List.replicate 16 false, []⟩ :=
  ⟨⟨by decide, by decide, by decide, by decide, by decide, by decide, by decide, by decide, by decide, by decide, by decide, by decide,
    by decide, by decide, by decide⟩, by decide⟩
theorem test_align : ((after (.bundleAlign 0x1000) (withK kF)).core 0x1000).pc = 0x440 := by decide
theorem test_refused_fill : ∃ x ∈ ((after (.l1iFill 0x1000 0x40) w).core 0x1000).l1i, x.poison = List.replicate 16 true := by decide

/-- A load at the head of the bundle queue, of a line that L1D does not hold; the same behind a SPECBAR. -/
def kQ : Core :=
  { kL 0x400 with bundles := [⟨0xF100000000, [⟨2, true, .ld .ld64 3 1 (.imm 0)⟩], none, [], ⟨0, false, false, [], 0⟩, false, []⟩] }
def kBar : Core := { kQ with late := [[⟨7, true, .specbar⟩]] }
theorem witness_l1dFill :
    let r := (wM kQ).memRead (coreWho 0x1000) (!(kQ.sysRd 0x040).getLsbD 0) (0 * 64) 64
    r.ans = .ok ∧ r.st.core 0x1000 = (wM kQ).core 0x1000 ∧ firstIllegal [⟨2, true, .ld .ld64 3 1 (.imm 0)⟩] = none ∧
    (∀ x ∈ kQ.l1d ++ kQ.fills, x.line ≠ 0) ∧ kQ.heldFills < 8 ∧ (∃ ys ∈ kBar.olderThan 0, ∃ y ∈ ys, y.op = .specbar) := by decide
theorem test_l1dFill : ((after (.l1dFill 0x1000 0 0) (wM kQ)).core 0x1000).l1d.map (·.line) = [0, 4, 5] ∧
    (after (.l1dFill 0x1000 0 0) (wM kBar)).core 0x1000 = kBar := by decide
/-! ## Segments, home slices, controllers, repair -/

/-- Tile 0 runs, and its segment 0 holds a scratch line and a cached one. -/
def wT : State := { (w.setDom 0 1).setDom 136 1 with segLines := [1, 4097], tags := [⟨0, 0, 7, true⟩] }
/-- SegmentModesAndCodes: a mode refused, kept, and changed; segment 0 in CACHE mode is named by no valid entry. -/
theorem witness_SegmentModesAndCodes : wT.isOn 0 = true ∧ wT.segMode 0 0 = 0 ∧ wT.homeNamed 0 0 = false ∧ (1#2).toNat ≠ wT.segMode 0 0 := by
  decide
/-- The same with a home map entry that names it. -/
def wTh : State := ((wT.setF (HOME_MAP.adr 0) HOME_MAP.VALID 1).setF (HOME_MAP.adr 0) HOME_MAP.SEG 0).setF (HOME_MAP.adr 0) HOME_MAP.LTILE 0
theorem witness_mode_refused : wTh.isOn 0 = true ∧ wTh.segMode 0 0 = 0 ∧ wTh.homeNamed 0 0 = true := by decide
theorem test_mode_change : (after (.segModeWrite 0 0 1) wT).segMode 0 0 = 1 ∧ (after (.segModeWrite 0 0 1) wT).segLines = [4097] ∧
    (after (.segModeWrite 0 0 1) wT).tags = [] := by decide
theorem test_mode_refused : (after (.segModeWrite 0 0 1) wTh).segMode 0 0 = 0 ∧
    (after (.segModeWrite 0 0 1) wTh).fld (SEG_CTL.adr 0 0) SEG_CTL.REFUSED = 1 := by decide
theorem test_light_refused : (after (.segCodeChange 0 3) wTh).fld (SEG_REPAIR.adr 0) SEG_REPAIR.LIGHT = 2 ∧
    (after (.segCodeChange 0 3) wTh).fld (SEG_REPAIR.adr 0) SEG_REPAIR.REFUSED = 1 := by decide

/-- HomeSlicesAndRehoming: a dirty line of a controller that answers, and a clean one. -/
def wH : State := { (wM kReady).setDom 0 1 with tags := [⟨0, 0, 7, true⟩, ⟨0, 1, 9, false⟩], segLines := [0, 1] }
theorem witness_HomeSlicesAndRehoming :
    wH.tags.find? (fun t => t.seg == 0 * 16 + 0 && t.slot == 0) = some ⟨0, 0, 7, true⟩ ∧ wH.dramLine (7 * 64) = (0, 448) ∧
    wH.tags.find? (fun t => t.seg == 0 * 16 + 0 && t.slot == 1) = some ⟨0, 1, 9, false⟩ ∧ wH.has REHOME.adr REHOME.START = false :=
  by decide
theorem witness_McOpen : wH.McOpen 0 0 ∧ wH.convOwes 0 448 = false := ⟨⟨by decide, by decide, by decide, by decide⟩, by decide⟩
theorem test_evict : (after (.homeSliceEvict 0 0 0) wH).tags = [⟨0, 1, 9, false⟩] ∧ (after (.homeSliceEvict 0 0 0) wH).chk.get 0 112 = 1 := by
  decide
/-- REHOME: START, VALID and LTILE 0; START and VALID without LOCKED; a move in progress with no line cached. -/
def vRehome : Word := fput REHOME.START 1 (fput REHOME.VALID 1 (fput REHOME.ENTRY 5 0))
theorem witness_rehome : fset? REHOME.START vRehome = true ∧ fset? REHOME.VALID vRehome = true ∧
    (wT.setF HOME_CTL.adr HOME_CTL.LOCKED 1).physTile (fget REHOME.LTILE vRehome) = some 0 ∧
    (wT.setF HOME_CTL.adr HOME_CTL.LOCKED 1).segMode 0 (fget REHOME.SEG vRehome) = 0 ∧
    fset? REHOME.START 0 = false ∧ wT.has HOME_CTL.adr HOME_CTL.LOCKED = false ∧ wT.segMode 0 0 = 0 ∧
    (wT.setF REHOME.adr REHOME.START 1).has REHOME.adr REHOME.START = true ∧ (withK kReady).linesOf 0 = [] := by decide
theorem test_rehome : (after (.rehome vRehome) (wT.setF HOME_CTL.adr HOME_CTL.LOCKED 1)).has (HOME_MAP.adr 5) HOME_MAP.MOVING = true ∧
    (after (.rehome vRehome) wT).has HOME_CTL.adr HOME_CTL.REFUSED = true ∧
    (after .rehomeSwitch (after (.rehome vRehome) ({ (w.setDom 0 1).setF HOME_CTL.adr HOME_CTL.LOCKED 1 with tags := [] }))).has (HOME_MAP.adr 5)
      HOME_MAP.VALID = true := by decide

/-- MemoryControllers: training, READY, self-refresh with an access held, a fill. -/
def wC (st : Nat) : State := (wM kReady).setF (MC_STATE.adr 0) MC_STATE.STATE st
theorem witness_MemoryControllers : (wC 1).isOn 144 = true ∧ (wC 1).fld (MC_STATE.adr 0) MC_STATE.STATE = 1 ∧
    (wC 2).fld (MC_STATE.adr 0) MC_STATE.STATE = 2 ∧ (wC 3).fld (MC_STATE.adr 0) MC_STATE.STATE = 3 ∧
    ((wC 2).setF (DOM_CTL.adr 144) DOM_CTL.IDLE_LIMIT 1).has (DOM_CTL.adr 144) DOM_CTL.IDLE_LIMIT = true ∧
    (∃ h ∈ ({ wC 3 with power := { (wC 3).power with held := [⟨144, .core 0, false, 0, false⟩] } } : State).power.held, h.dom = 144 + 0) ∧
    (wC 2).has (FILL_CTL.adr 0) FILL_CTL.GO = false ∧ ((wC 2).setF (FILL_CTL.adr 0) FILL_CTL.GO 1).has (FILL_CTL.adr 0) FILL_CTL.GO = true :=
  by decide
theorem test_fill : (after (.memFillDone 0) (after (.memFill 0) ((wC 2).setF (FILL_PATTERN.adr 0) ⟨63, 0⟩ 0x1122334455667788))).byteAt 4 = 0x44 := by
  decide

/-- CodeConversion: nothing runs, one runs, one is at its end. -/
def wV : State := { wC 2 with conv := some ⟨0, [], [], []⟩ }
theorem witness_CodeConversion : State.reset.isOn 144 = false ∧ (wC 2).isOn 144 = true ∧ (wC 2).has (DRAM_CODE.adr 0) DRAM_CODE.LIGHT = false ∧ (wC 2).conv = none ∧ wV.conv.isSome = true ∧
    wV.convPos ⟨0, [], [], []⟩ 0 < (granuleRange wV.dramMode 0 0).2 ∧ wV.isOn 144 = true ∧ wV.fld (MC_STATE.adr 0) MC_STATE.STATE = 2 ∧
    wV.blockedUnit (.dram 0 (wV.convPos ⟨0, [], [], []⟩ 0)) = false ∧
    (granuleRange wV.dramMode 0 0).2 ≤ wV.convPos ⟨0, [(0, 2 ^ 40)], [], []⟩ 0 := by decide
theorem test_convert : (after (.dramCodeConvert 0 true) (wC 2)).conv = some ⟨0, [], [], [1, 2, 3, 4, 5, 6, 7]⟩ ∧
    (after (.dramCodeConvert 1 true) wV).has (DRAM_CODE.adr 1) DRAM_CODE.REFUSED = true ∧ (after (.dramCodeConvert 0 false) wV).conv = wV.conv := by
  decide
theorem test_convert_done : (after (.conversionPartDone 0) { wV with conv := some ⟨0, [(0, 2 ^ 40)], [1, 2, 3, 4, 5, 6, 7], []⟩ }).conv = none := by
  decide

/-- SparesAndRecurrence: a hard error that waits with a spare free, and with none; a map entry free and used. -/
def wR : State := { wC 2 with hardWait := [(tileBlk 0, 0x40000), (mcBlk 0, 1024)] } |>.setDom 0 1
theorem witness_SparesAndRecurrence : wR.isOn 0 = true ∧ wR.hardWait.contains (tileBlk 0, 0x40000) = true ∧ wR.freeRow 0 1 = some 0 ∧
    wR.hardWait.contains (mcBlk 0, 1024) = true ∧ wR.freeBlock 0 = some 0 ∧ wR.has (SPARE_MAP.adr 0 0 0) SPARE_MAP.VALID = false ∧
    wR.has (DRAM_REMAP.adr 0 0) DRAM_REMAP.VALID = false := by decide
/-- All eight spare rows of segment 1 are used. -/
def wFull : State := (List.range 8).foldl (fun s r => s.setF (SPARE_MAP.adr 0 1 r) SPARE_MAP.VALID 1) wR
theorem witness_no_spare : wFull.freeRow 0 1 = none ∧ wFull.has (SPARE_MAP.adr 0 1 7) SPARE_MAP.VALID = true := by decide
theorem test_spare : (after (.spareRowMap 0 0x40000) wR).has (SPARE_MAP.adr 0 1 0) SPARE_MAP.VALID = true ∧
    (after (.spareRowMap 0 0x40000) wFull).fld (SEG_REPAIR.adr 0) SEG_REPAIR.RETIRED = 2 := by decide
/-- A recurrence entry that has reached REWRITE_AT, on a word of segment 0. -/
def wRec : State := ((wR.setF (REC_CTL.adr (tileBlk 0)) REC_CTL.REWRITE_AT 2).setF (REC_CTL.adr (tileBlk 0)) REC_CTL.DECAY 1).wr
  (REC_ENTRY.adr (tileBlk 0) 0) (recWord 0 3 0)
theorem witness_rewrite : wRec.unitOn (.tile 0) ∧ wRec.recFind (unitBlk (.tile 0)) 0 = some (0, recWord 0 3 0) ∧
    fget REC_ENTRY.STATE (recWord 0 3 0) = 0 ∧ wRec.fld (REC_CTL.adr (unitBlk (.tile 0))) REC_CTL.REWRITE_AT ≤ fget REC_ENTRY.COUNT (recWord 0 3 0) ∧
    wRec.beatPaused (.tile 0) = false ∧ ({ wRec with segLines := [0] } : State).emptyLine (unitPlace (.tile 0) 0) = false ∧
    wRec.fld (REC_CTL.adr (unitBlk (.tile 0))) REC_CTL.DECAY ≠ 0 := by
  refine ⟨⟨by decide, by decide⟩, by decide⟩
theorem test_decay : (after (.recDecayExpiry (.tile 0)) wRec).rd (REC_ENTRY.adr (tileBlk 0) 0) = recWord 0 1 0 := by decide

/-- BeaterAndDiagnostics: a pass asked for; a clean word that the beater may visit. -/
def wB : State := { wR with segLines := [0] }.setF (BEAT_CTL.adr (tileBlk 0)) BEAT_CTL.ENABLE 1
theorem witness_BeaterAndDiagnostics : wB.unitOn (.tile 0) ∧ wB.has (BEAT_CTL.adr (unitBlk (.tile 0))) BEAT_CTL.ENABLE = true ∧
    wR.has (BEAT_CTL.adr (unitBlk (.tile 0))) BEAT_CTL.ENABLE = false ∧ wR.has (BEAT_CTL.adr (unitBlk (.tile 0))) BEAT_CTL.PASS = false ∧
    wB.beating (unitBlk (.tile 0)) = true ∧ wB.beatPaused (.tile 0) = false ∧ wB.beatAt (.tile 0) = some 0 ∧ wB.beatFrom (.tile 0) 4 = some 4 ∧
    wB.emptyLine (unitPlace (.tile 0) 0) = false := by refine ⟨⟨by decide, by decide⟩, by decide⟩
theorem test_visit : (after (.beaterVisit (.tile 0) 0) { wB with chk := [(0, 1)] }).fld (BEAT_STAT.adr (tileBlk 0)) BEAT_STAT.POS = 4 := by decide
theorem test_raw : ((after (.readRaw (.tile 0) 0) (after (.writeRaw (.tile 0) 0 0x5512345678) wB)).rd (DIAG_RDATA.adr (tileBlk 0))).extractLsb' 0 39
    = 0x5512345678 := by decide

/-! ## Queues and events -/

/-- Queue 3 of tile 0 is `m`. -/
def wQ (m : MQueue) : State := ((w.setDom 0 1).setDom 136 1).setQueue 0 3 m
/-- A word without poison. -/
def pw (n : Nat) : PW := ⟨BitVec.ofNat 64 n, false⟩
/-- An open message of core 5 of `n` words behind `k` committed ones. -/
def mOpen (k n : Nat) : MQueue := { MQueue.reset with words := List.replicate k (pw 1), opened := List.replicate n (pw 2), prod := .opened, owner := .core 5, openLimit := 1 }
/-- QueuePushes: an idle queue; the owner's open one with room, full with 64 opened words, and full with 64 words in all;
another producer's; an absorbing one. -/
theorem witness_QueuePushes : (wQ (mOpen 1 2)).qgate 0 = .run 0 ∧ (wQ (mOpen 1 2)).queue 0 3 = mOpen 1 2 ∧ MQueue.reset.prod = .idle ∧
    (mOpen 1 2).words.length + (mOpen 1 2).opened.length < 64 ∧ (mOpen 0 64).opened.length = 64 ∧
    (mOpen 1 63).opened.length ≠ 64 ∧ 64 ≤ (mOpen 1 63).words.length + (mOpen 1 63).opened.length ∧ (mOpen 1 2).owner ≠ .core 6 := by decide
theorem witness_push_absent : (w.setF (TILE_MAP.adr 0 5) TILE_MAP.ABSENT 1).physTile 5 = none ∧ (w.setDom 0 2).physTile 0 = some 0 ∧ (w.setDom 0 2).dom 0 = 2 ∧
    (w.setDom 0 2).queues = [] := by decide
theorem test_push : ((after (.qpushLast (.core 5) 0 3 (pw 9)) (wQ (mOpen 1 2))).queue 0 3).words = [pw 1, pw 2, pw 2, pw 9] ∧
    ((after (.qpush (.core 5) 0 3 ⟨9, true⟩) (wQ (mOpen 1 2))).queue 0 3).prod = .absorbing ∧
    ((after (.qpush (.core 6) 0 3 (pw 9)) (wQ (mOpen 1 2))).queue 0 3).held = [⟨.core 6, false, pw 9⟩] := by decide
theorem test_oversize : ((after (.qpushLast (.core 5) 0 3 (pw 9)) (wQ (mOpen 0 64))).queue 0 3).prod = .idle ∧
    (after (.qpushLast (.core 5) 0 3 (pw 9)) (wQ (mOpen 0 64))).has (Q_FLAGS.adr 0 3) Q_FLAGS.OVERSIZE = true := by decide
theorem test_pop : ((after (.qpop (.core 5) 0 3) (wQ (mOpen 2 0))).queue 0 3).words = [pw 1] ∧
    (after (.qpop (.core 5) 0 3) (wQ MQueue.reset)).has (Q_FLAGS.adr 0 3) Q_FLAGS.UNDERRUN = true := by decide
theorem witness_QueueRewindsPopsAndSettings :
    (wQ { mOpen 1 2 with prod := .absorbing }).qgate 0 = .run 0 ∧ (mOpen 1 2).openLimit ≠ 0 ∧
    (wQ { MQueue.reset with held := [⟨.core 6, true, pw 9⟩] }).queue 0 3 = { MQueue.reset with held := [⟨.core 6, true, pw 9⟩] } := by decide
theorem test_held_accept : ((after (.heldPushAccept 0 3) (wQ { MQueue.reset with held := [⟨.core 6, true, pw 9⟩] })).queue 0 3).words = [pw 9] := by
  decide
theorem test_stale : (after (.stale 0 3) (wQ (mOpen 1 2))).has (Q_FLAGS.adr 0 3) Q_FLAGS.STALE = true := by decide
theorem test_evmode : ((after (.evmodeWrite 0 3 3) (wQ (mOpen 1 2))).src (2048 + 3)).level = true := by decide

/-- Source 7045 counts 2 for core 9 at priority 3 and can be claimed; source 6976 is a level. -/
def eC : EvSource := { EvSource.reset 7045 with masked := false, prio := 3, target := 9, count := 2 }
def eL : EvSource := { EvSource.reset 6976 with masked := false, prio := 3, target := 9, isLevel := true, level := true }
def wE : State := ((w.setDom 0 1).setSrc 7045 eC).setSrc 6976 eL
theorem witness_EventSources : wE.isOn 301 = true ∧ (wE.src 7045).isLevel = false ∧ (wE.src 6976).isLevel = true ∧
    (wE.physTile ((wE.src 0).target / 16)).isSome = true ∧ (wE.setSrc 7 { EvSource.reset 7 with target := 2047 }).isOn 301 = true ∧
    (State.reset.setDom 301 0).isOn 301 = false ∧ fget EV_EOI.SOURCE (0#64) = 0 := by decide
theorem witness_claim : wE.HubSorted ∧ wE.CanClaim 9 6976 ∧ wE.CanClaim 9 7045 :=
  ⟨by unfold State.HubSorted; decide, by unfold State.CanClaim; decide, by unfold State.CanClaim; decide⟩
theorem witness_unwatched : State.reset.Unwatched 7042 := fun i _ h => by
  have e : State.reset.rd (WW_SLOT.adr i) = resetVal (WW_SLOT.adr i) := rfl
  obtain ⟨h, g⟩ := h
  revert h g
  rw [e]
  have : ∀ j, j < 64 → ¬ (fset? WW_SLOT.ENABLE (resetVal (WW_SLOT.adr j)) = true ∧ fget WW_SLOT.SOURCE (resetVal (WW_SLOT.adr j)) = 7042) := by decide
  intro h g
  exact this i (by assumption) ⟨h, g⟩
theorem test_claim : (after (.evClaim 9) wE).out = [.answer (.core 9) ⟨0x8000000113001B40, false⟩] := by decide
theorem test_eoi : ((after (.evEoi 9 (fput EV_EOI.AMOUNT 1 7045)) (wE.setSrc 7045 { eC with insvc := true, svcCore := 9 })).src 7045).count = 1 ∧
    (after (.evEoi 9 7045) wE).has (EV_CORE_STAT.adr 9) EV_CORE_STAT.BAD_EOI = true := by decide
theorem test_arrival : ((after (.eventArrival 7045) wE).src 7045).count = 3 ∧ (after (.eventArrival 7042) (State.reset.setDom 301 0)).aonPend = [7042] := by
  decide

/-! ## Links -/

/-- Link 0 in TSTATE `ts` and PSTATE `ps` with state `l`; its domain, its slice and the service complex are on. -/
def wK (ts ps : Nat) (l : LinkSt) : State :=
  (((((w.setDom 152 1).setDom 296 1).setF (LNK_CTL.adr 0) LNK_CTL.ENABLE 1).setTs 0 ts).setPs 0 ps).setLk 0 l
/-- A link that holds state, with one unacknowledged flit. -/
def lUp : LinkSt := { LinkSt.reset with fresh := false, replay := [List.replicate 68 7] }
/-- An INIT message of device 3, link 5, with 16 buffers on each channel. -/
def mInit : InitMsg := ⟨3, 5, false, true, false, 0, List.replicate 8 16, [0, 0, 0, 0, 0, 0, 0, 0]⟩
/-- LinkTraining: each state of the machine, a full and a quick training, INIT expected and not. -/
theorem witness_LinkTraining :
    (wK 1 0 LinkSt.reset).ts 0 = 1 ∧ (wK 1 0 LinkSt.reset).lctl 0 LNK_CTL.ENABLE = 1 ∧ (wK 1 0 LinkSt.reset).lctl 0 LNK_CTL.RETIRE = 0 ∧
    (wK 1 0 LinkSt.reset).lctl 0 LNK_CTL.TEST = 0 ∧ (wK 1 0 LinkSt.reset).isOn 152 = true ∧ (wK 1 0 LinkSt.reset).lctl 0 LNK_CTL.PWR_REQ ≠ 2 ∧
    (wK 2 0 { LinkSt.reset with full := true }).ts 0 = 2 ∧ (wK 2 0 { LinkSt.reset with full := true }).trainRate 0 = 0 ∧
    (wK 3 0 LinkSt.reset).ts 0 = 3 ∧ (wK 4 0 LinkSt.reset).ts 0 = 4 ∧ ((wK 4 0 LinkSt.reset).lk 0).initGot = false ∧
    ((wK 4 0 LinkSt.reset).setF (LNK_EXPECT.adr 0) LNK_EXPECT.CHECK 1).has (LNK_EXPECT.adr 0) LNK_EXPECT.CHECK = true ∧
    ((wK 4 0 LinkSt.reset).setF (LNK_EXPECT.adr 0) LNK_EXPECT.CHECK 1).fld (LNK_EXPECT.adr 0) LNK_EXPECT.DEVICE ≠ mInit.device ∧
    (wK 4 0 LinkSt.reset).has (LNK_EXPECT.adr 0) LNK_EXPECT.CHECK = false ∧ mInit.rate100 = ((wK 4 0 LinkSt.reset).lk 0).lock100 ∧
    mInit.rate100 ≠ ((wK 4 0 { LinkSt.reset with lock100 := true }).lk 0).lock100 ∧
    (∀ x ∈ mInit.alloc, 16 ≤ x) ∧ mInit.alloc.foldl (· + ·) 0 ≤ 1024 ∧
    (wK 2 0 { LinkSt.reset with full := true, failedFull := 1 }).fld (LNK_HEALTH.adr 0) LNK_HEALTH.RETRAIN_LIMIT ≤ 255 ∧
    (wK 5 0 lUp).lctl 0 LNK_CTL.ENABLE = 1 ∧ ((wK 5 0 lUp).lk 0).farRetire = false ∧
    ((wK 2 0 LinkSt.reset).setF (LNK_CTL.adr 0) LNK_CTL.RETIRE 1).lctl 0 LNK_CTL.RETIRE = 1 := by decide
theorem witness_NoneAcked : (wK 5 0 lUp).NoneAcked 0 ((wK 5 0 lUp).txOldest 0) := rfl
theorem test_init : (after (.init 0 0 mInit) (wK 4 0 LinkSt.reset)).fld (LNK_STAT.adr 0) LNK_STAT.FAR_LINK = 5 ∧
    ((after (.init 0 0 mInit) (wK 4 0 LinkSt.reset)).lk 0).initOk = true ∧
    ((after (.init 0 0 { mInit with alloc := [15, 16, 16, 16, 16, 16, 16, 16] }) (wK 4 0 LinkSt.reset)).lk 0).initOk = false := by decide
theorem test_init_done : (after (.initDone 0 0) (wK 4 0 { LinkSt.reset with initOk := true })).ts 0 = 5 := by
  decide
theorem test_lock : ((wK 2 0 LinkSt.reset).rxLock 0).ts 0 = 3 ∧ (after (.codewordLock 0) (wK 3 0 LinkSt.reset)).ts 0 = 4 := by decide

/-- LinkFlitsAndReplay: a packet of one flit with a credit; nothing to send; a flit to dequeue below the credit threshold. -/
def lTx : LinkSt := { LinkSt.reset with fresh := false, txq := [⟨0, [1], [(1, [1])], false, .new 0 0 pk0⟩],
                                        rx := [⟨0, 1, [1], true⟩] }
def wX : State := (((wK 5 0 lTx).setF (LNK_VC.adr 0 0) LNK_VC.CRED 2).setF (LNK_VC.adr 0 0) LNK_VC.OCC 1).setF (LNK_TIMING.adr 0) LNK_TIMING.CRD_THRESH 4
theorem witness_LinkFlitsAndReplay : wX.LinkActive 0 ∧ (wX.lk 0).replay.length < 512 ∧ wX.lctl 0 LNK_CTL.RETIRE = 0 ∧
    wX.has (LNK_VC.adr 0 0) LNK_VC.CRED = true ∧ (lUp.txq = [] ∧ lUp.rx = [] ∧ lUp.asked = none ∧ lUp.awaiting = false ∧ lUp.ignoreUntil = none) ∧
    wX.fld (LNK_VC.adr 0 0) LNK_VC.PEND + 1 < wX.fld (LNK_TIMING.adr 0) LNK_TIMING.CRD_THRESH ∧ 0 < wX.fld (LNK_VC.adr 0 0) LNK_VC.OCC ∧
    (lTx.awaiting = false ∧ ({ lTx with awaiting := true } : LinkSt).awaiting = true) ∧ flitOk (List.replicate 68 0) unseqSeed = false ∧ flitOk (List.replicate 68 0) 0 = false ∧ (wK 5 0 lUp).txOldest 0 < 4096 ∧
    0 < (wK 5 0 lUp).fld (LNK_HEALTH.adr 0) LNK_HEALTH.REPLAY_LIMIT ∧
    (lTx.sinceAck + 1 < ((wK 5 0 lTx).setF (LNK_TIMING.adr 0) LNK_TIMING.ACK_EVERY 8).fld (LNK_TIMING.adr 0) LNK_TIMING.ACK_EVERY) :=
  ⟨⟨by decide, by decide⟩, by decide⟩
theorem test_flit_send : (after (.flitSend 0) wX).fld (LNK_VC.adr 0 0) LNK_VC.CRED = 1 ∧ ((after (.flitSend 0) wX).lk 0).txq = [] ∧
    (after (.flitSend 0) wX).out.length = 1 := by decide
theorem test_ack : ((after (.ack 0 1 false) (wK 5 0 lUp)).lk 0).replay = [] := by decide
theorem test_dequeue : (after (.flitDequeue 0) wX).fld (LNK_VC.adr 0 0) LNK_VC.PEND = 1 := by decide

/-- LinkPowerStates: ready for QUIET, asked for QUIET and for OFF, quiet, and off. -/
def wP : State := wK 5 0 { LinkSt.reset with fresh := false }
theorem witness_LinkPowerStates : wP.quietReady 0 = true ∧ (wK 5 0 lUp).quietReady 0 = false ∧
    (wK 5 1 LinkSt.reset).ps 0 = 1 ∧ (wK 5 2 LinkSt.reset).ps 0 = 2 ∧ (((wK 0 2 LinkSt.reset).setDom 152 0).dom (152 + 0)) = 0 ∧
    wP.lctl 0 LNK_CTL.RETIRE = 0 ∧ ((wK 5 1 LinkSt.reset).setF (LNK_CTL.adr 0) LNK_CTL.ENERGY_DET 1).lctl 0 LNK_CTL.ENERGY_DET ≠ 0 ∧
    (wP.setF (LNK_CTL.adr 0) LNK_CTL.AUTO_QUIET 1).lctl 0 LNK_CTL.AUTO_QUIET = 1 ∧ wP.isOn (296 + 0 / 36) = true ∧ wP.wantQuiet 0 = false ∧
    (wP.lk 0).asked = none ∧ (wP.lk 0).farRetire = false ∧ (wP.lk 0).waking = false ∧ wP.lctl 0 LNK_CTL.ENABLE = 1 ∧
    wP.power.goingOff.contains 296 = false ∧ wP.fld PWR_DEV_STAT.adr PWR_DEV_STAT.STATE ≠ 3 ∧
    ((wK 0 2 LinkSt.reset).setDom 152 0).lctl 0 LNK_CTL.PWR_REQ ≠ 2 ∧ ((wK 0 2 LinkSt.reset).setDom 152 0).lctl 0 LNK_CTL.TEST = 0 ∧
    ((wK 0 2 LinkSt.reset).setF (LNK_CTL.adr 0) LNK_CTL.PWR_REQ 2).lctl 0 LNK_CTL.PWR_REQ = 2 := by decide
theorem test_quiet : (after (.quietReq 0 (wP.txOldest 0)) wP).ps 0 = 1 ∧ (after (.pwrReq 0 3) wP).ps 0 = 0 ∧
    ((after (.pwrReq 0 2) wP).lk 0).asked = some (0x30, 1) := by decide
theorem test_off : (after (.offReq 0 (wP.txOldest 0)) wP).dom 152 = 0 ∧
    (after (.linkEnable 0 true) ((wK 0 2 LinkSt.reset).setDom 152 0)).ts 0 = 1 := by decide

/-- LinkHealthAndRetirement. -/
theorem witness_LinkHealthAndRetirement : wP.LinkActive 0 ∧ (0x5A#8 ≠ 0x5B#8) ∧ 3 ≤ ({ LinkSt.reset with cwBad := 3 } : LinkSt).cwBad ∧
    (wP.lk 0).replay = [] ∧ (wP.lk 0).txq = [] ∧ (wP.lk 0).cwSeq = none ∧ (wP.lk 0).asked = none ∧ wP.wantOff 0 = false ∧
    ((wK 5 0 { lUp with asked := some (0x50, 1) }).lk 0).asked = some (0x50, 1) ∧ ((wK 5 0 { lUp with asked := some (0x50, 1), retiring := true }).lk 0).retiring = true ∧
    4 ≤ (4#3).toNat ∧ (3#3).toNat < 4 ∧ (wP.xing (.slice 3) 2).counter < 15 ∧ wP.xState (.slice 3) 2 = 1 ∧
    ((wP.setF (LNK_HEALTH.adr 0) LNK_HEALTH.UNCORR_MAX 1).setLk 0 { lUp with winUncorr := 1 }).fld (LNK_HEALTH.adr 0) LNK_HEALTH.UNCORR_MAX = 1 :=
  ⟨⟨by decide, by decide⟩, by decide⟩
theorem test_retire : (after (.retire 0 (wP.txOldest 0)) wP).ts 0 = 6 ∧
    (after (.retire 0 ((wK 5 0 lUp).txOldest 0)) (wK 5 0 { lUp with asked := some (0x50, 1) })).ts 0 = 7 := by decide
theorem test_framing : (after (.codewordReceive 0 ⟨.clean, 0, 0⟩) (wK 5 0 { lUp with cwBad := 3 })).ts 0 = 2 ∧
    (after (.codewordReceive 0 ⟨.clean, 0, 0⟩) (wK 5 0 { lUp with cwBad := 2 })).ts 0 = 5 := by decide
theorem test_link_test : (after (.linkTest 0 3) wP).ts 0 = 8 ∧ (after (.linkTest 0 4) wP).ts 0 = 5 := by decide

/-! ## Router, time and collectives -/

/-- A packet of operation `op` at address `a` with `data`. -/
def pk (op a : Nat) (data : List Byte) : Packet :=
  { pk0 with src := 5, op := op, len := data.length, body := toBytes 8 a, data := data, mask := List.replicate (data.length / 4) false }
/-- The device accepts every class and CTRL accesses of every device; controller 0, tile 0 and its die are on. -/
def wN : State :=
  ((((((((wM kReady).setDom 0 1).setDom 302 1).setDom 296 1).wr RT_DEVICE.adr 0xFFFFFFFFFFFFFFFF).setF (RT_CTRLF.adr 0) RT_CTRLF.VALID 1).setF (RT_CTRLF.adr 0)
    RT_CTRLF.READ 1).setF (RT_CTRLF.adr 0) RT_CTRLF.DEVICE 5)
theorem witness_RemoteRequestsAtTarget :
    wN.accepts (pk 1 0 [1, 0, 0, 0]) = true ∧ (wN.setF RT_DEVICE.adr RT_DEVICE.ACC_PUT 0).accepts (pk 1 0 [1]) = false ∧
    2 ^ 40 ≤ (pk 1 (2 ^ 41) [1]).addr ∧ memAddr (pk 1 0x8020000000 [1]).addr = false ∧ memAddr (pk 2 0 [1]).addr = true ∧
    (wN.writeAll (.remote 5 0) true 0 [1, 0, 0, 0] [false]).ans = .ok ∧
    ((wN.setDom 136 0).writeAll (.remote 5 0) true 0 [1, 0, 0, 0] [false]).ans = .off ∧
    (wN.readAll (.remote 5 0) true (parts 0 4)).ans = .ok ∧ (wN.readAll (.remote 5 0) true (parts 0 4)).poison = [false] ∧
    (wN.memAmo (.remote 5 0) .add 0 ⟨1, false⟩ ⟨0, false⟩).2 = (.ok, ⟨0, false⟩) ∧ (pk 4 4 []).addr % 8 ≠ 0 ∧
    wN.ctrlAdmits 5 false = true ∧ wN.ctrlAdmits 5 true = false ∧ regionOf (.remote 5 0) EV_HUB_STAT.adr = .ctrl ∧
    (wN.ctrlRead (.remote 5 0) EV_HUB_STAT.adr).2.1 = .ok ∧ wN.qgate 0 = .run 0 ∧ (wN.setDom 0 2).qgate 0 = .sleeping 0 ∧
    (wN.setDom 0 0).qgate 0 = .off 0 ∧ (wN.setF (TILE_MAP.adr 0 5) TILE_MAP.ABSENT 1).qgate 5 = .absent ∧
    (wN.enter (.remote 5 0) true 0xA000000300 (wN.fabricGates (.remote 5 0) 0 (some 0))).2 = none ∧ (wN.queue 0 3).prod = .idle ∧
    (qmsgWords (pk 5 0xA000000300 (toBytes 8 7))).length ≤ (wN.queue 0 3).free := by decide
/-- The slice is on; a packet that comes from nowhere, one that its buffers held, and one whose header is spoilt there. -/
def wIn (f : Flips) : State := { wN with rtWait := [⟨0, 0, pk 1 0 [1, 0, 0, 0], f, false⟩] }
theorem witness_takeIn : wN.isOn (296 + 0) = true ∧ wN.isOn (296 + 1) = false ∧ wN.takeIn 0 (pk 1 0 [1, 0, 0, 0]) = (wN, some (pk 1 0 [1, 0, 0, 0])) ∧
    ((wIn []).takeIn 0 (pk 1 0 [1, 0, 0, 0])).2 = some (pk 1 0 [1, 0, 0, 0]) ∧ ((wIn []).takeIn 0 (pk 1 0 [1, 0, 0, 0])).1.rtWait = [] := by decide
/-- A QMSG of two words for queue 3 of tile 0; the queue full, and another message held for it. -/
theorem witness_qmsg :
    qmsgWords (pk 5 0xA000000300 (toBytes 8 7)) = [pw 7] ∧ qmsgWords { pk 5 0xA000000300 (toBytes 8 7) with mask := [true, true] } = [⟨7, true⟩] ∧
    ((wN.setQueue 0 3 (mOpen 64 0)).queue 0 3).free < 1 ∧ (wN.heldMsgs 0).length < 4 ∧
    (∃ h ∈ ({ wN with qholds := [⟨0, 3, .remote 5 0, [pw 1]⟩] } : State).qholds, h.ptile = 0 ∧ h.queue = 3) ∧
    4 ≤ (({ wN with qholds := List.replicate 4 ⟨0, 3, .remote 5 0, [pw 1]⟩ } : State).heldMsgs 0).length := by decide
theorem test_put : (after (.put 0 (pk 1 4 [1, 2, 3, 4])) wN).byteAt 5 = 2 ∧ (after (.put 0 (pk 1 4 [1, 2, 3, 4])) wN).rtWait.map (·.p.status) = [0] := by
  decide
theorem test_qmsg : ((after (.qmsg 0 (pk 5 0xA000000300 (toBytes 8 7))) wN).queue 0 3).words = [pw 7] := by decide
theorem test_ctrl_filtered : (after (.ctrl 0 { pk 9 RT_DEVICE.adr [] with body := toBytes 8 RT_DEVICE.adr ++ [1] }) wN).has (RT_EVT.adr 0) RT_EVT.FILTERED = true := by
  decide

/-- PacketRouting: this device is 1; entry 5 of slice 0 names links 0 and 1, which are up with credits. -/
def wRt (c0 c1 : Nat) : State :=
  ((((((((wK 5 0 LinkSt.reset).setDom 153 1).setTs 1 5).setPs 1 0).wr RT_DEVICE.adr 0).setF RT_DEVICE.adr RT_DEVICE.VALID 1).setF RT_DEVICE.adr
    RT_DEVICE.DEVICE 1).setF (LNK_VC.adr 0 0) LNK_VC.CRED c0).setF (LNK_VC.adr 1 0) LNK_VC.CRED c1
theorem witness_PacketRouting : (wRt 1 2).devValid = true ∧ (wRt 1 2).ownDev = 1 ∧ (pk 1 0 []).dest ≠ 1 ∧ (wRt 1 2).usable 0 (pk 1 0 []) = [] ∧
    ({ wRt 1 2 with epochWait := [0] } : State).oldPkts 0 = 0 ∧ (w.devValid = false ∧ pk0.hops = 0 ∧ pk0.src = w.ownDev) := by decide
/-- The route to device 0 names ports 0 and 1. -/
def wRt2 (c0 c1 : Nat) : State := (wRt c0 c1).wr (RT_ENTRY.adr 0 0 0) (fput RT_ENTRY.CVALID 3 0x100)
theorem witness_routes : (wRt2 1 2).usable 0 (pk 1 0 []) = [0, 1] ∧ (wRt2 1 2).ps 0 = 0 ∧ (wRt2 1 2).cred 0 0 = 1 ∧ (wRt2 0 0).cred 1 0 = 0 ∧
    (wRt2 0 0).cred 0 1 = 0 ∧ (pk 1 0 []).hops ≠ 63 ∧ (wRt2 1 2).isOn (296 + 0) = true ∧ (wRt2 1 2).isOn (296 + 1) = false ∧
    ((wRt2 1 2).usable 0 (pk 1 0 [])).filter (fun n => (wRt2 1 2).ps n == 0) = [0, 1] ∧ ((wRt2 1 2).setF (LNK_VC.adr 0 1) LNK_VC.CRED 1).cred 0 1 ≠ 0 ∧
    (((wRt2 1 2).setPs 0 1).usable 0 (pk 1 0 [])).filter (fun n => ((wRt2 1 2).setPs 0 1).ps n == 0) = [1] := by decide
theorem test_route : ((after (.packetRoute 0 0 (pk 1 0 [])) (wRt2 1 2)).lk 1).txq.length = 1 ∧
    ((after (.packetRoute 0 0 (pk 1 0 [])) (wRt2 2 2)).lk 0).txq.length = 1 ∧ (after (.packetRoute 0 0 (pk 1 0 [])) (wRt2 0 0)).rtWait.length = 1 := by decide

/-- ResponsesAndGather: a load, a store and a QMSG that await their answer, one of them for its retry. -/
def oLoad : Outst := ⟨0, 0x1000, .load, 0x50000000000, { pk 2 0 [] with dest := 5, src := 0, tag := 1 }, 0, false⟩
def wO : State := { w.setDom 296 1 with outst := [oLoad, { oStore with retry := true }] }
theorem witness_ResponsesAndGather : wO.outst.find? (fun o => o.matches { pk0 with op := 3, resp := true, src := 5, tag := 1, srcid := coreSrcid 0x1000 }) = some oLoad ∧
    wO.outst.find? (fun o => o.p.tag == 0 && o.retry) = some { oStore with retry := true } ∧ wO.outst.find? (fun o => o.p.tag == 9) = none := by
  decide
/-- A core of tile 0 whose gather is bound, and one that has 64 words. -/
def wG (n st : Nat) : State := ({ (w.setDom 0 1) with cores := [(0, { Core.reset with running := true, gather := List.replicate n (pw 1), gstate := st, gaddr := queueBlock 5 2 3 })] })
theorem witness_gather : (wG 1 1).physTile (0 / 16) = some 0 ∧ ((wG 1 1).core 0).gaddr = queueBlock 5 2 3 ∧ (wG 1 1).qmsgBusy 0 5 = false ∧
    (wG 1 1).outstFull 0 = false ∧ ((wG 64 1).core 0).gather.length = 64 ∧ ((wG 0 2).core 0).gstate = 2 ∧ queueBlock 5 2 4 ≠ queueBlock 5 2 3 ∧
    ({ wG 1 1 with outst := [⟨0, 0, .qmsg, queueBlock 5 2 3, { pk0 with dest := 5 }, 0, false⟩] } : State).qmsgBusy 0 5 = true := by decide
/-- A QMSG to be sent again: a port of the core's die is in service, and none is; a fabric that is off and in transition. -/
theorem witness_retry : wO.coreSlice 0x1000 5 = some 0 ∧ (wO.setDom 296 0).coreSlice 0x1000 5 = none ∧
    (wG 1 1).ownFabric 0 = [(136, .off)] ∧ ((wG 1 1).setDom 136 3).ownFabric 0 = [(136, .transition)] := by decide
theorem test_gather_full : ((after (.gatherQpush 0 5 2 3 (pw 2)) (wG 64 1)).core 0).gstate = 2 ∧
    (after (.gatherQpush 0 5 2 3 (pw 2)) (wG 64 1)).fld (QGATHER.adr 0 0) QGATHER.DROPPED = 65 := by decide
theorem test_response : ((after (.responseReceive 0 { pk0 with op := 3, resp := true, src := 5, tag := 1, srcid := coreSrcid 0x1000, data := [1] }) wO).outst.length) = 1 ∧
    (after (.responseReceive 0 { pk0 with op := 3, resp := true, src := 6, tag := 1 }) wO).fld (RT_DISC.adr 0) RT_DISC.LATE_RESP = 1 := by decide

/-- TimeBaseAndExchange: the router is on; a correction of 2000 units steps, one of 10 slews; alarms armed ahead. -/
def wTm : State := { ((w.setDom 302 1).setF TB_CTL.adr TB_CTL.STEP_MIN 100).wr TIME_ALARM.adr 1000 with clock := { Clock.reset with timeArmed := true, aonArmed := true } }
theorem witness_TimeBaseAndExchange : wTm.isOn 302 = true ∧ (wTm.fld TB_CTL.adr TB_CTL.STEP_MIN : Int) < (2000#64).toInt ∧
    (10#64).toInt ≤ (wTm.fld TB_CTL.adr TB_CTL.STEP_MIN : Int) ∧ wTm.clock.timeArmed = true ∧ wTm.rd TIME_ALARM.adr ≠ BitVec.allOnes 64 ∧
    wTm.clock.gt.toNat < (wTm.rd TIME_ALARM.adr).toNat ∧ (wTm.rd TIME_ALARM.adr).toNat ≤ (wTm.clock.gt + 2000).toNat ∧
    (wTm.setF AON_ALARM.adr AON_ALARM.COUNT 7).fld AON_ALARM.adr AON_ALARM.COUNT ≠ 0xFFFFFFFFFFFF ∧ (w.setDom 302 0).isOn 302 = false ∧
    wTm.clock.internal = !true := by decide
/-- The same with no alarm, and with 5 and with -5 tbu still to slew. -/
def wRc : State := { wTm with clock := Clock.reset }
def wRs (x : Word) (n : Nat) : State := { (wRc.wr SLEW_LEFT.adr x) with clock := { Clock.reset with slewed := n } }
theorem witness_refclk : wRc.isOn 302 = true ∧ wRc.power.aonGood = true ∧ wRc.clock.timeArmed = false ∧ wRc.rd SLEW_LEFT.adr = 0 ∧
    wRc.refclk.clock.phase + 32768 < 100000000 ∧ 0 < ((wRs 5 0).rd SLEW_LEFT.adr).toInt ∧ ((wRs (-5) 0).rd SLEW_LEFT.adr).toInt < 0 ∧
    (wRs 1 (2 ^ 32 - 1)).clock.slewed < 2 ^ 32 := by decide
/-- R432: 10 ns are 0x2A_F31D_C461 of 2^-64 s, and a slew by 500 ppm adds 0x57F_5FF8 of them. -/
theorem test_refclk : wRc.idle.clock.gt = 0x2A ∧ wRc.idle.clock.frac = 0xF31DC461 ∧ (wRs 5 0).refclk.clock.gt = 0x2A ∧
    (wRs 5 0).refclk.clock.frac = 0xF89D2459 ∧ (wRs 5 (2 ^ 32 - 1)).refclk.rd SLEW_LEFT.adr = 4 ∧
    (wRs (-1) (2 ^ 32 - 1)).refclk.rd SLEW_LEFT.adr = 0 ∧
    ({ wRc with clock := { Clock.reset with phase := 99999000 } } : State).clockTick.clock.aon = 1 := by decide
theorem test_step : (after (.timeAdj 2000) wTm).clock.gt = 2000 ∧ (after (.timeAdj 2000) wTm).clock.timeArmed = false ∧
    (after (.timeAdj 10) wTm).rd SLEW_LEFT.adr = 10 := by decide
/-- A REQ of the exchange is sent to a parent on link 0; an answer 8 units early, and one with NOTLOCKED. -/
def wTs : State := ((wK 5 0 LinkSt.reset).setF TSYNC_CTL.adr TSYNC_CTL.ENABLE 1)
theorem witness_timeSync : wTs.has TSYNC_CTL.adr TSYNC_CTL.ENABLE = true ∧ wTs.has TSYNC_CTL.adr TSYNC_CTL.MASTER = false ∧ wTs.linkUp 0 = true ∧
    wTs.tsync.answered = true ∧ wTs.fld TSYNC_STAT.adr TSYNC_STAT.MISSED < 3 ∧ wTs.fld TSYNC_CTL.adr TSYNC_CTL.PARENT = 0 ∧
    ({ wTs with tsync := { wTs.tsync with answered := false } } : State).tsync.answered = false := by decide
theorem test_time_req : (after (.timeExchangeStart 5) wTs).tsync.seq = 1 := by decide

/-- CollectiveContexts: context 0 is a root of one submission with a good configuration; a refused one; a second submission. -/
def vColl : Word := fput COLL_CFG.NLOCAL 1 (fput COLL_CFG.COUNT 1 (fput COLL_CFG.OP 2 (fput COLL_CFG.ROOT 1 0)))
/-- Slice 0 is on. -/
def wCo : State := (wM kReady).setDom 296 1
def wCl : State := after (.collEnable 0 vColl) wCo
theorem witness_CollectiveContexts : wCo.has (collCfg 0) COLL_CFG.ENABLE = false ∧
    wCo.RefusedCfg 0 (collCfgValue (fput COLL_CFG.ENABLE 1 0)) ∧ ¬ wCo.RefusedCfg 0 (collCfgValue (fput COLL_CFG.ENABLE 1 vColl)) ∧
    wCl.has (collCfg 0) COLL_CFG.ENABLE = true ∧ wCl.collState 0 = 1 ∧ (wCl.collSt 0).locals = [] ∧
    (wCl.collSt 0).locals.length < wCl.fld (collCfg 0) COLL_CFG.NLOCAL ∧ wCl.collSeq 0 = fget COLL_SUBMIT.SEQ (0#64) ∧
    (5 : Nat) ∉ wCl.collChildren 0 ∧ (wCl.setF (COLL_CHILD_0.adr 0 0) ⟨0, 0⟩ 1).collChildren 0 = [0] := by
  unfold State.RefusedCfg
  decide
theorem test_coll_refused : (after (.collEnable 0 0) wCo).collState 0 = 4 ∧ (after (.collSubmit 0 0) wCl).collState 0 = 1 ∧
    (after (.collSubmit 0 0) (after (.collSubmit 0 0) wCl)).fld (collCnt 0) COLL_CNT.REFUSED = 1 := by decide
theorem test_coll_combine : (after (.collCombine 0) (after (.collSubmit 0 0) wCl)).collSeq 0 = 1 := by decide

/-! ## Mirroring and the receive log -/

/-- Slice 3 is on, the engine enabled and IDLE, the buddy up; granules 2 and 3 dirty. -/
def wCe (st : Nat) (q : CouchSt) : State :=
  { ((((wM kReady).setDom 299 1).setF CE_CTL.adr CE_CTL.ENABLE 1).setF CE_STAT.adr CE_STAT.BUDDY_UP 1).setF CE_STAT.adr CE_STAT.STATE st with couch := q }
def qDirty : CouchSt := { CouchSt.reset with marks := [(2, 1), (3, 1)] }
/-- An epoch in progress: BEGIN answered, granule 2 PENDING with a write waiting, 3 in flight. -/
def qRun : CouchSt := { CouchSt.reset with pend := [2], waiting := [(2, none)], flight := [(3, 0)], next := 1, began := true }
theorem witness_MirrorEpochs : (wCe 1 qDirty).isOn 299 = true ∧ (wCe 1 qDirty).has CE_CTL.adr CE_CTL.ENABLE = true ∧ (wCe 1 qDirty).ceState = 1 ∧
    (wCe 1 qDirty).has CE_STAT.adr CE_STAT.BUDDY_UP = true ∧ (wCe 1 qDirty).couch.dirty.length < 2 ^ 24 ∧ (wCe 3 qRun).ceState = 3 ∧
    (wCe 3 qRun).dataOut ≤ 496 ∧ (wCe 3 qRun).nextGranule = some 2 ∧ (wCe 3 qRun).couch.began = true ∧ (wCe 3 qRun).misfit 0 = false ∧
    ((wCe 3 { qRun with waiting := [(2, some 0)] }).couch.waiting.find? (fun w => w.1 == 2)).bind (fun w => w.2) = some 0 ∧ ((wCe 0 qDirty).setF (CE_EXT_SRC.adr 255) CE_EXT_SRC.VALID 1).has
      (CE_EXT_SRC.adr 255) CE_EXT_SRC.VALID = true ∧ (wCe 1 qDirty).fld CE_STAT.adr CE_STAT.MISSED + 1 < 255 := by decide
theorem test_mark : (after .ceMark (wCe 1 qDirty)).couch.pend = [2, 3] ∧ (after .ceMark (wCe 1 qDirty)).ceState = 3 ∧
    (after .ceMark (wCe 3 qDirty)).couch.pend = [] := by decide
theorem test_abort : (after .ceAbort (wCe 3 qRun)).couch.dirty = [2, 3] ∧ (after .ceAbort (wCe 3 qRun)).ceState = 1 := by decide
theorem test_full : (after (.extentFull 0) (((wCe 1 qDirty).setF (CE_EXT_SRC.adr 0) CE_EXT_SRC.VALID 1).wr (CE_EXT_SRC.adr 0)
    (fput CE_EXT_SRC.VALID 1 (fput CE_EXT_SRC.BASE 3 (fput CE_EXT_SRC.GRANULES 2 0))))).couch.dirty = [2, 3, 4] := by decide

/-- ReceiveLog: the log is enabled for source 5, idle, receiving epoch 7, or applying. -/
def wRx (st e : Nat) : State :=
  (((((((wM kReady).setDom 299 1).setDom 296 1).setF RX_CTL.adr RX_CTL.ENABLE 1).setF RX_CTL.adr RX_CTL.SRC 5).setF RX_STAT.adr RX_STAT.STATE st).setF
    RX_LOGSTAT.adr RX_LOGSTAT.EPOCH e).setF RX_LOG.adr RX_LOG.SIZE 8
/-- A COUCH packet of device 5. -/
def pkC (b : List Byte) : Packet := { pk 8 0 [] with body := b }
theorem witness_ReceiveLog : (wRx 1 0).isOn 299 = true ∧ (wRx 1 0).isOn (296 + 0 / 36) = true ∧ (wRx 1 0).isOn (296 + 36 / 36) = false ∧
    (wRx 1 0).misfit 0 = false ∧ (wRx 1 0).takeIn 0 (pkC (couchBody 1 0 0 7 2 0)) = (wRx 1 0, some (pkC (couchBody 1 0 0 7 2 0))) ∧ (wRx 1 0).has RX_CTL.adr RX_CTL.ENABLE = true ∧
    (pkC (couchBody 1 0 0 7 2 0)).src = (wRx 1 0).fld RX_CTL.adr RX_CTL.SRC ∧ (wRx 1 0).rxState = 1 ∧ cEpoch (pkC (couchBody 1 0 0 7 2 0)) = 7 ∧
    cCount (pkC (couchBody 1 0 0 7 2 0)) = 2 ∧ newer 7 (wRx 1 0).rxCommitted = true ∧ newer 0 (wRx 1 0).rxCommitted = false ∧
    (wRx 2 7).rxState = 2 ∧ (wRx 2 7).fld RX_LOGSTAT.adr RX_LOGSTAT.EPOCH = 7 ∧ (wRx 3 7).rxState = 3 ∧
    ((wRx 1 0).dramRead .engine false 0 16).ans = .ok ∧ (wRx 2 7).fld RX_LOG.adr RX_LOG.SIZE < 9 := by decide
/-- Link 0 is listed and in service, and its identity is not known to be the buddy's. -/
theorem witness_misfit : ((wK 5 0 LinkSt.reset).wr CE_GROUP.adr 0).misfit 0 = true := by decide
theorem test_begin : (after (.couchBegin 0 (pkC (couchBody 1 0 0 7 2 0))) (wRx 1 0)).rxState = 2 ∧
    (after (.couchBegin 0 (pkC (couchBody 1 0 0 7 9 0))) (wRx 1 0)).has RX_EVT.adr RX_EVT.REJECTED = true := by decide
theorem test_discard : (after .discard (wRx 2 7)).has RX_EVT.adr RX_EVT.DISCARDED = true ∧ (after .discard (wRx 1 7)).has RX_EVT.adr RX_EVT.DISCARDED = false := by
  decide

/-! ## The chain, service cores and start-up -/

/-- The chain master with a device below it; a member at position 3. -/
def wCh (role : Nat) : State := ((w.setF CHAIN_STAT.adr CHAIN_STAT.ROLE role).setF CHAIN_STAT.adr CHAIN_STAT.DOWN_CONN 1)
theorem witness_ChainAndServiceFrames : (wCh 1).chainMaster = true ∧ (wCh 1).chStat CHAIN_STAT.DOWN_CONN = 1 ∧
    ((wCh 2).setF CHAIN_STAT.adr CHAIN_STAT.UP_CONN 1).chainMember = true ∧ (wCh 2).phase ≠ 4 ∧ (wCh 0).chainMaster = false ∧ (wCh 0).chainOn = false ∧
    (wCh 1).chainOn = true ∧ bytesAt (List.replicate 16 (0x10 : Byte)) 0 1 = 0x10 ∧ (wCh 1).chain.demoted = false ∧
    ({ (wCh 1) with chain := { (wCh 1).chain with sent := some (List.replicate 16 0x10), times := 8 } } : State).chain.sent = some (List.replicate 16 0x10) ∧ (wCh 1).chain.sent = none ∧
    (wCh 1).has MGMT_CTL.adr MGMT_CTL.ENABLE = false ∧ ((wCh 1).setF MGMT_CTL.adr MGMT_CTL.ENABLE 1).has MGMT_CTL.adr MGMT_CTL.ENABLE = true := by decide
/-- A frame and an ENUM both wait; the ENUM longer, or sent its 8 times. -/
def wTwo (enumFirst : Bool) (times : Nat) : State :=
  { wCh 1 with chain := { (wCh 1).chain with sent := some [], times := 1, enum := some [], enumTimes := times, enumFirst := enumFirst } }
theorem witness_chain_waits : (wTwo true 1).chain.enumFirst = true ∧ (wTwo true 1).chain.enum = some [] ∧ (wTwo false 8).chain.sent = some [] ∧
    8 ≤ (wTwo true 8).chain.enumTimes := by decide
theorem test_resend_older : (after .chainResend (wTwo true 1)).chain.enumTimes = 2 ∧ (after .chainResend (wTwo false 1)).chain.times = 2 := by decide
theorem test_enum_done : (after (.chainEnumDone ⟨3, 9, 4⟩) ((wCh 1).setF CHAIN_CMD.adr CHAIN_CMD.ENUM 1)).fld CHAIN_STAT.adr CHAIN_STAT.MEMBERS = 4 := by decide
theorem test_chain_bad : (after (.chainFrameReceive true ([0xAA, 0xAB] ++ List.replicate 18 0x10)) (wCh 1)).has CHAIN_EVT.adr CHAIN_EVT.ERR = true ∧
    (after (.chainFrameReceive true (List.replicate 20 0x10)) (wCh 1)).has CHAIN_EVT.adr CHAIN_EVT.ERR = false := by decide

/-- ServiceCoresAndTileCores: a standby that waits, and none; pages; a tile that runs; the log open and frozen. -/
theorem witness_ServiceCoresAndTileCores : w.isOn 301 = true ∧ w.standby = some 1 ∧ (w.setF SVC_STAT.adr SVC_STAT.DIS 2).standby = none ∧
    (w.setF SVC_WDOG.adr SVC_WDOG.PERIOD 5).has SVC_WDOG.adr SVC_WDOG.PERIOD = true ∧ (w.setDom 0 1).isOn 0 = true ∧ (w.setDom 0 1).logTile 0 = some 0 ∧
    nbit 15 (w.rd (TILE_BOOT_RUN.adr 0)).toNat = false ∧ (w.setF BB_WR_TYPE.adr BB_WR_TYPE.TYPE 0x100).fld BB_WR_TYPE.adr BB_WR_TYPE.TYPE = 0x100 ∧
    w.wptr = [0, 0, 0] ∧ w.isOn 3 = false ∧ w.logTile 16 = none := by decide
/-- TILE_MOVE: a position that is off, one past the die, one in use by another slot, and the slot's own. -/
theorem witness_tileMove : w.isOn 2 = false ∧ (∃ o, w.logTile 2 = some o ∧ o ≠ 0) ∧ 16 < fget TILE_MOVE.POSITION (fput TILE_MOVE.POSITION 17 0) ∧
    w.logTile 0 = some 0 ∧ (w.setDom 0 1).isOn 0 = true ∧ w.logTile 16 = none ∧ w.tileCore 16 15 = 0x210F ∧
    State.reset.ctrl = [] ∧ fget HOME_MAP.VALID (resetVal (HOME_MAP.adr 1023)) = 0 ∧ (w.accessWake 0).dom 0 = 0 ∧ ((w.setDom 0 2).accessWake 0).dom 0 ≠ 0 := by decide
theorem test_spare_core : ((after (.tileCoreStart 16 15) (w.setDom 16 1)).core 0x210F).running = true := by decide
theorem test_handover : (after .handover w).fld SVC_STAT.adr SVC_STAT.ACTIVE = 1 ∧ (after .handover w).fld SVC_STAT.adr SVC_STAT.CAUSE = 1 ∧
    ((after .handover w).core 0x1000).running = false := by decide
theorem test_core_start : ((after (.tileCoreStart 0 15) (w.setDom 0 1)).core 15).running = true := by decide
theorem test_bb_write : (after .bbWrGo (w.setF BB_WR_TYPE.adr BB_WR_TYPE.TYPE 0x100)).wptr = [1, 1, 1] ∧ (after .bbWrGo w).wptr = [0, 0, 0] := by decide

/-- FuseCommandsAndFlash. -/
def wFu (arg : Word) : State := { w.wr FUSE_ARG.adr arg with booted := ⟨[], 20, 0⟩, flashCap := (2 ^ 26, 0) }
theorem witness_FuseCommandsAndFlash : (wFu 20).isOn 301 = true ∧ (wFu 20).has FUSE_CMD.adr FUSE_CMD.BUSY = false ∧
    nbits 6 0 20 ≤ (wFu 20).booted.rollback ∧ (wFu 21).booted.rollback < nbits 6 0 21 ∧ (wFu 20).goodSlots ≠ [nbits 49 48 20] ∧
    ((wFu 0).setF FUSE_STATE.adr FUSE_STATE.PROG 1).goodSlots = [nbits 49 48 0] ∧ ((wFu 20).setF FUSE_CMD.adr FUSE_CMD.BUSY 1).has FUSE_CMD.adr FUSE_CMD.BUSY = true ∧
    fget FUSE_CMD.CONFIRM (fput FUSE_CMD.CONFIRM 0x4B58 0) = 0x4B58 ∧ (wFu 0).has SIG_CMD.adr SIG_CMD.GO = false ∧
    0x1000 + 64 ≤ (wFu 0).flashCap.1 ∧ inSram 0xF000000000 64 = true ∧ ((wFu 0).flashCap.2 : Nat) < 0 + 1 := by decide
theorem test_fuse : (after .fuseCmdDone (after .rollbackAdv (wFu 20))).fuseSt FUSE_STATE.LEVEL = 20 ∧
    (after .rollbackAdv (wFu 21)).fld FUSE_CMD.adr FUSE_CMD.RESULT = 1 ∧ (after (.fuseCmdInvalid 1) (wFu 0)).fld FUSE_CMD.adr FUSE_CMD.RESULT = 2 := by decide
theorem test_erase : (after (.xspiErase false) { ((wFu 0).setF XSPI_LEN.adr XSPI_LEN.BYTES 1) with flash := [(5, 0x00), (0x10005, 0x00)] }).flash = [(0x10005, 0x00)] := by
  decide

/-- ImageChecksAndBoot: an empty header, one of no slot; the boot, recovery and chain boot phases. -/
theorem witness_ImageChecksAndBoot : imgEmpty (List.replicate 4096 0xFF) = true ∧ imgEmpty (toBytes 4 0x5654584B ++ toBytes 4 1) = false ∧
    (w.setF BOOT_STAT.adr BOOT_STAT.PHASE 1).phase = 1 ∧ (w.setF BOOT_STAT.adr BOOT_STAT.PHASE 3).phase = 3 ∧
    (w.setF BOOT_STAT.adr BOOT_STAT.PHASE 4).phase = 4 ∧ w.fuseSt FUSE_STATE.LOAD_ERR = 0 := by decide

/-! ## Power, board and crossings -/

/-- Tile 0 in state `st` with NAP enabled; its cores are idle. -/
def wD (st : Nat) : State := ((w.setDom 0 st).setF (DOM_CTL.adr 0) DOM_CTL.NAP_EN 1).setF (DOM_CTL.adr 0) DOM_CTL.OFF 0
theorem witness_TileAndDomainStates : (wD 2).dom 0 = 2 ∧ (wD 1).isOn 0 = true ∧ (wD 1).has (DOM_CTL.adr 0) DOM_CTL.NAP_EN = true ∧
    (∀ c ∈ (wD 1).tileCores 0, ((wD 1).core c).idle = true ∧ ((wD 1).core c).sleepRes = none) ∧
    ((wD 1).setF (DOM_CTL.adr 0) DOM_CTL.IDLE_LIMIT 1).has (DOM_CTL.adr 0) DOM_CTL.IDLE_LIMIT = true ∧ (wD 3).napDrained 0 = true ∧
    (wD 4).power.goingOff = [] ∧ (wD 5).dom 0 = 5 ∧ (∀ g, g < 16 → (wD 1).homeNamed 0 g = false) ∧
    (wD 1).has CE_CTL.adr CE_CTL.ENABLE = false ∧ (wD 1).has RX_CTL.adr RX_CTL.ENABLE = false := by decide
/-- KEEP for segment 9, SHED for segments 3 and 12. -/
def wRet : State := (wD 2).wr (TILE_RET.adr 0) 0x01000040
theorem test_nap : (after (.napEntryComplete 0) (wD 3)).dom 0 = 2 ∧ (after (.napWake 0 1 false) (wD 2)).dom 0 = 4 ∧
    (after (.napExitComplete 0) (wD 4)).dom 0 = 1 ∧ (after (.napNow 0) (wD 1)).dom 0 = 3 := by decide
theorem test_domain_off : (after (.domainOffRequest 0) (wD 1)).dom 0 = 0 ∧ (after (.domainOffRequest 301) w).has (DOM_STAT.adr 301) DOM_STAT.REFUSED = true ∧
    (after (.domainOffRequest 0) (wD 4)).power.goingOff = [0] ∧ (after (.domainPowerUp 0) (w.setDom 0 0)).dom 0 = 5 := by decide
theorem witness_ramps : levelled 0 = true ∧ (wD 1).effLevel 0 = (wD 1).fld (DOM_CTL.adr 0) DOM_CTL.LEVEL ∧ (wD 1).power.ramping = [] ∧
    (wD 1).power.waiting = [] ∧ (wD 1).volt 0 < levelVolt (((wD 1).setF (DOM_CTL.adr 0) DOM_CTL.LEVEL 7).effLevel 0) ∧
    ({ wD 1 with power := { (wD 1).power with volt := [(0, 900)] } } : State).volt 0 > levelVolt (((wD 1).setF (DOM_CTL.adr 0) DOM_CTL.LEVEL 0).effLevel 0) := by decide
theorem test_ramp : (after (.levelRampEnd 0) (after (.levelRampStart 0) ((wD 1).setF (DOM_CTL.adr 0) DOM_CTL.LEVEL 7))).fld (DOM_STAT.adr 0) DOM_STAT.LEVEL_NOW = 7 := by
  decide

/-- Tile 0 with core 0 running, with an unnamed dirty line in segment 0, and as one on its way to OFF. -/
def wRun : State := (wD 1).setCore 0 { Core.reset with running := true }
def wDirty : State := { wD 3 with tags := [⟨0, 3, 5, true⟩] }
def wGoing (st : Nat) : State := { wD st with power := { (wD st).power with goingOff := [0] } }
theorem witness_tile_conditions : wRun.heldCore 0 = false ∧ (wRun.core 0).running = true ∧ (w.setDom 301 0).isOn 301 = false ∧
    (∃ t ∈ wDirty.tags, t.seg / 16 = 0 ∧ t.dirty = true ∧ wDirty.homeNamed 0 (t.seg % 16) = false) ∧ 0 ∈ (wGoing 3).power.goingOff ∧
    (wGoing 3).napDrained 0 = true ∧ (wGoing 4).dom 0 = 4 ∧ (w.setDom 299 1).dom 299 ≠ 0 ∧
    (wD 2).segPolicy 0 3 ≠ 2 ∧ 32 ≤ (numsFrom 0 32).length := by decide

/-- DeviceStatesAndResets: entering at a point, with a wake kept; dormant; in HOLD; the limits; a pin low. -/
def wPd (st res point : Nat) : State :=
  ((w.setF PWR_DEV_STAT.adr PWR_DEV_STAT.STATE st).setF PWR_DEV_STAT.adr PWR_DEV_STAT.RESULT res).setF PWR_DEV_STAT.adr PWR_DEV_STAT.POINT point
theorem witness_DeviceStatesAndResets : (wPd 3 5 2).isOn 301 = true ∧ (wPd 3 5 2).devStat PWR_DEV_STAT.RESULT = 5 ∧
    (wPd 3 5 2).devStat PWR_DEV_STAT.POINT < 3 ∧ (wPd 3 5 2).power.devWake = none ∧ (wPd 1 0 0).devStat PWR_DEV_STAT.STATE = 1 ∧
    (wPd 4 0 0).devStat PWR_DEV_STAT.STATE = 4 ∧ (∀ p, p < 136 → (wPd 3 5 0).dom p = 0 ∨ (wPd 3 5 0).dom p = 2) ∧
    ((wPd 3 5 1).setF PWR_DEV_CMD.adr PWR_DEV_CMD.REQ 2).fld PWR_DEV_CMD.adr PWR_DEV_CMD.REQ = 2 ∧ (wPd 3 5 1).holdQuiet = true ∧
    aonSource 7040 = true ∧ w.fuse = none ∧ w.power.aonGood = true ∧ w.power.powerGood = true ∧ w.power.rstLow = false := by decide
theorem witness_tokens : w.has PCAP_XFER.adr PCAP_XFER.GO = false ∧ w.tokens 0 < fget PCAP_XFER.AMOUNT (fput PCAP_XFER.AMOUNT 0xFFF 0) ∧
    (w.setF PCAP_XFER.adr PCAP_XFER.GO 1).has PCAP_XFER.adr PCAP_XFER.GO = true ∧ w.fld PKG_CTL.adr PKG_CTL.LIMIT_W * 95 ≤ w.fld PKG_CTL.adr PKG_CTL.LIMIT_W * 100 ∧
    (dieSensors 0).length = (List.replicate (dieSensors 0).length (0#16)).length := by decide
theorem test_hold : (after .devEntryComplete ((wPd 3 5 2).setF PWR_DEV_CMD.adr PWR_DEV_CMD.REQ 1)).devStat PWR_DEV_STAT.STATE = 1 ∧
    (after .devReqOn (wPd 1 0 0)).devStat PWR_DEV_STAT.STATE = 0 ∧ (after .devReqDormant (wPd 0 0 0)).devStat PWR_DEV_STAT.RESULT = 4 := by decide
theorem test_reset_pin : (after (.deviceReset 2) w).power.rstLow = true ∧ (after (.deviceReset 2) w).dom 301 = 0 ∧
    ((after (.deviceResetRelease ⟨0, 0, false, false, false⟩ .absent (.log2 26)) (after (.deviceReset 2) w)).core 0x1000).pc = 0xF100000000 := by decide
theorem test_pkg : (after (.pkgPowerWindow 0xFFFF) (w.setF PKG_CTL.adr PKG_CTL.ENABLE 1)).power.pkgDrop = 1 := by decide

/-- An entry to DORMANT or HOLD at a point, with a wake kept or not. -/
def wEnt (point : Nat) (dorm : Bool) (k : Option WakeNote) : State :=
  { wPd 3 5 point with power := { (wPd 3 5 point).power with devDorm := dorm, devWake := k } }
theorem witness_entry_points : (wEnt 0 true none).devStat PWR_DEV_STAT.STATE = 3 ∧ (wEnt 2 true none).power.devDorm = true ∧
    (wEnt 3 true none).devStat PWR_DEV_STAT.POINT = 3 ∧ (wEnt 3 true (some ⟨1, 7⟩)).power.devWake ≠ none ∧ (wPd 2 0 0).devStat PWR_DEV_STAT.STATE = 2 ∧
    (w.wr (WW_SLOT.adr 0) (fput WW_SLOT.ENABLE 0 1 ||| fput WW_SLOT.ACTION 0 2 ||| fput WW_SLOT.SOURCE 0 7040)).rd (WW_SLOT.adr 0) ≠ 0 ∧
    (w.setF RX_CTL.adr RX_CTL.ENABLE 1).has RX_CTL.adr RX_CTL.ENABLE = true ∧ ({ w with fuse := some ⟨0, 0, []⟩ } : State).fuse ≠ none := by decide
theorem test_entry : (after .devEntryComplete (wEnt 3 true (some ⟨1, 7⟩))).devStat PWR_DEV_STAT.RESULT = 2 ∧
    (after (.deviceWake 7 false) (wPd 2 0 0)).devStat PWR_DEV_STAT.STATE = 4 ∧ (after (.deviceWake 7 false) (wPd 2 0 0)).out = [.wakeOut] := by decide
/-- The package limit with the power low for `n` windows; die 0 capped by one level. -/
def wPkg (drop n : Nat) : State := { w.setF PKG_CTL.adr PKG_CTL.ENABLE 1 with power := { w.power with pkgDrop := drop, pkgBelow := n } }
def wHot : State := { w with power := { w.power with capped := [(0, 1)] } }
theorem witness_limits : (wPkg 2 9).has PKG_CTL.adr PKG_CTL.ENABLE = true ∧ 9 ≤ (wPkg 2 9).power.pkgBelow ∧ 1 < (wPkg 2 9).power.pkgDrop ∧
    (wPkg 1 9).power.pkgDrop ≤ 1 ∧ (wPkg 1 3).power.pkgBelow < 9 ∧ wHot.power.capped.get 0 0 = 1 ∧
    ({ w with power := { w.power with xferWait := true } } : State).power.xferWait = true ∧
    ({ w with power := { w.power with aonGood := false } } : State).power.aonGood = false ∧ ({ w with wptr := [5, 5, 5] } : State).wptr = [5, 5, 5] := by decide

/-- BoardInterfaces. -/
theorem witness_BoardInterfaces : w.SmbOk ⟨0x5A, some true⟩ ∧ w.SmbOurs ⟨0x5A, some false⟩ ∧ ¬ w.SmbOk ⟨0x5A, some false⟩ ∧ ¬ w.SmbOurs ⟨0x5B, none⟩ := by
  refine ⟨⟨⟨by decide, by decide⟩, .inl rfl⟩, ⟨by decide, by decide⟩, ?_, ?_⟩
  · rintro ⟨-, h | ⟨h, -⟩⟩ <;> cases h
  · rintro ⟨-, h⟩; revert h; decide
/-- The PCIe block is on, and inbound window 1 is valid for reads at 4 GiB. -/
def wPc : State := (((w.setDom 300 1).setF (PCIE_IN_BASE.adr 1) PCIE_IN_BASE.VALID 1).setF (PCIE_IN_BASE.adr 1) PCIE_IN_BASE.BASE 4).setF (PCIE_IN_BASE.adr 1) PCIE_IN_BASE.READ 1
def rqRd : PcieReq := ⟨false, false, 2 ^ 32 + 8, 4, [], false⟩
theorem witness_pcie : wPc.isOn 300 = true ∧ (w.setDom 300 0).isOn 300 = false ∧ wPc.InWindow rqRd 1 ∧ ¬ wPc.InWindow rqRd 0 ∧
    wPc.InWindow { rqRd with addr := 2 ^ 32 + 2 ^ 30 - 1 } 1 ∧ ¬ wPc.InWindow { rqRd with addr := 2 ^ 32 - 1 } 1 ∧ wPc.pcieHeld = [] ∧
    pcieMem (wPc.fld (PCIE_IN_MAP.adr 1) PCIE_IN_MAP.LOCAL * 2 ^ 30 + 8) 4 = true ∧ wPc.endpoint = false ∧
    (∀ o, o < 8 → wPc.msixByte (1024 + o) = 0) := by
  unfold State.InWindow
  decide
/-- Endpoint mode, with vector 3 masked or pending; outbound reads in flight. -/
def wEp (mask : Byte) : State := (wPc.setF PCIE_STAT.adr PCIE_STAT.MODE 1).setMsix 60 mask
theorem witness_pcie_modes : (wEp 1).endpoint = true ∧ ((wEp 1).msixByte (16 * 3 + 12)).getLsbD 0 = true ∧ ((wEp 0).msixByte 60).getLsbD 0 = false ∧
    (((wEp 0).setMsix 1024 8).msixByte 1024).getLsbD 3 = true ∧ ({ rqRd with bar2 := true } : PcieReq).bar2 = true ∧
    ({ wPc with pcieAsks := [⟨some (.svc 0), 0, true⟩] } : State).pcieAsks = ⟨some (.svc 0), 0, true⟩ :: [] ∧
    ({ wPc with pcieAsks := [⟨none, 0, false⟩] } : State).pcieAsks = ⟨none, 0, false⟩ :: [] ∧
    (wPc.setF PCIE_OUT_CMD.adr PCIE_OUT_CMD.GO 1).has PCIE_OUT_CMD.adr PCIE_OUT_CMD.GO = true ∧ ({ wPc with pcieHeld := [rqRd] } : State).pcieHeld = rqRd :: [] := by decide
theorem test_msi : ((after (.msiWrite 63) (wPc.setSrc 7263 { EvSource.reset 7263 with masked := false })).src 7263).count = 1 ∧
    (after (.msiWrite 64) wPc).has PCIE_EVT.adr PCIE_EVT.MSI_BAD = true := by decide
theorem test_ur : (after (.pcieInbound { rqRd with addr := 0 }) wPc).out = [.pcieDone 1 [] false] := by decide
theorem test_smb : (after (.smbMailboxWrite ⟨0x5A, none⟩ [1, 2, 3, 4]) w).fld BRD_MBOX.adr BRD_MBOX.VALUE = 0x04030201 ∧
    (after (.smbMailboxWrite ⟨0x5A, some false⟩ [1, 2, 3, 4]) w).out = [.smbus false []] := by decide
theorem test_pmb : (after (.pmbWriteByte 0x1234) w).has PMB_CMD.adr PMB_CMD.GO = true ∧ (after (.pmbDone 0 0x1FF) ((w.setF PMB_CMD.adr PMB_CMD.GO 1).setF
    PMB_CMD.adr PMB_CMD.PROTO 3)).rd PMB_DATA.adr = 0xFF := by decide
theorem witness_jtag : ((0x80#8).toNat < 0xC0 ∧ 0x80 ≤ (0x80#8).toNat) ∧ (0x7F#8).toNat < 0x80 ∧ 0xC0 ≤ (0xC0#8).toNat ∧ w.fld FUSE_STATE.adr FUSE_STATE.DEBUG_CLOSE = 0 := by
  decide
theorem test_idcode : (after .idcode w).out = [.tdo ((List.range 32).map fun i => Nat.testBit 0x1204878B i)] := by decide

/-- CrossingsCalibrationAndRegisters: the time window's delay lines and the service window's crossings. -/
def wX4 (c : Crossing) : State := w.putXing (.mc 0) 4 c
theorem witness_CrossingsCalibrationAndRegisters : Window.svc.ok = true ∧ w.isOn (winDom .svc) = true ∧
    0 < w.fld (CAL_LINES.adr (winBase .svc)) CAL_LINES.COUNT ∧ (Window.mc 0).xOk 4 = true ∧ xKind (.mc 0) 4 = 4 ∧ w.xState (.mc 0) 4 = 1 ∧
    Window.svc.xOk 15 = true ∧ (xKind .svc 15 = 1 ∨ xKind .svc 15 = 2) ∧ w.aonQueue = [] ∧ blkOf PCIE_OUT_ADDR.adr ≠ .none ∧ w.power.held = [] ∧
    fset? TILE_MAP.ABSENT (16#64) = false ∧ fget TILE_MAP.POSITION (16#64) ≤ 16 ∧
    (∀ j, j < 16 → j ≠ 0 → w.physTile (7 * 16 + j) ≠ some (7 * 17 + fget TILE_MAP.POSITION (16#64))) ∧
    (∃ j, j < 16 ∧ j ≠ 0 ∧ w.physTile (7 * 16 + j) = some (7 * 17 + fget TILE_MAP.POSITION (3#64))) := by decide
/-- Crossing 10 of the service window in RESYNC, with a setting held and one behind it. -/
def wTen (st : Nat) : State := { w.setF (XSTAT.adr (winBase .svc) 10) XSTAT.STATE st with
  aonQueue := [⟨.svc 0, AON_ALARM.adr, 9, false⟩], aonWait := [⟨.svc 1, BRD_SMB.adr, 8, true⟩] }
/-- The HFR crossing 10 with a held and a pending value; a queue with its destination stopped. -/
def wHfr : State := w.putXing .svc 10 { Crossing.reset with held := some 1, next := some 2, cur := some 2 }
theorem witness_crossing_states : xKind .svc 10 = 3 ∧ (wTen 1).xState .svc 10 = 1 ∧ (wTen 0).xState .svc 10 = 0 ∧ (wTen 1).aonWait ≠ [] ∧
    (wHfr.xing .svc 10).held ≠ none ∧ (wHfr.xing .svc 10).next ≠ none ∧ aonSetting AON_ALARM.adr = true ∧
    (w.setF (XSTAT.adr (winBase .svc) 15) XSTAT.STATE 2).xState .svc 15 = 2 ∧ xClockless .svc 15 = false ∧ xClockless .svc 10 = true ∧
    pulseSource .svc 12 = none ∧ pulseSource .pcie 5 = none ∧ (w.setF (XSTAT.adr (winBase .svc) 15) XSTAT.DST_STOPPED 1).has
      (XSTAT.adr (winBase .svc) 15) XSTAT.DST_STOPPED = true ∧ ({ w with calPos := [(winBase .svc, 2)] } : State).calPos.get 0 (winBase .svc) ≠ 0 := by decide
theorem test_ten : (after (.resyncHoldTimeout .svc 10) (wTen 1)).aonAcks = [⟨.svc 1, BRD_SMB.adr, false⟩] ∧
    (after (.hfrOffer .svc 10 3) wHfr).has (XSTAT.adr (winBase .svc) 10) XSTAT.OVERRUN = false := by decide
theorem test_tile_map : (after (.tileMapUpdate 7 0 16) w).physTile 112 = some 135 ∧ (after (.tileMapUpdate 7 0 3) w).physTile 112 = some 119 := by decide
theorem test_pulse : ((after (.pulseEvent (.mc 0) 4) w).xing (.mc 0) 4).counter = 1 ∧
    (after (.pulseEvent (.mc 0) 4) (wX4 { Crossing.reset with counter := 15 })).has (XSTAT.adr (winBase (.mc 0)) 4) XSTAT.OVERRUN = true := by decide
theorem test_aon_setting : (after (.aonSettingWrite (.svc 0) AON_ALARM.adr 9) w).aonQueue = [⟨.svc 0, AON_ALARM.adr, 9, false⟩] := by decide
theorem test_register_write : (after (.registerWrite (.svc 0) PCIE_OUT_ADDR.adr 0x55) (w.setDom 300 1)).rd PCIE_OUT_ADDR.adr = 0x55 := by decide

/-! ## The idle step and the queue -/

theorem witness_EveryCommandCompletes : State.reset.pending = [] ∧ ({ w with pending := [.kick] } : State).pending = .kick :: [] := ⟨rfl, rfl⟩
theorem witness_SyllableWordsDecode : (Op.alu .add 63 63 (.imm 0x3FF)).ok 1 = true ∧ (decodeSyl 0x80030421).op = .bad 0x30421 := by decide

end Sys2Proof.Tests
end

section
/-!
SUPPORT. What the fields of a register read after an update of a field of it or of another register, and the effect of an
arrival on registers: those of the handshake windows keep their values.
-/

namespace Sys2Proof.Machine

/-! ## Fields after a write of a field -/

/-- A field reads back what was put into it, modulo its width. -/
theorem State.fld_setF (s : State) (a : Nat) (f : Fld) (v : Nat) (h : f.lo ≤ f.hi ∧ f.hi < 64) :
    (s.setF a f v).fld a f = v % 2 ^ (f.hi - f.lo + 1) := by
  simp [State.fld, State.rd_setF, fget_fput f v _ h]

/-- A field that shares no bit with the one written keeps its value. -/
theorem State.fld_setF_apart (s : State) (a b : Nat) (f g : Fld) (v : Nat) (h : g.hi < f.lo ∨ f.hi < g.lo)
    (hg : g.lo ≤ g.hi) (hf : f.lo ≤ f.hi) : (s.setF a f v).fld b g = s.fld b g := by
  unfold State.fld
  rw [State.rd_setF]
  split
  · next e => subst e; exact fget_fput_ne f g v _ h hg hf
  · rfl

/-- Every other register keeps its value. -/
theorem State.rd_setF_ne (s : State) (a b : Nat) (f : Fld) (v : Nat) (h : b ≠ a) : (s.setF a f v).rd b = s.rd b := by
  simp [State.rd_setF, h]

theorem State.fld_setF_ne (s : State) (a b : Nat) (f g : Fld) (v : Nat) (h : b ≠ a) :
    (s.setF a f v).fld b g = s.fld b g := by
  simp [State.fld, State.rd_setF, h]

/-- A field raised with saturation reads the sum, at most its highest value. -/
theorem State.fld_satF (s : State) (a : Nat) (f : Fld) (n : Nat) (h : f.lo ≤ f.hi ∧ f.hi < 64) :
    (s.satF a f n).fld a f = min (2 ^ (f.hi - f.lo + 1) - 1) (s.fld a f + n) := by
  unfold State.satF
  rw [State.fld_setF _ _ _ _ h]
  have : 0 < 2 ^ (f.hi - f.lo + 1) := Nat.two_pow_pos _
  exact Nat.mod_eq_of_lt (by omega)

/-! ## Registers that no arrival touches -/

/-- A register in no block of the hub and the power domains, and at no place of the 64-byte grid where a domain's status
stands: those of the handshake windows but CAL_SEL. -/
def farFromEvents (a : Nat) : Prop := (a < 0xC050000000 ∨ 0xC070000000 ≤ a) ∧ a % 0x40 ≠ 8

/-- From `s` to `t` no register far from events has changed. -/
def State.FarKept (s t : State) : Prop := ∀ a, farFromEvents a → t.rd a = s.rd a

theorem State.FarKept.refl (s : State) : s.FarKept s := fun _ _ => rfl
theorem State.FarKept.trans {a b c : State} (h : a.FarKept b) (g : b.FarKept c) : a.FarKept c :=
  fun r hr => (g r hr).trans (h r hr)
theorem State.FarKept.of_ctrl {s t u : State} (h : s.FarKept t) (e : u.ctrl = t.ctrl) : s.FarKept u :=
  fun a ha => by rw [← h a ha]; simp only [State.rd, e]
theorem State.FarKept.fld {s t : State} (h : s.FarKept t) {a : Nat} (ha : farFromEvents a) (f : Fld) : t.fld a f = s.fld a f := by
  rw [State.fld, h a ha, State.fld]
theorem State.FarKept.ite {s a b : State} {p : Prop} [Decidable p] (ha : s.FarKept a) (hb : s.FarKept b) :
    s.FarKept (if p then a else b) := by split <;> assumption
theorem State.FarKept.foldl {β : Type} (f : State → β → State) (l : List β) (s : State)
    (h : ∀ (s : State) (x : β), s.FarKept (f s x)) : s.FarKept (l.foldl f s) := by
  induction l generalizing s with
  | nil => exact .refl s
  | cons x r ih => exact (h s x).trans (ih (f s x))

/-- A write of a register that is not far from events changes none that is. -/
theorem State.FarKept.wr {s t : State} (h : s.FarKept t) {a : Nat} (v : Word) (ha : ¬ farFromEvents a) : s.FarKept (t.wr a v) :=
  fun b hb => by rw [State.rd_wr_ne _ _ _ _ (fun e : b = a => ha (e ▸ hb))]; exact h b hb
theorem State.FarKept.setF {s t : State} (h : s.FarKept t) {a : Nat} (f : Fld) (v : Nat) (ha : ¬ farFromEvents a) :
    s.FarKept (t.setF a f v) := h.wr _ ha

theorem not_far_domStat (k : Nat) : ¬ farFromEvents (DOM_STAT.adr k) := by unfold farFromEvents DOM_STAT.adr; omega
theorem not_far_domCtl {p : Nat} (h : p < 136) : ¬ farFromEvents (DOM_CTL.adr p) := by unfold farFromEvents DOM_CTL.adr; omega
theorem not_far_lastWake {p : Nat} (h : p < 136) : ¬ farFromEvents (LAST_WAKE.adr p) := by
  unfold farFromEvents LAST_WAKE.adr; omega
theorem not_far_napRes {p : Nat} (h : p < 136) : ¬ farFromEvents (NAP_RES.adr p) := by unfold farFromEvents NAP_RES.adr; omega

theorem State.physTile_lt {s : State} {t p : Nat} (h : s.physTile t = some p) : p < 136 := by
  unfold State.physTile at h
  simp only [Bool.or_eq_true, decide_eq_true_eq] at h
  split at h
  · cases h
  · next hc => simp only [Option.some.injEq] at h; omega

theorem State.farKept_rampNext (s : State) : s.FarKept s.rampNext := by
  unfold State.rampNext
  split
  · exact .refl s
  · exact .ite (.setF (.of_ctrl (.refl s) rfl) _ _ (not_far_domStat _)) (.refl s)

theorem State.farKept_rampStart (s : State) (k : Nat) : s.FarKept (s.rampStart k) := by
  unfold State.rampStart
  split
  · exact .refl s
  · extract_lets e a b up wt
    have g : s.FarKept b := ((State.FarKept.refl s).setF _ _ (not_far_domStat k)).setF _ _ (not_far_domStat k)
    clear_value b
    have gp (p : Power) : s.FarKept { b with power := p } := g.of_ctrl rfl
    split
    · exact .ite ((gp _).setF _ _ (not_far_domStat k)) (gp _)
    · exact .ite (((gp _).setF _ _ (not_far_domStat k)).trans (State.farKept_rampNext _))
        (((gp _).setF _ _ (not_far_domStat k)).trans (State.farKept_rampNext _))

theorem State.farKept_relevel (s : State) : s.FarKept s.relevel := by
  unfold State.relevel
  generalize (numsFrom 0 302).filter levelled = l
  exact .foldl _ _ _ fun s k => s.farKept_rampStart k

theorem State.FarKept.power {s t : State} (h : s.FarKept t) (p : Power) : s.FarKept { t with power := p } := h.of_ctrl rfl

theorem State.farKept_holdEnd (s : State) : s.FarKept s.holdEnd := by
  have g : s.FarKept (s.power.memWas.foldl (fun s p => s.setF (DOM_STAT.adr (144 + p.1)) DOM_STAT.LEVEL_NOW p.2) s) :=
    .foldl _ _ _ fun s p => (State.FarKept.refl s).setF _ _ (not_far_domStat _)
  exact (g.power _).trans (State.farKept_relevel _)

theorem State.farKept_wakeDevice (s : State) (cause slot : Nat) : s.FarKept (s.wakeDevice cause slot) := by
  have hl : ¬ farFromEvents DEV_LAST_WAKE.adr := by unfold farFromEvents DEV_LAST_WAKE.adr; omega
  have hd : ¬ farFromEvents PWR_DEV_STAT.adr := by unfold farFromEvents PWR_DEV_STAT.adr; omega
  have woken (v : Word) (n : Nat) : s.FarKept ((s.wr DEV_LAST_WAKE.adr v).setF PWR_DEV_STAT.adr PWR_DEV_STAT.STATE n) :=
    ((State.FarKept.refl s).wr _ hl).setF _ _ hd
  unfold State.wakeDevice
  refine .ite ((woken _ _).trans (State.farKept_holdEnd _)) (.ite ((woken _ _).of_ctrl rfl) (.ite ?_ (.refl s)))
  split
  · exact .refl s
  · exact (State.FarKept.refl s).power _

theorem State.farKept_sleepResult (s : State) (p code : Nat) : s.FarKept (s.sleepResult p code) := by
  unfold State.sleepResult
  generalize s.tileCores p = l
  exact .foldl _ _ _ fun s _ => .ite (.of_ctrl (.refl s) rfl) (.refl s)

theorem State.farKept_wakeTile (s : State) {p : Nat} (hp : p < 136) (cause slot : Nat) : s.FarKept (s.wakeTile p cause slot) := by
  have woken (n : Nat) (v : Word) : s.FarKept ((s.setDom p n).wr (LAST_WAKE.adr p) v) :=
    ((State.FarKept.refl s).setF _ _ (not_far_domStat p)).wr _ (not_far_lastWake hp)
  unfold State.wakeTile State.napExitStart
  exact .ite (((woken _ _).setF _ _ (not_far_napRes hp)).power _)
    (.ite (((woken _ _).setF _ _ (not_far_domCtl hp)).trans (State.farKept_sleepResult _ _ _)) (.refl s))

theorem State.farKept_fireSlot (s : State) (i n : Nat) (hit : Bool × Bool) : s.FarKept (s.fireSlot i n hit) := by
  have hf : ¬ farFromEvents WW_FIRED.adr := by unfold farFromEvents WW_FIRED.adr; omega
  unfold State.fireSlot
  extract_lets a b
  have ha : s.FarKept a := .ite ((State.FarKept.refl s).wr _ hf) (.refl s)
  have hb : s.FarKept b := by
    refine .ite ?_ ha
    split
    · next p e => exact ha.trans (a.farKept_wakeTile (State.physTile_lt e) _ _)
    · exact ha
  exact .ite (hb.trans (b.farKept_wakeDevice _ _)) hb

theorem State.farKept_fireWhere (s : State) (f : Nat → Bool) : s.FarKept (s.fireWhere f) :=
  .foldl _ _ _ fun s _ => s.farKept_fireSlot _ _ _

theorem State.farKept_noteCore (s : State) (c : Nat) : s.FarKept (s.noteCore c) := by
  unfold State.noteCore
  exact .ite (.of_ctrl (.refl s) rfl) (.refl s)

/-- An arrival leaves every register far from events as it was. -/
theorem State.farKept_arrive (s : State) (n k : Nat) : s.FarKept (s.arrive n k) := by
  have hs : ¬ farFromEvents EV_HUB_STAT.adr := by unfold farFromEvents EV_HUB_STAT.adr; omega
  have f := s.farKept_fireWhere fun m => m == n
  unfold State.arrive
  refine .ite (.refl s) (.ite (.ite (f.of_ctrl rfl) (.refl s)) (.ite ((State.FarKept.refl s).setF _ _ hs) ?_))
  have counted : s.FarKept (s.setSrc n ((s.src n).addCount k)) := .of_ctrl (.refl s) rfl
  exact (counted.trans (State.farKept_fireWhere _ _)).trans (State.farKept_noteCore (State.fireSlots _ n) _)

/-- Every other register of a handshake window than CAL_SEL is far from events. -/
theorem Window.far_of_offset {w : Window} (hw : w.ok = true) (o : Nat) (ho : o < 0x1000) (h8 : o % 0x40 ≠ 8) :
    farFromEvents (winBase w + o) := by
  cases w <;>
    simp only [Window.ok, tileOk, dieOk, linkOk, sliceOk, decide_eq_true_eq] at hw <;>
    simp only [farFromEvents, winBase, tileBlk, dieBlk, mcBlk, linkBlk, sliceBlk] <;> omega

end Sys2Proof.Machine
end

section
/-!
SUPPORT. Delay lines and live calibration (R44 to R48): what one pass does to each line and to the registers that show it.
-/

namespace Sys2Proof

/-- A key that reads otherwise than an unlisted one is listed. -/
theorem SMap.mem_keys_of_get_ne {α : Type} (m : SMap α) (d : α) (k : Nat) (h : m.get d k ≠ d) : k ∈ m.map Prod.fst := by
  induction m with
  | nil => exact absurd rfl h
  | cons p r ih =>
    obtain ⟨a, v⟩ := p
    by_cases e : k = a
    · simp [e]
    · simp only [SMap.get, e, if_false] at h
      exact List.mem_cons_of_mem _ (ih h)

/-- Storing at each listed key a value that depends on the key alone. -/
theorem SMap.get_foldl_put {α : Type} [DecidableEq α] (d : α) (g : Nat → α) (l : List Nat) (m : SMap α) (j : Nat) :
    (l.foldl (fun m k => m.put d k (g k)) m).get d j = if j ∈ l then g j else m.get d j := by
  induction l generalizing m with
  | nil => simp
  | cons k r ih =>
    rw [List.foldl_cons, ih, SMap.get_put]
    by_cases h : j = k
    · subst h; simp
    · simp [h]

end Sys2Proof

namespace Sys2Proof.Machine

/-! ## One line -/

theorem DelayLine.trimOf_le (l : DelayLine) (f : LineFuse) : l.trimOf f ≤ 63 := by
  have := (l.trim.getD f.fused).isLt
  unfold DelayLine.trimOf
  omega

theorem DelayLine.trimOf_some (l : DelayLine) (f : LineFuse) (n : Nat) (h : n ≤ 63) (e : l.trim = some (BitVec.ofNat 6 n)) :
    l.trimOf f = n := by
  simp only [DelayLine.trimOf, e, Option.getD_some, BitVec.toNat_ofNat]
  omega

/-- A line whose count grew is one step longer, at most at the last (R45). -/
theorem DelayLine.trimOf_pass_grown (l : DelayLine) (f : LineFuse) (g n : Nat) (h : l.grown = true) :
    (l.pass f g n).trimOf f = min 63 (l.trimOf f + 1) := by
  have le := l.trimOf_le f
  simp only [DelayLine.pass, h, if_true]
  by_cases e : l.trimOf f = 63
  · simp only [e, if_true]
    exact e
  · simp only [e, if_false]
    rw [DelayLine.trimOf_some _ f (l.trimOf f + 1) (by omega) rfl]
    omega

/-- A line that has been quiet for 16 passes and stands above its guard is one step shorter (R45). -/
theorem DelayLine.trimOf_pass_quiet (l : DelayLine) (f : LineFuse) (g n : Nat) (h : l.grown = false) (hs : l.since + 16 ≤ n)
    (hg : f.floor.toNat + g < l.trimOf f) : (l.pass f g n).trimOf f = l.trimOf f - 1 := by
  have le := l.trimOf_le f
  simp only [DelayLine.pass, h, hs, hg, Bool.false_eq_true, decide_true, Bool.and_self, if_true, if_false]
  exact DelayLine.trimOf_some _ f _ (by omega) rfl

/-- Any other line stays as it is. -/
theorem DelayLine.pass_idle (l : DelayLine) (f : LineFuse) (g n : Nat) (h : l.grown = false)
    (hq : n < l.since + 16 ∨ l.trimOf f ≤ f.floor.toNat + g) : l.pass f g n = l := by
  have : ¬ (l.since + 16 ≤ n ∧ f.floor.toNat + g < l.trimOf f) := by omega
  simp [DelayLine.pass, h, this]

theorem DelayLine.pass_nearMiss (l : DelayLine) (f : LineFuse) (g n : Nat) : (l.pass f g n).nearMiss = l.nearMiss := by
  unfold DelayLine.pass; dsimp only; split
  · rfl
  · split <;> rfl

theorem DelayLine.pass_grown (l : DelayLine) (f : LineFuse) (g n : Nat) : (l.pass f g n).grown = false := by
  unfold DelayLine.pass; dsimp only; split
  · rfl
  · next h => split <;> exact Bool.eq_false_iff.mpr h

/-- A pass leaves a line that nothing has touched, with fuse values that nothing has set. -/
theorem DelayLine.pass_reset (g n : Nat) : DelayLine.reset.pass LineFuse.reset g n = DelayLine.reset :=
  DelayLine.pass_idle _ _ _ _ rfl (.inr (Nat.zero_le _))

/-! ## The lines of a window -/

/-- A line of the window, or its fuse values, that differ from the reset are among the window's listed lines. -/
theorem State.mem_winLines (s : State) (b i : Nat) (hi : i < 0x1000)
    (h : s.line b i ≠ DelayLine.reset ∨ s.lineFuse (b + i) ≠ LineFuse.reset) : b + i ∈ s.winLines b := by
  have mine : decide (b ≤ b + i) = true ∧ decide (b + i < b + 0x1000) = true := by
    simp only [decide_eq_true_eq]; omega
  unfold State.winLines
  extract_lets inWin l
  have hm : inWin (b + i) = true := by simp only [inWin, mine, Bool.and_self]
  by_cases hl : b + i ∈ l
  · exact List.mem_append_left _ hl
  · have hn : b + i ∉ s.lines.map Prod.fst := fun e => hl (List.mem_filter.mpr ⟨e, hm⟩)
    have hf : s.lineFuse (b + i) ≠ LineFuse.reset := by
      rcases h with h | h
      · exact absurd (SMap.mem_keys_of_get_ne _ _ _ h) hn
      · exact h
    refine List.mem_append_right _ (List.mem_filter.mpr ⟨SMap.mem_keys_of_get_ne _ _ _ hf, ?_⟩)
    simp [hm, hl]

/-- What examining the lines of window `b` from `lo` to `hi - 1` does (R45): each of them has its pass, no other line of the
window changes, and of the registers only AT_LIMIT, ADJUSTS and LIMIT can. -/
structure State.Examined (s t : State) (b lo hi : Nat) : Prop where
  passes : t.passes = s.passes
  calPos : t.calPos = s.calPos
  lineFuses : t.lineFuses = s.lineFuses
  ctl : t.rd (CAL_CTL.adr b) = s.rd (CAL_CTL.adr b)
  count : t.rd (CAL_LINES.adr b) = s.rd (CAL_LINES.adr b)
  passed : t.fld (CAL_COUNT.adr b) CAL_COUNT.PASSES = s.fld (CAL_COUNT.adr b) CAL_COUNT.PASSES
  done : t.fld (CAL_STAT.adr b) CAL_STAT.PASS_DONE = s.fld (CAL_STAT.adr b) CAL_STAT.PASS_DONE
  busy : t.fld (CAL_STAT.adr b) CAL_STAT.PASS_BUSY = s.fld (CAL_STAT.adr b) CAL_STAT.PASS_BUSY
  limit : ∀ i, i < 0x1000 → lo ≤ i → i < hi → (s.line b i).grown = true → (s.line b i).trimOf (s.lineFuse (b + i)) = 63 →
    t.fld (CAL_STAT.adr b) CAL_STAT.LIMIT = 1
  line : ∀ i, i < 0x1000 → t.line b i = if lo ≤ i ∧ i < hi then
    (s.line b i).pass (s.lineFuse (b + i)) (s.fld (CAL_CTL.adr b) CAL_CTL.GUARD) (s.passes.get 0 b + 1) else s.line b i

/-- The registers that show what an examination of lines found: ADJUSTS, AT_LIMIT, and LIMIT with its event. -/
def State.showLines (s : State) (b adj top lim : Nat) : State :=
  let t := (s.incF (CAL_COUNT.adr b) CAL_COUNT.ADJUSTS adj).setF (CAL_STAT.adr b) CAL_STAT.AT_LIMIT top
  if lim = 0 then t else (t.setF (CAL_STAT.adr b) CAL_STAT.LIMIT 1).arrive 7704 lim

theorem State.showLines_eventFrame (s : State) (b adj top lim : Nat) : s.EventFrame (s.showLines b adj top lim) :=
  .ite (.setF (.setF (.refl s) _ _ _) _ _ _) (.arrive (.setF (.setF (.setF (.refl s) _ _ _) _ _ _) _ _ _) _ _)

theorem State.rd_showLines (s : State) {w : Window} (hw : w.ok = true) (adj top lim o : Nat) (ho : o < 0x1000) (h8 : o % 0x40 ≠ 8)
    (hs : o ≠ 0x20) (hc : o ≠ 0x38) :
    (s.showLines (winBase w) adj top lim).rd (winBase w + o) = s.rd (winBase w + o) := by
  have far := Window.far_of_offset hw o ho h8
  have ns : winBase w + o ≠ CAL_STAT.adr (winBase w) := by unfold CAL_STAT.adr; omega
  have nc : winBase w + o ≠ CAL_COUNT.adr (winBase w) := by unfold CAL_COUNT.adr; omega
  unfold State.showLines
  extract_lets t
  have ht : t.rd (winBase w + o) = s.rd (winBase w + o) := by
    simp only [t, State.incF, State.rd_setF_ne _ _ _ _ _ ns, State.rd_setF_ne _ _ _ _ _ nc]
  split
  · exact ht
  · rw [State.farKept_arrive _ _ _ _ far, State.rd_setF_ne _ _ _ _ _ ns, ht]

/-- A field of CAL_STAT that shows nothing of the lines keeps its value, and so does PASSES. -/
theorem State.fld_showLines_stat (s : State) {w : Window} (hw : w.ok = true) (adj top lim : Nat) (f : Fld)
    (hf : f.lo ≤ f.hi ∧ f.hi < 16) (hl : f.hi < 2 ∨ 2 < f.lo) :
    (s.showLines (winBase w) adj top lim).fld (CAL_STAT.adr (winBase w)) f = s.fld (CAL_STAT.adr (winBase w)) f := by
  have far : farFromEvents (CAL_STAT.adr (winBase w)) := Window.far_of_offset hw 0x20 (by decide) (by decide)
  have ns : CAL_STAT.adr (winBase w) ≠ CAL_COUNT.adr (winBase w) := by unfold CAL_STAT.adr CAL_COUNT.adr; omega
  unfold State.showLines
  extract_lets t
  have ht : t.fld (CAL_STAT.adr (winBase w)) f = s.fld (CAL_STAT.adr (winBase w)) f := by
    simp only [t, State.incF]
    rw [State.fld_setF_apart _ _ _ _ _ _ (.inl hf.2) hf.1 (by decide), State.fld_setF_ne _ _ _ _ _ _ ns]
  split
  · exact ht
  · rw [(State.farKept_arrive _ _ _).fld far,
      State.fld_setF_apart _ _ _ CAL_STAT.LIMIT f _ hl hf.1 (by decide), ht]

theorem State.fld_showLines_passes (s : State) {w : Window} (hw : w.ok = true) (adj top lim : Nat) :
    (s.showLines (winBase w) adj top lim).fld (CAL_COUNT.adr (winBase w)) CAL_COUNT.PASSES =
      s.fld (CAL_COUNT.adr (winBase w)) CAL_COUNT.PASSES := by
  have far : farFromEvents (CAL_COUNT.adr (winBase w)) := Window.far_of_offset hw 0x38 (by decide) (by decide)
  have ns : CAL_COUNT.adr (winBase w) ≠ CAL_STAT.adr (winBase w) := by unfold CAL_STAT.adr CAL_COUNT.adr; omega
  unfold State.showLines
  extract_lets t
  have ht : t.fld (CAL_COUNT.adr (winBase w)) CAL_COUNT.PASSES = s.fld (CAL_COUNT.adr (winBase w)) CAL_COUNT.PASSES := by
    simp only [t, State.incF]
    rw [State.fld_setF_ne _ _ _ _ _ _ ns, State.fld_setF_apart _ _ _ _ _ _ (by decide) (by decide) (by decide)]
  split
  · exact ht
  · rw [(State.farKept_arrive _ _ _).fld far, State.fld_setF_ne _ _ _ _ _ _ ns, ht]

theorem State.fld_showLines_limit (s : State) {w : Window} (hw : w.ok = true) (adj top lim : Nat) (h : lim ≠ 0) :
    (s.showLines (winBase w) adj top lim).fld (CAL_STAT.adr (winBase w)) CAL_STAT.LIMIT = 1 := by
  have far : farFromEvents (CAL_STAT.adr (winBase w)) := Window.far_of_offset hw 0x20 (by decide) (by decide)
  simp only [State.showLines, h, if_false]
  rw [(State.farKept_arrive _ _ _).fld far, State.fld_setF _ _ _ _ (by decide)]
  rfl

/-- Examining the lines of a window. -/
theorem State.examined_calLines (s : State) {w : Window} (hw : w.ok = true) (lo hi : Nat) :
    s.Examined (s.calLines (winBase w) lo hi) (winBase w) lo hi := by
  generalize hb : winBase w = b
  unfold State.calLines
  extract_lets n g old keys adj lim fuse u
  change s.Examined (u.showLines b adj (State.atLimit _ b) lim) b lo hi
  generalize State.atLimit _ b = top
  have frame := u.showLines_eventFrame b adj top lim
  have hk (i : Nat) (hi' : i < 0x1000) : b + i ∈ keys ↔ b + i ∈ s.winLines b ∧ lo ≤ i ∧ i < hi := by
    simp only [keys, List.mem_filter, Bool.and_eq_true, decide_eq_true_eq, Nat.add_le_add_iff_left, Nat.add_lt_add_iff_left]
  have listed (i : Nat) (hi' : i < 0x1000) (h : s.line b i ≠ DelayLine.reset ∨ s.lineFuse (b + i) ≠ LineFuse.reset)
      (h1 : lo ≤ i) (h2 : i < hi) : b + i ∈ keys := (hk i hi').mpr ⟨s.mem_winLines b i hi' h, h1, h2⟩
  subst hb
  refine ⟨by rw [frame], by rw [frame], by rw [frame], ?_, ?_, ?_, ?_, ?_, ?_, ?_⟩
  case refine_1 => exact u.rd_showLines hw adj top lim 0 (by decide) (by decide) (by decide) (by decide)
  case refine_2 => exact u.rd_showLines hw adj top lim 0x40 (by decide) (by decide) (by decide) (by decide)
  case refine_3 => exact u.fld_showLines_passes hw adj top lim
  case refine_4 => exact u.fld_showLines_stat hw adj top lim _ (by decide) (by decide)
  case refine_5 => exact u.fld_showLines_stat hw adj top lim _ (by decide) (by decide)
  case refine_6 =>
    intro i hi' h1 h2 hg ht
    refine u.fld_showLines_limit hw adj top lim (Nat.ne_of_gt (List.length_pos_of_mem (a := winBase w + i) ?_))
    refine List.mem_filter.mpr ⟨listed i hi' (.inl fun e => ?_) h1 h2, ?_⟩
    · rw [e] at hg; cases hg
    · exact Bool.and_eq_true_iff.mpr ⟨hg, beq_iff_eq.mpr ht⟩
  case refine_7 =>
    intro i hi'
    rw [State.line, show (u.showLines (winBase w) adj top lim).lines = u.lines by rw [frame]]
    refine (SMap.get_foldl_put _ (fun k => (old k).pass (fuse k) g n) keys s.lines (winBase w + i)).trans ?_
    by_cases hin : lo ≤ i ∧ i < hi
    · rw [if_pos hin]
      by_cases hm : winBase w + i ∈ keys
      · rw [if_pos hm]; rfl
      · have hn : ¬ _ := fun h => hm (listed i hi' h hin.1 hin.2)
        obtain ⟨hl, hf⟩ := not_or.mp hn
        rw [if_neg hm, Classical.not_not.mp hl, Classical.not_not.mp hf, DelayLine.pass_reset]
        exact Classical.not_not.mp hl
    · rw [if_neg hin, if_neg fun e => hin ((hk i hi').mp e).2]; rfl

/-! ## A pass -/

/-- From `u` to `t` the pass in progress in window `b`, or one that starts, has come on (R45, R48): it examined the lines
from where it stood up to some line, and was counted where that is past the last. -/
def State.Passed (b : Nat) (u t : State) : Prop := ∃ lo hi, lo = u.calPos.get 0 b - 1 ∧ lo ≤ hi ∧
  hi ≤ max lo (u.fld (CAL_LINES.adr b) CAL_LINES.COUNT) ∧ t.lineFuses = u.lineFuses ∧
  (u.fld (CAL_LINES.adr b) CAL_LINES.COUNT ≤ hi → t.fld (CAL_STAT.adr b) CAL_STAT.PASS_DONE = 1 ∧
    t.fld (CAL_STAT.adr b) CAL_STAT.PASS_BUSY = 0 ∧ t.fld (CAL_CTL.adr b) CAL_CTL.STEP = 0 ∧ t.calPos.get 0 b = 0 ∧
    t.fld (CAL_COUNT.adr b) CAL_COUNT.PASSES = (u.fld (CAL_COUNT.adr b) CAL_COUNT.PASSES + 1) % 2 ^ 32 ∧
    t.passes.get 0 b = u.passes.get 0 b + 1) ∧
  (hi < u.fld (CAL_LINES.adr b) CAL_LINES.COUNT → t.calPos.get 0 b = hi + 1 ∧ t.passes.get 0 b = u.passes.get 0 b ∧
    t.fld (CAL_COUNT.adr b) CAL_COUNT.PASSES = u.fld (CAL_COUNT.adr b) CAL_COUNT.PASSES ∧
    t.fld (CAL_STAT.adr b) CAL_STAT.PASS_DONE = u.fld (CAL_STAT.adr b) CAL_STAT.PASS_DONE ∧
    (u.calPos.get 0 b = 0 → t.fld (CAL_STAT.adr b) CAL_STAT.PASS_BUSY = 1)) ∧
  ∀ i, i < 0x1000 → ∀ (l : DelayLine) (f : LineFuse), l = u.line b i → f = u.lineFuse (b + i) →
    ((i < lo ∨ hi ≤ i) → t.line b i = l) ∧
    (lo ≤ i → i < hi → (t.line b i).nearMiss = l.nearMiss ∧ (t.line b i).grown = false ∧
      (l.grown = true → (t.line b i).trimOf f = min 63 (l.trimOf f + 1) ∧
        (l.trimOf f = 63 → t.fld (CAL_STAT.adr b) CAL_STAT.LIMIT = 1)) ∧
      (l.grown = false → l.since + 16 ≤ u.passes.get 0 b + 1 → f.floor.toNat + u.fld (CAL_CTL.adr b) CAL_CTL.GUARD < l.trimOf f →
        (t.line b i).trimOf f = l.trimOf f - 1) ∧
      (l.grown = false → (u.passes.get 0 b + 1 < l.since + 16 ∨ l.trimOf f ≤ f.floor.toNat + u.fld (CAL_CTL.adr b) CAL_CTL.GUARD) →
        t.line b i = l))

/-- A pass in progress that ends or is abandoned. -/
theorem State.calAbandon_eq (s : State) (b : Nat) (h : s.calPos.get 0 b ≠ 0) : s.calAbandon b =
    (({ s with calPos := s.calPos.put 0 b 0 } : State).setF (CAL_STAT.adr b) CAL_STAT.PASS_BUSY 0).setF (CAL_CTL.adr b)
      CAL_CTL.STEP 0 := if_neg h

/-- A pass that has examined every line, before it ends: it is counted, and PASS_DONE set (R45). -/
def State.calCounted (s : State) (b : Nat) : State :=
  (({ s with passes := s.passes.put 0 b (s.passes.get 0 b + 1) } : State).incF (CAL_COUNT.adr b) CAL_COUNT.PASSES 1).setF
    (CAL_STAT.adr b) CAL_STAT.PASS_DONE 1

theorem State.calDone_eq (s : State) (b : Nat) : s.calDone b = (s.calCounted b).calAbandon b := rfl

/-- The registers of calibration stand at different addresses. -/
theorem calStat_ne_calCtl (b : Nat) : CAL_STAT.adr b ≠ CAL_CTL.adr b := by unfold CAL_STAT.adr CAL_CTL.adr; omega
theorem calStat_ne_calCount (b : Nat) : CAL_STAT.adr b ≠ CAL_COUNT.adr b := by unfold CAL_STAT.adr CAL_COUNT.adr; omega
theorem calCount_ne_calCtl (b : Nat) : CAL_COUNT.adr b ≠ CAL_CTL.adr b := by unfold CAL_COUNT.adr CAL_CTL.adr; omega

@[simp] theorem State.calCounted_calPos (s : State) (b : Nat) : (s.calCounted b).calPos = s.calPos := by simp [State.calCounted]
@[simp] theorem State.calCounted_lines (s : State) (b : Nat) : (s.calCounted b).lines = s.lines := by simp [State.calCounted]
@[simp] theorem State.calCounted_lineFuses (s : State) (b : Nat) : (s.calCounted b).lineFuses = s.lineFuses := by
  simp [State.calCounted]
theorem State.calCounted_passes (s : State) (b : Nat) : (s.calCounted b).passes.get 0 b = s.passes.get 0 b + 1 := by
  simp [State.calCounted]

theorem State.fld_calCounted_passes (s : State) (b : Nat) : (s.calCounted b).fld (CAL_COUNT.adr b) CAL_COUNT.PASSES =
    (s.fld (CAL_COUNT.adr b) CAL_COUNT.PASSES + 1) % 2 ^ 32 := by
  unfold State.calCounted
  rw [State.fld_setF_ne _ _ _ _ _ _ (calStat_ne_calCount b).symm, State.incF, State.fld_setF _ _ _ _ (by decide),
    show CAL_COUNT.PASSES.hi - CAL_COUNT.PASSES.lo + 1 = 32 from rfl]
  rfl

theorem State.fld_calCounted_done (s : State) (b : Nat) : (s.calCounted b).fld (CAL_STAT.adr b) CAL_STAT.PASS_DONE = 1 := by
  unfold State.calCounted
  rw [State.fld_setF _ _ _ _ (by decide)]
  rfl

theorem State.fld_calCounted_limit (s : State) (b : Nat) : (s.calCounted b).fld (CAL_STAT.adr b) CAL_STAT.LIMIT =
    s.fld (CAL_STAT.adr b) CAL_STAT.LIMIT := by
  unfold State.calCounted
  rw [State.fld_setF_apart _ _ _ _ _ _ (by decide) (by decide) (by decide), State.incF,
    State.fld_setF_ne _ _ _ _ _ _ (calStat_ne_calCount b)]
  rfl

/-- Abandoning a pass changes PASS_BUSY, STEP and the pass's place alone. -/
theorem State.fld_calAbandon (s : State) (b : Nat) (h : s.calPos.get 0 b ≠ 0) :
    (∀ f, f.lo ≤ f.hi → (f.hi < 3 ∨ 3 < f.lo) → (s.calAbandon b).fld (CAL_STAT.adr b) f = s.fld (CAL_STAT.adr b) f) ∧
    (s.calAbandon b).fld (CAL_STAT.adr b) CAL_STAT.PASS_BUSY = 0 ∧ (s.calAbandon b).fld (CAL_CTL.adr b) CAL_CTL.STEP = 0 ∧
    (s.calAbandon b).fld (CAL_COUNT.adr b) CAL_COUNT.PASSES = s.fld (CAL_COUNT.adr b) CAL_COUNT.PASSES := by
  rw [State.calAbandon_eq s b h]
  refine ⟨fun f hf h3 => ?_, ?_, ?_, ?_⟩
  · rw [State.fld_setF_ne _ _ _ _ _ _ (calStat_ne_calCtl b), State.fld_setF_apart _ _ _ _ _ _ h3 hf (by decide)]
    rfl
  · rw [State.fld_setF_ne _ _ _ _ _ _ (calStat_ne_calCtl b), State.fld_setF _ _ _ _ (by decide), Nat.zero_mod]
  · rw [State.fld_setF _ _ _ _ (by decide), Nat.zero_mod]
  · rw [State.fld_setF_ne _ _ _ _ _ _ (calCount_ne_calCtl b), State.fld_setF_ne _ _ _ _ _ _ (calStat_ne_calCount b).symm]
    rfl

@[simp] theorem State.calAbandon_lines (s : State) (b : Nat) : (s.calAbandon b).lines = s.lines := by
  unfold State.calAbandon; split <;> simp
@[simp] theorem State.calAbandon_lineFuses (s : State) (b : Nat) : (s.calAbandon b).lineFuses = s.lineFuses := by
  unfold State.calAbandon; split <;> simp
@[simp] theorem State.calAbandon_passes (s : State) (b : Nat) : (s.calAbandon b).passes = s.passes := by
  unfold State.calAbandon; split <;> simp
theorem State.calAbandon_calPos (s : State) (b : Nat) : (s.calAbandon b).calPos.get 0 b = 0 := by
  unfold State.calAbandon; split <;> simp [*]

theorem State.line_calDone (s : State) (b a i : Nat) : (s.calDone b).line a i = s.line a i := by
  simp [State.calDone_eq, State.line]

theorem State.fld_calDone_limit (s : State) (b : Nat) (h : s.calPos.get 0 b ≠ 0) :
    (s.calDone b).fld (CAL_STAT.adr b) CAL_STAT.LIMIT = s.fld (CAL_STAT.adr b) CAL_STAT.LIMIT := by
  rw [State.calDone_eq, ((s.calCounted b).fld_calAbandon b (by simpa using h)).1 _ (by decide) (by decide),
    State.fld_calCounted_limit]

/-- From `u` to `v` a pass has started in window `b` where none was in progress (R48). -/
structure State.Begun (b : Nat) (u v : State) : Prop where
  passes : v.passes = u.passes
  lines : v.lines = u.lines
  lineFuses : v.lineFuses = u.lineFuses
  calPos : v.calPos.get 0 b = if u.calPos.get 0 b = 0 then 1 else u.calPos.get 0 b
  ctl : v.rd (CAL_CTL.adr b) = u.rd (CAL_CTL.adr b)
  count : v.rd (CAL_LINES.adr b) = u.rd (CAL_LINES.adr b)
  passed : v.rd (CAL_COUNT.adr b) = u.rd (CAL_COUNT.adr b)
  done : v.fld (CAL_STAT.adr b) CAL_STAT.PASS_DONE = u.fld (CAL_STAT.adr b) CAL_STAT.PASS_DONE
  busy : u.calPos.get 0 b = 0 → v.fld (CAL_STAT.adr b) CAL_STAT.PASS_BUSY = 1

theorem State.rd_calPos (s : State) (m : SMap Nat) (a : Nat) : ({ s with calPos := m } : State).rd a = s.rd a := rfl
theorem State.fld_calPos (s : State) (m : SMap Nat) (a : Nat) (f : Fld) : ({ s with calPos := m } : State).fld a f = s.fld a f := rfl
theorem State.fld_tick (s : State) (a : Nat) (f : Fld) : s.tick.fld a f = s.fld a f := rfl

theorem State.begun_calBegin (u : State) (b : Nat) : State.Begun b u (u.calBegin b).tick := by
  have sl : CAL_LINES.adr b ≠ CAL_STAT.adr b := by unfold CAL_STAT.adr CAL_LINES.adr; omega
  by_cases h : u.calPos.get 0 b = 0
  · rw [show u.calBegin b = ({ u with calPos := u.calPos.put 0 b 1 } : State).setF (CAL_STAT.adr b) CAL_STAT.PASS_BUSY 1 from
      if_neg (Classical.not_not.mpr h)]
    exact
      { passes := by simp
        lines := by simp
        lineFuses := by simp
        calPos := by simp [h]
        ctl := by rw [State.rd_tick, State.rd_setF_ne _ _ _ _ _ (calStat_ne_calCtl b).symm, State.rd_calPos]
        count := by rw [State.rd_tick, State.rd_setF_ne _ _ _ _ _ sl, State.rd_calPos]
        passed := by rw [State.rd_tick, State.rd_setF_ne _ _ _ _ _ (calStat_ne_calCount b).symm, State.rd_calPos]
        done := by
          rw [State.fld_tick, State.fld_setF_apart _ _ _ _ _ _ (by decide) (by decide) (by decide), State.fld_calPos]
        busy := fun _ => by rw [State.fld_tick, State.fld_setF _ _ _ _ (by decide)]; rfl }
  · rw [show u.calBegin b = u from if_pos h]
    exact
      { passes := rfl
        lines := rfl
        lineFuses := rfl
        calPos := by simp [h]
        ctl := rfl
        count := rfl
        passed := rfl
        done := rfl
        busy := fun e => absurd e h }

/-- A pass that has started and goes on to line `hi`. -/
theorem State.Begun.passed_calTo {u v : State} {w : Window} (hw : w.ok = true) (g : State.Begun (winBase w) u v) (hi : Nat)
    (h1 : u.calPos.get 0 (winBase w) - 1 ≤ hi)
    (h2 : hi ≤ max (u.calPos.get 0 (winBase w) - 1) (u.fld (CAL_LINES.adr (winBase w)) CAL_LINES.COUNT)) :
    State.Passed (winBase w) u (v.calTo (winBase w) hi) := by
  have hp : v.calPos.get 0 (winBase w) ≠ 0 := by rw [g.calPos]; split <;> omega
  have hlo : v.calPos.get 0 (winBase w) - 1 = u.calPos.get 0 (winBase w) - 1 := by rw [g.calPos]; split <;> omega
  have x := v.examined_calLines hw (v.calPos.get 0 (winBase w) - 1) hi
  have hto : v.calTo (winBase w) hi =
      if (v.calLines (winBase w) (v.calPos.get 0 (winBase w) - 1) hi).fld (CAL_LINES.adr (winBase w)) CAL_LINES.COUNT ≤ hi
      then (v.calLines (winBase w) (v.calPos.get 0 (winBase w) - 1) hi).calDone (winBase w)
      else { v.calLines (winBase w) (v.calPos.get 0 (winBase w) - 1) hi with
        calPos := (v.calLines (winBase w) (v.calPos.get 0 (winBase w) - 1) hi).calPos.put 0 (winBase w) (hi + 1) } := if_neg hp
  generalize v.calLines (winBase w) (v.calPos.get 0 (winBase w) - 1) hi = t at x hto
  rw [hlo] at x
  generalize winBase w = b at *
  have hc : t.fld (CAL_LINES.adr b) CAL_LINES.COUNT = u.fld (CAL_LINES.adr b) CAL_LINES.COUNT := by
    rw [State.fld, x.count, g.count, State.fld]
  have line (i : Nat) (h : i < 0x1000) : t.line b i = if u.calPos.get 0 b - 1 ≤ i ∧ i < hi then
      (u.line b i).pass (u.lineFuse (b + i)) (u.fld (CAL_CTL.adr b) CAL_CTL.GUARD) (u.passes.get 0 b + 1) else u.line b i := by
    have := x.line i h
    simp only [State.line, State.lineFuse, State.fld, g.lines, g.lineFuses, g.passes, g.ctl] at this ⊢
    exact this
  have limit (i : Nat) (h : i < 0x1000) (l1 : u.calPos.get 0 b - 1 ≤ i) (l2 : i < hi) (hg : (u.line b i).grown = true)
      (ht : (u.line b i).trimOf (u.lineFuse (b + i)) = 63) : t.fld (CAL_STAT.adr b) CAL_STAT.LIMIT = 1 := by
    refine x.limit i h l1 l2 ?_ ?_ <;> simpa only [State.line, State.lineFuse, g.lines, g.lineFuses]
  have tp : t.calPos.get 0 b ≠ 0 := by rw [x.calPos]; exact hp
  have passes : t.passes = u.passes := x.passes.trans g.passes
  have counted : t.fld (CAL_COUNT.adr b) CAL_COUNT.PASSES = u.fld (CAL_COUNT.adr b) CAL_COUNT.PASSES := by
    rw [x.passed, State.fld, g.passed, State.fld]
  have kept (i : Nat) : (v.calTo b hi).line b i = t.line b i := by
    rw [hto]; split
    · exact t.line_calDone b b i
    · rfl
  have keptLimit : (v.calTo b hi).fld (CAL_STAT.adr b) CAL_STAT.LIMIT = t.fld (CAL_STAT.adr b) CAL_STAT.LIMIT := by
    rw [hto]; split
    · exact t.fld_calDone_limit b tp
    · rfl
  refine ⟨_, hi, rfl, h1, h2, ?_, fun hdone => ?_, fun hmore => ?_, fun i hi' l f hl hf => ?_⟩
  · rw [hto]; split
    · rw [State.calDone_eq, State.calAbandon_lineFuses, State.calCounted_lineFuses, x.lineFuses, g.lineFuses]
    · exact x.lineFuses.trans g.lineFuses
  · rw [hto, if_pos (hc ▸ hdone), State.calDone_eq]
    obtain ⟨stat, busy, step, count⟩ := (t.calCounted b).fld_calAbandon b (by simpa using tp)
    refine ⟨?_, busy, step, State.calAbandon_calPos _ _, ?_, ?_⟩
    · rw [stat _ (by decide) (by decide), State.fld_calCounted_done]
    · rw [count, State.fld_calCounted_passes, counted]
    · rw [State.calAbandon_passes, State.calCounted_passes, passes]
  · rw [hto, if_neg (by omega)]
    exact ⟨by simp, congrArg (SMap.get · 0 b) passes, counted, x.done.trans g.done, fun e => x.busy.trans (g.busy e)⟩
  · subst hl hf
    rw [kept, line i hi', keptLimit]
    refine ⟨fun out => if_neg (by omega), fun l1 l2 => ?_⟩
    rw [if_pos ⟨l1, l2⟩]
    exact ⟨DelayLine.pass_nearMiss _ _ _ _, DelayLine.pass_grown _ _ _ _,
      fun hg => ⟨DelayLine.trimOf_pass_grown _ _ _ _ hg, limit i hi' l1 l2 hg⟩,
      DelayLine.trimOf_pass_quiet _ _ _ _, DelayLine.pass_idle _ _ _ _⟩

/-- A pass that starts, or goes on, comes to a line no further than the last. -/
theorem State.passed_calRun (u : State) {w : Window} (hw : w.ok = true) :
    State.Passed (winBase w) u ((u.calBegin (winBase w)).calRun (winBase w)) := by
  have g := u.begun_calBegin (winBase w)
  have hp := g.calPos
  rw [State.tick_calPos] at hp
  have hn : (u.calBegin (winBase w)).calPos.get 0 (winBase w) ≠ 0 := by rw [hp]; split <;> omega
  have hlo : (u.calBegin (winBase w)).calPos.get 0 (winBase w) - 1 = u.calPos.get 0 (winBase w) - 1 := by
    rw [hp]; split <;> omega
  have hc : (u.calBegin (winBase w)).fld (CAL_LINES.adr (winBase w)) CAL_LINES.COUNT =
      u.fld (CAL_LINES.adr (winBase w)) CAL_LINES.COUNT := congrArg (fget _) g.count
  have hrun : (u.calBegin (winBase w)).calRun (winBase w) = (u.calBegin (winBase w)).tick.calTo (winBase w)
      (u.calPos.get 0 (winBase w) - 1 + (u.fld (CAL_LINES.adr (winBase w)) CAL_LINES.COUNT - (u.calPos.get 0 (winBase w) - 1)
        - (Config.freeWord (u.calBegin (winBase w)).freeTick).toNat
          % (u.fld (CAL_LINES.adr (winBase w)) CAL_LINES.COUNT - (u.calPos.get 0 (winBase w) - 1) + 1))) := by
    rw [← hlo, ← hc]; exact if_neg hn
  rw [hrun]
  exact g.passed_calTo hw _ (by omega) (by omega)

/-! ## When a pass starts -/

section Start
variable (s : State) (b dom : Nat)

theorem State.calInterval_off (h : s.has (CAL_CTL.adr b) CAL_CTL.ENABLE = false ∨ s.has (CAL_CTL.adr b) CAL_CTL.FREEZE = true ∨
    s.has (CAL_CTL.adr b) CAL_CTL.INTERVAL = false ∨ s.isOn dom = false) : s.calInterval b dom = s := by
  refine (show s.calInterval b dom = if (s.has (CAL_CTL.adr b) CAL_CTL.ENABLE && !s.has (CAL_CTL.adr b) CAL_CTL.FREEZE &&
    s.has (CAL_CTL.adr b) CAL_CTL.INTERVAL && s.isOn dom) = true then (s.calBegin b).calRun b else s from rfl).trans (if_neg ?_)
  rcases h with h | h | h | h <;> simp [h]

theorem State.calInterval_on (h1 : s.has (CAL_CTL.adr b) CAL_CTL.ENABLE = true) (h2 : s.has (CAL_CTL.adr b) CAL_CTL.FREEZE = false)
    (h3 : s.has (CAL_CTL.adr b) CAL_CTL.INTERVAL = true) (h4 : s.isOn dom = true) :
    s.calInterval b dom = (s.calBegin b).calRun b := by
  refine (show s.calInterval b dom = if (s.has (CAL_CTL.adr b) CAL_CTL.ENABLE && !s.has (CAL_CTL.adr b) CAL_CTL.FREEZE &&
    s.has (CAL_CTL.adr b) CAL_CTL.INTERVAL && s.isOn dom) = true then (s.calBegin b).calRun b else s from rfl).trans (if_pos ?_)
  simp [h1, h2, h3, h4]

theorem State.calStep_off (h : s.has (CAL_CTL.adr b) CAL_CTL.FREEZE = true ∨ s.isOn dom = false) : s.calStep b dom = s := by
  refine if_pos ?_
  rcases h with h | h <;> simp [h]

/-- During a pass STEP is set and nothing starts; otherwise a pass starts (R48). -/
theorem State.calStep_on (hf : s.has (CAL_CTL.adr b) CAL_CTL.FREEZE = false) (hd : s.isOn dom = true) :
    s.calStep b dom = if s.calPos.get 0 b = 0 then ((s.setF (CAL_CTL.adr b) CAL_CTL.STEP 1).calBegin b).calRun b
      else s.setF (CAL_CTL.adr b) CAL_CTL.STEP 1 := if_neg (by simp [hf, hd])

end Start

/-! ## Single lines -/

theorem State.calTrim_of_ge (s : State) (b : Nat) (v : Word)
    (h : s.fld (CAL_LINES.adr b) CAL_LINES.COUNT ≤ s.fld (CAL_SEL.adr b) CAL_SEL.LINE) : s.calTrim b v = s := if_neg (by omega)

theorem State.nearMiss_of_ge (s : State) (b i : Nat) (h : s.fld (CAL_LINES.adr b) CAL_LINES.COUNT ≤ i) : s.nearMiss b i = s :=
  if_neg (by omega)

/-- A near-miss counts, and marks the line for the next pass (R44). -/
theorem State.nearMiss_of_lt (s : State) (b i : Nat) (h : i < s.fld (CAL_LINES.adr b) CAL_LINES.COUNT) : s.nearMiss b i =
    (s.setLine b i { s.line b i with nearMiss := min 0xFFFFFFFF ((s.line b i).nearMiss + 1), grown := true }).setF
      (CAL_STAT.adr b) CAL_STAT.NEAR_MISS_SEEN 1 := if_pos h

/-- The selected line takes the written trim, no lower than its floor (R46). -/
theorem State.calTrim_of_lt (s : State) (b : Nat) (v : Word)
    (h : s.fld (CAL_SEL.adr b) CAL_SEL.LINE < s.fld (CAL_LINES.adr b) CAL_LINES.COUNT) : ∃ t : State, s.calTrim b v = t ∧
    t = { s with ctrl := t.ctrl, lines := t.lines } ∧
    (t.line b (s.fld (CAL_SEL.adr b) CAL_SEL.LINE)).trimOf (s.lineFuse (b + s.fld (CAL_SEL.adr b) CAL_SEL.LINE)) =
      max (s.lineFuse (b + s.fld (CAL_SEL.adr b) CAL_SEL.LINE)).floor.toNat (fget CAL_TRIM.TRIM v) ∧
    (t.line b (s.fld (CAL_SEL.adr b) CAL_SEL.LINE)).nearMiss = (s.line b (s.fld (CAL_SEL.adr b) CAL_SEL.LINE)).nearMiss ∧
    ∀ j, j ≠ s.fld (CAL_SEL.adr b) CAL_SEL.LINE → t.line b j = s.line b j := by
  have hv : fget CAL_TRIM.TRIM v < 64 := fget_lt CAL_TRIM.TRIM v
  have e : s.calTrim b v = _ := if_pos h
  generalize s.fld (CAL_SEL.adr b) CAL_SEL.LINE = i at e
  refine ⟨_, rfl, ?_, ?_, ?_, fun j hj => ?_⟩
  · rw [e]; rfl
  · rw [e, State.line_setF, State.line_setLine, if_pos rfl, DelayLine.trimOf, Option.getD_some]
    split
    · omega
    · rw [BitVec.toNat_ofNat]; omega
  · rw [e, State.line_setF, State.line_setLine, if_pos rfl]
  · rw [e, State.line_setF, State.line_setLine, if_neg (by omega)]

end Sys2Proof.Machine
end

section
/-!
SUPPORT. Crossings (R51 to R62): for each operation, an equation per case.
-/

namespace Sys2Proof.Machine

theorem xHoldsWriters_iff (w : Window) (x : Nat) : xHoldsWriters w x = true ↔ w = .svc ∧ x = 10 := by
  simp [xHoldsWriters]
theorem xHoldsWriters_of {w : Window} {x : Nat} (h : w = .svc ∧ x = 10) : xHoldsWriters w x = true :=
  (xHoldsWriters_iff w x).mpr h
theorem xHoldsWriters_of_not {w : Window} {x : Nat} (h : ¬ (w = .svc ∧ x = 10)) : xHoldsWriters w x = false :=
  Bool.eq_false_iff.mpr fun e => h ((xHoldsWriters_iff w x).mp e)

/-! ## Hold-and-flag registers (R54) -/

section Hfr
variable {s : State} {w : Window} {x : Nat} (hk : xKind w x = 3)
include hk

/-- In RESYNC an offer only becomes the source's current value (R58). -/
theorem State.hfrOffer_resync (v : Word) (hs : s.xState w x = 1) (hh : xHoldsWriters w x = false) :
    s.hfrOffer w x v = s.setXing w x { s.xing w x with cur := some v } := by
  simp [State.hfrOffer, hk, hs, hh]

/-- Crossing 10 keeps its writer (R290). -/
theorem State.hfrOffer_resync_held (v : Word) (hs : s.xState w x = 1) (hh : xHoldsWriters w x = true) :
    s.hfrOffer w x v = s.setXing w x { s.xing w x with waiting := (s.xing w x).waiting ++ [v] } := by
  simp [State.hfrOffer, hk, hs, hh]

theorem State.hfrOffer_empty (v : Word) (hs : s.xState w x ≠ 1) (h : (s.xing w x).held = none) :
    s.hfrOffer w x v = s.putXing w x { s.xing w x with cur := some v, held := some v } := by
  simp [State.hfrOffer, hk, hs, h]

theorem State.hfrOffer_pending (v : Word) (hs : s.xState w x ≠ 1) (h : (s.xing w x).held ≠ none) (hn : (s.xing w x).next = none) :
    s.hfrOffer w x v = s.putXing w x { s.xing w x with cur := some v, next := some v } := by
  obtain ⟨a, ha⟩ := Option.ne_none_iff_exists'.mp h
  simp [State.hfrOffer, hk, hs, ha, hn]

/-- A second pending value replaces the first. -/
theorem State.hfrOffer_overrun (v : Word) (hs : s.xState w x ≠ 1) (h : (s.xing w x).held ≠ none) (hn : (s.xing w x).next ≠ none)
    (hh : xHoldsWriters w x = false) :
    s.hfrOffer w x v = (s.putXing w x { s.xing w x with cur := some v, next := some v }).setF (xKey w x) XSTAT.OVERRUN 1 := by
  obtain ⟨a, ha⟩ := Option.ne_none_iff_exists'.mp h
  obtain ⟨b, hb⟩ := Option.ne_none_iff_exists'.mp hn
  simp [State.hfrOffer, hk, hs, ha, hb, hh, State.xFlag]

/-- At crossing 10 nothing is replaced (R290). -/
theorem State.hfrOffer_behind (v : Word) (hs : s.xState w x ≠ 1) (h : (s.xing w x).held ≠ none) (hn : (s.xing w x).next ≠ none)
    (hh : xHoldsWriters w x = true) : s.hfrOffer w x v =
      s.putXing w x { s.xing w x with cur := some v, waiting := (s.xing w x).waiting ++ [v] } := by
  obtain ⟨a, ha⟩ := Option.ne_none_iff_exists'.mp h
  obtain ⟨b, hb⟩ := Option.ne_none_iff_exists'.mp hn
  simp [State.hfrOffer, hk, hs, ha, hb, hh]

omit hk in
theorem State.hfrAck_idle (h : s.xState w x ≠ 0 ∨ (s.xing w x).held = none) : s.hfrAck w x = s := by
  unfold State.hfrAck
  rcases h with h | h
  · simp [h]
  · simp only [h, ite_self]

theorem State.hfrAck_held {h : Word} (hs : s.xState w x = 0) (e : (s.xing w x).held = some h) : s.hfrAck w x =
    s.putXing w x { s.xing w x with dest := h, held := (s.xing w x).next, next := (s.xing w x).waiting.head?,
                                    waiting := (s.xing w x).waiting.drop 1 } := by
  simp [State.hfrAck, hk, hs, e]

omit hk in
/-- The acknowledgement takes a setting of crossing 10 where one is held, and a held value otherwise. -/
theorem State.hfrTaken_setting (h : w = .svc ∧ x = 10) (hq : s.aonQueue ≠ []) : s.hfrTaken w x = s.aonTake := by
  simp [State.hfrTaken, xHoldsWriters_of h, hq]

omit hk in
theorem State.hfrTaken_value (h : ¬ (w = .svc ∧ x = 10) ∨ s.aonQueue = []) : s.hfrTaken w x = s.hfrAck w x := by
  rcases h with h | h
  · simp [State.hfrTaken, xHoldsWriters_of_not h]
  · simp [State.hfrTaken, h]

end Hfr

/-! ## Pulse crossings (R55) -/

theorem Crossing.pulseRequest_wait (c : Crossing) (h : c.phase ≠ .idle ∨ c.counter = 0) : c.pulseRequest = c := by
  rcases h with h | h <;> simp [Crossing.pulseRequest, h]

section Pulse
variable {s : State} {w : Window} {x : Nat}

theorem State.pulseEvent_full (hk : xKind w x = 4) (h : (s.xing w x).counter = 15) :
    s.pulseEvent w x = s.setF (xKey w x) XSTAT.OVERRUN 1 := by
  simp [State.pulseEvent, hk, h, State.xFlag]

theorem State.pulseEvent_counted (hk : xKind w x = 4) (h : (s.xing w x).counter ≠ 15)
    (hb : (s.xing w x).phase ≠ .idle ∨ s.xState w x = 1) :
    s.pulseEvent w x = s.putXing w x { s.xing w x with counter := (s.xing w x).counter + 1 } := by
  rcases hb with hb | hb
  · simp [State.pulseEvent, hk, h, Crossing.pulseRequest_wait _ (.inl (a := ({ s.xing w x with
      counter := (s.xing w x).counter + 1 } : Crossing).phase ≠ .idle) hb)]
  · simp [State.pulseEvent, hk, h, hb]

theorem State.pulseEvent_raised (hk : xKind w x = 4) (h : (s.xing w x).counter ≠ 15) (hp : (s.xing w x).phase = .idle)
    (hs : s.xState w x ≠ 1) : s.pulseEvent w x =
      s.putXing w x { s.xing w x with counter := 0, flight := (s.xing w x).counter + 1, phase := .requested } := by
  simp [State.pulseEvent, hk, h, hs, Crossing.pulseRequest, hp]

theorem State.pulseDone_wait (h : (s.xing w x).phase ≠ .acked) : s.pulseDone w x = s := by
  simp [State.pulseDone, h]

theorem State.pulseDone_idle (hk : xKind w x = 4) (h : (s.xing w x).phase = .acked)
    (hc : (s.xing w x).counter = 0 ∨ s.xState w x = 1) :
    s.pulseDone w x = s.putXing w x { s.xing w x with phase := .idle } := by
  rcases hc with hc | hc <;> simp [State.pulseDone, hk, h, hc, Crossing.pulseRequest]

theorem State.pulseDone_raised (hk : xKind w x = 4) (h : (s.xing w x).phase = .acked) (hc : (s.xing w x).counter ≠ 0)
    (hs : s.xState w x ≠ 1) : s.pulseDone w x =
      s.putXing w x { s.xing w x with counter := 0, flight := (s.xing w x).counter, phase := .requested } := by
  simp [State.pulseDone, hk, h, hs, Crossing.pulseRequest, hc]

/-- `s` with the count in flight of a pulse crossing taken by its destination, and the acknowledge raised. -/
def State.pulseTaken (s : State) (w : Window) (x : Nat) : State :=
  s.putXing w x { s.xing w x with phase := .acked, dest := BitVec.ofNat 64 (s.xing w x).flight, flight := 0 }

theorem State.pulseLand_wait (h : (s.xing w x).phase ≠ .requested ∨ s.xState w x ≠ 0) : s.pulseLand w x = s := by
  rcases h with h | h <;> simp [State.pulseLand, State.pulseDeliver, h]

theorem State.pulseDeliver_source (hk : xKind w x = 4) (hp : (s.xing w x).phase = .requested) (hs : s.xState w x = 0) {n : Nat}
    (hn : pulseSource w x = some n) : s.pulseDeliver w x = (s.pulseTaken w x).arrive n (s.xing w x).flight := by
  simp [State.pulseDeliver, hk, hp, hs, hn, State.pulseTaken]

theorem State.pulseDeliver_taken (hk : xKind w x = 4) (hp : (s.xing w x).phase = .requested) (hs : s.xState w x = 0)
    (hn : pulseSource w x = none) : s.pulseDeliver w x = s.pulseTaken w x := by
  simp [State.pulseDeliver, hk, hp, hs, hn, State.pulseTaken]

/-- The count of a PCIe crossing comes to PCIE_EVT (R62). -/
theorem State.pulseLand_pcie (hk : xKind .pcie x = 4) (hp : (s.xing .pcie x).phase = .requested) (hs : s.xState .pcie x = 0) :
    s.pulseLand .pcie x = (s.pulseTaken .pcie x).pciePulse x (s.xing .pcie x).flight := by
  rw [← State.pulseDeliver_taken hk hp hs rfl]
  simp [State.pulseLand, hk, hp, hs]

/-- Crossing 12 of the service complex brings the arrivals that the AON domain kept (R289). -/
theorem State.pulseLand_aon (hk : xKind .svc 12 = 4) (hp : (s.xing .svc 12).phase = .requested) (hs : s.xState .svc 12 = 0)
    (hon : (s.pulseTaken .svc 12).isOn 301 = true) : s.pulseLand .svc 12 = (s.pulseTaken .svc 12).deliverAon := by
  rw [← State.pulseDeliver_taken hk hp hs rfl] at hon ⊢
  simp [State.pulseLand, hk, hp, hs, State.hubOn, hon]

/-- Any other count has come where it goes once it is delivered. -/
theorem State.pulseLand_delivered (hw : w ≠ .pcie) (h : ¬ (w = .svc ∧ x = 12 ∧ (s.pulseDeliver w x).isOn 301 = true)) :
    s.pulseLand w x = s.pulseDeliver w x := by
  unfold State.pulseLand
  extract_lets c due d
  split
  · rfl
  · cases w
    case pcie => exact absurd rfl hw
    case svc =>
      refine if_neg fun e => h ?_
      simp only [Bool.and_eq_true, decide_eq_true_eq] at e
      exact ⟨rfl, e⟩
    all_goals rfl

/-- A crossing with an event source of the hub is neither of the PCIe window nor crossing 12 of the service complex. -/
theorem pulseSource_some {w : Window} {x n : Nat} (h : pulseSource w x = some n) : w ≠ .pcie ∧ ¬ (w = .svc ∧ x = 12) := by
  refine ⟨fun e => ?_, fun e => ?_⟩
  · subst e; cases h
  · obtain ⟨rfl, rfl⟩ := e; cases h

theorem Window.lt_of_xOk {w : Window} {x : Nat} (h : w.xOk x = true) : x < w.crossings :=
  of_decide_eq_true (Bool.and_eq_true_iff.mp h).2

theorem pulseSource_mc {d x : Nat} (h : (Window.mc d).xOk x = true) (h4 : 4 ≤ x) :
    pulseSource (.mc d) x = some (6976 + 8 * d + (x - 4)) := by
  have hx : x < 12 := Window.lt_of_xOk h
  exact if_pos (Bool.and_eq_true_iff.mpr ⟨decide_eq_true h4, decide_eq_true (by omega)⟩)

theorem pulseSource_link {n x : Nat} (h : (Window.link n).xOk x = true) (h6 : 6 ≤ x) :
    pulseSource (.link n) x = some (6400 + 4 * n + (x - 6)) := by
  have hx : x < 10 := Window.lt_of_xOk h
  exact if_pos (Bool.and_eq_true_iff.mpr ⟨decide_eq_true h6, decide_eq_true (by omega)⟩)

theorem pulseSource_time {x : Nat} (h : Window.time.xOk x = true) (hk : xKind .time x = 4) :
    pulseSource .time x = some (7167 + x) := by
  have hx : x < 17 := Window.lt_of_xOk h
  have h0 : x ≠ 0 := fun e => by subst e; cases hk
  exact if_pos (Bool.and_eq_true_iff.mpr ⟨decide_eq_true (by omega), decide_eq_true (by omega)⟩)

/-- Link state, hot reset and power state pulses have each a PCIE_EVT bit (R62, R489). -/
theorem State.pciePulse_named (s : State) (x n : Nat) (h : x ≠ 5) : s.pciePulse x n = (numsFrom 0 n).foldl (fun v _ =>
    if x = 4 then v.pcieEvt (if v.fld PCIE_STAT.adr PCIE_STAT.LTSSM = 0 then PCIE_EVT.LINK_DOWN else PCIE_EVT.LINK_UP)
    else if x = 6 then (if v.endpoint = true then v.pcieEvt PCIE_EVT.HOT_RESET else v)
    else if x = 7 then v.pcieEvt PCIE_EVT.PM else v) s := by
  simp [State.pciePulse, h]

/-- Whether an error pulse is correctable is a free value. -/
theorem State.pciePulse_error (s : State) : ∃ f, (f = PCIE_EVT.CORR ∨ f = PCIE_EVT.UNCORR) ∧ s.pciePulse 5 1 = s.tick.pcieEvt f := by
  refine ⟨if (Config.freeWord s.freeTick).getLsbD 0 then PCIE_EVT.UNCORR else PCIE_EVT.CORR, ?_, rfl⟩
  split
  · exact .inr rfl
  · exact .inl rfl

end Pulse

/-! ## Queue crossings (R53) -/

/-- A held word enters a ring that has room for it. -/
theorem Crossing.refill_room (c : Crossing) (d : Nat) (v : Word) (l : List Word) (hc : c.waiting = v :: l) (h : c.words.length + 1 = d) :
    c.refill d = { c with words := c.words ++ [v], waiting := l } := by
  have : d - c.words.length = 1 := by omega
  simp [Crossing.refill, this, hc]

/-- A word enters a ring that has room and holds no producer. -/
theorem Crossing.refill_enter (c : Crossing) (d : Nat) (v : Word) (he : c.waiting = []) (h : c.words.length < d) :
    ({ c with waiting := c.waiting ++ [v] } : Crossing).refill d = { c with words := c.words ++ [v] } := by
  obtain ⟨k, hk⟩ : ∃ k, d - c.words.length = k + 1 := ⟨d - c.words.length - 1, by omega⟩
  cases c
  simp only at he hk
  simp [Crossing.refill, hk, he]

theorem Crossing.refill_full (c : Crossing) (d : Nat) (h : d ≤ c.words.length) : c.refill d = c := by
  have : d - c.words.length = 0 := by omega
  simp [Crossing.refill, this]

theorem Crossing.refill_none (c : Crossing) (d : Nat) (h : c.waiting = []) : c.refill d = c := by
  cases c; simp only at h; subst h; simp [Crossing.refill]

section Queue
variable {s : State} {w : Window} {x : Nat}

/-- A word written outside RESYNC waits behind those of other producers and enters as far as there is room. -/
theorem State.xWrite_entered (hk : xKind w x = 1 ∨ xKind w x = 2) (v : Word) (hs : s.xState w x ≠ 1) : s.xWrite w x v =
    s.putXing w x (({ s.xing w x with waiting := (s.xing w x).waiting ++ [v] } : Crossing).refill (xDepth w x)) := by
  rcases hk with hk | hk <;> simp [State.xWrite, hk, hs]

theorem State.xWrite_held (hk : xKind w x = 1 ∨ xKind w x = 2) (v : Word) (hs : s.xState w x = 1)
    (h : (s.xing w x).timedOut = false ∨ xClockless w x = false) : s.xWrite w x v =
    s.putXing w x { s.xing w x with waiting := (s.xing w x).waiting ++ [v] } := by
  have hc : ((s.xing w x).timedOut && xClockless w x) = false := by rcases h with h | h <;> simp [h]
  rcases hk with hk | hk <;> simp [State.xWrite, hk, hs, hc]

/-- After the time-out of R60 a request is answered and counted. -/
theorem State.xWrite_answered (hk : xKind w x = 1 ∨ xKind w x = 2) (v : Word) (hs : s.xState w x = 1)
    (ht : (s.xing w x).timedOut = true) (hc : xClockless w x = true) : s.xWrite w x v =
    (s.satF (xCnt w x) XCNT.DISCARD 1).setF (xKey w x) XSTAT.TIMEOUT 1 := by
  rcases hk with hk | hk <;> simp [State.xWrite, hk, hs, ht, hc, State.xFlag]

theorem State.xRead_wait (h : s.xState w x ≠ 0 ∨ (s.xing w x).words = []) : s.xRead w x = s := by
  unfold State.xRead
  rcases h with h | h
  · simp [h]
  · simp only [h, ite_self]

theorem State.xRead_taken (hk : xKind w x = 1 ∨ xKind w x = 2) {a : Word} {r : List Word} (hs : s.xState w x = 0)
    (h : (s.xing w x).words = a :: r) : s.xRead w x =
    s.putXing w x (({ s.xing w x with words := r, dest := a } : Crossing).refill (xDepth w x)) := by
  rcases hk with hk | hk <;> simp [State.xRead, hk, hs, h]

/-- A word enters a ring that has room and no producer waiting. -/
theorem State.xWrite_room (hk : xKind w x = 1 ∨ xKind w x = 2) (v : Word) (hs : s.xState w x ≠ 1) (he : (s.xing w x).waiting = [])
    (hl : (s.xing w x).words.length < xDepth w x) :
    s.xWrite w x v = s.putXing w x { s.xing w x with words := (s.xing w x).words ++ [v] } := by
  rw [State.xWrite_entered hk v hs]
  exact congrArg (s.putXing w x) (Crossing.refill_enter _ _ v he hl)

/-- A word is held while the ring is full. -/
theorem State.xWrite_full (hk : xKind w x = 1 ∨ xKind w x = 2) (v : Word) (hs : s.xState w x ≠ 1)
    (hl : xDepth w x ≤ (s.xing w x).words.length) :
    s.xWrite w x v = s.putXing w x { s.xing w x with waiting := (s.xing w x).waiting ++ [v] } := by
  rw [State.xWrite_entered hk v hs]
  exact congrArg (s.putXing w x) (Crossing.refill_full _ _ hl)

theorem State.xRead_alone (hk : xKind w x = 1 ∨ xKind w x = 2) {a : Word} {r : List Word} (hs : s.xState w x = 0)
    (h : (s.xing w x).words = a :: r) (he : (s.xing w x).waiting = []) :
    s.xRead w x = s.putXing w x { s.xing w x with words := r, dest := a } := by
  rw [State.xRead_taken hk hs h]
  exact congrArg (s.putXing w x) (Crossing.refill_none _ _ he)

/-- Reading a full ring lets the oldest held producer in. -/
theorem State.xRead_admits (hk : xKind w x = 1 ∨ xKind w x = 2) {a y : Word} {r l : List Word} (hs : s.xState w x = 0)
    (h : (s.xing w x).words = a :: r) (hd : (s.xing w x).words.length = xDepth w x) (he : (s.xing w x).waiting = y :: l) :
    s.xRead w x = s.putXing w x { s.xing w x with words := r ++ [y], dest := a, waiting := l } := by
  rw [h, List.length_cons] at hd
  rw [State.xRead_taken hk hs h]
  exact congrArg (s.putXing w x) (Crossing.refill_room _ _ y l he hd)

end Queue

end Sys2Proof.Machine
end

section
/-!
SUPPORT. Crossings with a stopped clock and in RESYNC (R57 to R60).
-/

namespace Sys2Proof.Machine

/-! ## The registers of a crossing -/

theorem xCnt_ne_xKey (w : Window) (x : Nat) : xCnt w x ≠ xKey w x := by unfold xCnt xKey XCNT.adr XSTAT.adr; omega
theorem xCtl_ne_xKey (w : Window) (x : Nat) : XCTL.adr (winBase w) x ≠ xKey w x := by unfold xKey XCTL.adr XSTAT.adr; omega
theorem xCtl_ne_xCnt (w : Window) (x : Nat) : XCTL.adr (winBase w) x ≠ xCnt w x := by unfold xCnt XCTL.adr XCNT.adr; omega

/-- A crossing reads back what it was left to hold. -/
@[simp] theorem State.xing_putXing (s : State) (w : Window) (x : Nat) (c : Crossing) : (s.putXing w x c).xing w x = c := by
  unfold State.putXing State.setXState
  dsimp only
  split <;> simp

@[simp] theorem State.xing_satF (s : State) (a : Nat) (f : Fld) (n : Nat) (w : Window) (x : Nat) :
    (s.satF a f n).xing w x = s.xing w x := rfl
@[simp] theorem State.xing_setXState (s : State) (w : Window) (x n : Nat) : (s.setXState w x n).xing w x = s.xing w x := rfl

theorem State.rd_putXing_ne (s : State) (w : Window) (x : Nat) (c : Crossing) {a : Nat} (h : a ≠ xKey w x) :
    (s.putXing w x c).rd a = s.rd a := by
  unfold State.putXing State.setXState
  dsimp only
  split <;> simp [State.rd_setF, h]

theorem State.fld_putXing_ne (s : State) (w : Window) (x : Nat) (c : Crossing) {a : Nat} (f : Fld) (h : a ≠ xKey w x) :
    (s.putXing w x c).fld a f = s.fld a f := by rw [State.fld, State.rd_putXing_ne s w x c h, State.fld]

/-- The sticky bits of XSTAT and DST_STOPPED keep their values. -/
theorem State.fld_putXing_flag (s : State) (w : Window) (x : Nat) (c : Crossing) (f : Fld) (hf : f.lo ≤ f.hi) (h8 : f.hi < 8) :
    (s.putXing w x c).fld (xKey w x) f = s.fld (xKey w x) f := by
  have level (u : State) (n : Nat) : (u.setF (xKey w x) XSTAT.LEVEL n).fld (xKey w x) f = u.fld (xKey w x) f :=
    State.fld_setF_apart _ _ _ _ _ _ (.inl h8) hf (by decide)
  unfold State.putXing State.setXState
  dsimp only
  split
  · rw [State.fld_setF_apart _ _ _ _ _ _ (.inl (Nat.lt_trans h8 (by decide))) hf (by decide), level]
    rfl
  · rw [level]
    rfl

/-- LEVEL shows what the crossing holds. -/
theorem State.level_putXing (s : State) (w : Window) (x : Nat) (c : Crossing) :
    (s.putXing w x c).fld (xKey w x) XSTAT.LEVEL = c.level (xKind w x) % 256 := by
  unfold State.putXing State.setXState
  dsimp only
  split
  · rw [State.fld_setF_apart _ _ _ _ _ _ (by decide) (by decide) (by decide), State.fld_setF _ _ _ _ (by decide)]
    rfl
  · rw [State.fld_setF _ _ _ _ (by decide)]
    rfl

theorem State.xState_setXState (s : State) (w : Window) (x n : Nat) : (s.setXState w x n).xState w x = n % 16 :=
  State.fld_setF _ _ _ _ (by decide)

/-- A field of XSTAT above STATE or below it leaves STATE as it was. -/
theorem State.xState_setF_flag (s : State) (w : Window) (x : Nat) (f : Fld) (n : Nat) (hf : f.lo ≤ f.hi) (h : f.hi < 16) :
    (s.setF (xKey w x) f n).xState w x = s.xState w x :=
  State.fld_setF_apart _ _ _ _ _ _ (.inr h) (by decide) hf

theorem State.xState_setF_ne (s : State) (w : Window) (x a : Nat) (f : Fld) (n : Nat) (h : xKey w x ≠ a) :
    (s.setF a f n).xState w x = s.xState w x := State.fld_setF_ne _ _ _ _ _ _ h

/-! ## A stopped destination clock (R57) -/

theorem State.dstStopped_none (s : State) (w : Window) (x : Nat) (hk : xKind w x = 0) : s.dstStopped w x = s := if_pos hk

theorem State.dstStopped_holding (s : State) (w : Window) (x : Nat) (hk : xKind w x ≠ 0) (hs : s.xState w x = 0)
    (hd : (s.xing w x).waitingData = true) :
    s.dstStopped w x = (s.setF (xKey w x) XSTAT.DST_STOPPED 1).setF (xKey w x) XSTAT.STATE 2 := by
  simp [State.dstStopped, State.xFlag, hk, State.xState_setF_flag s w x XSTAT.DST_STOPPED 1 (by decide) (by decide), hs, hd,
    State.setXState]

theorem State.dstStopped_empty (s : State) (w : Window) (x : Nat) (hk : xKind w x ≠ 0)
    (h : s.xState w x ≠ 0 ∨ (s.xing w x).waitingData = false) : s.dstStopped w x = s.setF (xKey w x) XSTAT.DST_STOPPED 1 := by
  rcases h with h | h <;>
    simp [State.dstStopped, State.xFlag, hk, State.xState_setF_flag s w x XSTAT.DST_STOPPED 1 (by decide) (by decide), h]

theorem State.dstReturn_eq (s : State) (w : Window) (x : Nat) : s.dstReturn w x = if s.xState w x = 2
    then (s.setF (xKey w x) XSTAT.DST_STOPPED 0).setF (xKey w x) XSTAT.STATE 0 else s.setF (xKey w x) XSTAT.DST_STOPPED 0 := by
  simp [State.dstReturn, State.xState_setF_flag s w x XSTAT.DST_STOPPED 0 (by decide) (by decide), State.setXState]

/-! ## RESYNC (R58 to R60) -/

/-- What a crossing holds once its RESYNC has started: its held writers and the source's value alone. -/
def Crossing.emptied (c : Crossing) (again cold : Bool) : Crossing :=
  { Crossing.reset with waiting := c.waiting, cur := c.cur, timedOut := again, cold := cold }

/-- `s` with the contents of a crossing discarded and counted. -/
def State.emptyXing (s : State) (w : Window) (x : Nat) (p : Bool) : State :=
  (s.satF (xCnt w x) XCNT.DISCARD ((s.xing w x).discards (xKind w x))).putXing w x
    ((s.xing w x).emptied (decide (s.xState w x = 1) && (s.xing w x).timedOut) p)

theorem Crossing.level_emptied (c : Crossing) (again cold : Bool) (kind : Nat) : (c.emptied again cold).level kind = 0 := by
  unfold Crossing.level
  split
  · rfl
  · split
    · rfl
    · split <;> rfl

theorem State.fld_emptyXing_discard (s : State) (w : Window) (x : Nat) (p : Bool) :
    (s.emptyXing w x p).fld (xCnt w x) XCNT.DISCARD =
      min (2 ^ 32 - 1) (s.fld (xCnt w x) XCNT.DISCARD + (s.xing w x).discards (xKind w x)) := by
  unfold State.emptyXing
  rw [State.fld_putXing_ne _ _ _ _ _ (xCnt_ne_xKey w x), State.fld_satF _ _ _ _ (by decide)]
  rfl

theorem State.level_emptyXing (s : State) (w : Window) (x : Nat) (p : Bool) :
    (s.emptyXing w x p).fld (xKey w x) XSTAT.LEVEL = 0 := by
  rw [State.emptyXing, State.level_putXing, Crossing.level_emptied]

theorem State.seen_emptyXing (s : State) (w : Window) (x : Nat) (p : Bool) :
    (s.emptyXing w x p).fld (xKey w x) XSTAT.RESYNC_SEEN = s.fld (xKey w x) XSTAT.RESYNC_SEEN := by
  rw [State.emptyXing, State.fld_putXing_flag _ _ _ _ _ (by decide) (by decide), State.satF,
    State.fld_setF_ne _ _ _ _ _ _ (xCnt_ne_xKey w x).symm]

theorem State.resyncStart_eq (s : State) (w : Window) (x : Nat) (p : Bool) (hk : xKind w x ≠ 0) : s.resyncStart w x p =
    if p = true then (s.emptyXing w x p).setXState w x 1
    else ((s.emptyXing w x p).setXState w x 1).setF (xKey w x) XSTAT.RESYNC_SEEN 1 := by
  have hs (n : Nat) : (s.satF (xCnt w x) XCNT.DISCARD n).xState w x = s.xState w x :=
    State.xState_setF_ne _ _ _ _ _ _ (xCnt_ne_xKey w x).symm
  rw [State.resyncStart, if_neg hk]
  simp only [hs]
  rfl

/-- Starting a resynchronisation discards the contents and counts them. -/
theorem State.resyncStart_facts (s : State) (w : Window) (x : Nat) (p : Bool) (hk : xKind w x ≠ 0) :
    (s.resyncStart w x p).xState w x = 1 ∧
    (s.resyncStart w x p).xing w x = (s.xing w x).emptied (decide (s.xState w x = 1) && (s.xing w x).timedOut) p ∧
    (s.resyncStart w x p).fld (xCnt w x) XCNT.DISCARD =
      min (2 ^ 32 - 1) (s.fld (xCnt w x) XCNT.DISCARD + (s.xing w x).discards (xKind w x)) ∧
    (s.resyncStart w x p).fld (xKey w x) XSTAT.LEVEL = 0 ∧
    (s.resyncStart w x p).fld (xKey w x) XSTAT.RESYNC_SEEN = if p = true then s.fld (xKey w x) XSTAT.RESYNC_SEEN else 1 := by
  have hx : (s.emptyXing w x p).xing w x = _ := State.xing_putXing _ w x _
  have state : ((s.emptyXing w x p).setXState w x 1).xState w x = 1 := State.xState_setXState _ w x 1
  have flag (f : Fld) (h : f.hi < 16) (hf : f.lo ≤ f.hi) :
      ((s.emptyXing w x p).setXState w x 1).fld (xKey w x) f = (s.emptyXing w x p).fld (xKey w x) f :=
    State.fld_setF_apart _ _ _ _ _ _ (.inl h) hf (by decide)
  have count : ((s.emptyXing w x p).setXState w x 1).fld (xCnt w x) XCNT.DISCARD = _ :=
    (State.fld_setF_ne _ _ _ _ _ _ (xCnt_ne_xKey w x)).trans (s.fld_emptyXing_discard w x p)
  rw [State.resyncStart_eq s w x p hk]
  cases p
  case true =>
    simp only [if_true]
    exact ⟨state, hx, count, by rw [flag _ (by decide) (by decide), State.level_emptyXing],
      by rw [flag _ (by decide) (by decide), State.seen_emptyXing]⟩
  case false =>
    simp only [Bool.false_eq_true, if_false]
    refine ⟨?_, hx, ?_, ?_, ?_⟩
    · rw [State.xState_setF_flag _ _ _ _ _ (by decide) (by decide), state]
    · rw [State.fld_setF_ne _ _ _ _ _ _ (xCnt_ne_xKey w x), count]
    · rw [State.fld_setF_apart _ _ _ _ _ _ (by decide) (by decide) (by decide), flag _ (by decide) (by decide),
        State.level_emptyXing]
    · rw [State.fld_setF _ _ _ _ (by decide)]
      rfl

/-- What a crossing holds once it is READY again: held requests proceed, and an HFR's source offers its value again. -/
def Crossing.resynced (c : Crossing) (w : Window) (x : Nat) : Crossing :=
  let c := { c with timedOut := false, cold := false }
  let c := if xHoldsWriters w x then
      { c with held := c.waiting.head?, next := (c.waiting.drop 1).head?, waiting := c.waiting.drop 2 }
    else if xKind w x = 3 then { c with held := c.cur } else c
  if xKind w x = 4 then c.pulseRequest else if xKind w x = 3 then c else c.refill (xDepth w x)

theorem Crossing.resynced_hfr (c : Crossing) {w : Window} {x : Nat} (hk : xKind w x = 3) (hh : xHoldsWriters w x = false) :
    (c.resynced w x).held = c.cur := by simp [Crossing.resynced, hk, hh]

theorem Crossing.resynced_queue (c : Crossing) {w : Window} {x : Nat} (hk : xKind w x ≤ 2) (hh : xHoldsWriters w x = false) :
    c.resynced w x = ({ c with timedOut := false, cold := false } : Crossing).refill (xDepth w x) := by
  have h3 : xKind w x ≠ 3 := by omega
  have h4 : xKind w x ≠ 4 := by omega
  simp [Crossing.resynced, h3, h4, hh]

theorem Crossing.resynced_pulse (c : Crossing) {w : Window} {x : Nat} (hk : xKind w x = 4) (hh : xHoldsWriters w x = false)
    (hc : c.counter ≠ 0) (hp : c.phase = .idle) : (c.resynced w x).flight = c.counter ∧ (c.resynced w x).phase = .requested := by
  simp [Crossing.resynced, hk, hh, Crossing.pulseRequest, hc, hp]

theorem State.resyncComplete_stays (s : State) (w : Window) (x : Nat)
    (h : s.xState w x ≠ 1 ∨ xKind w x = 0 ∨ s.has (xKey w x) XSTAT.DST_STOPPED = true) : s.resyncComplete w x = s := by
  rcases h with h | h | h <;> simp [State.resyncComplete, h]

/-- Ending a resynchronisation. -/
theorem State.resyncComplete_facts (s : State) (w : Window) (x : Nat) (hk : xKind w x ≠ 0) (hs : s.xState w x = 1)
    (hd : s.has (xKey w x) XSTAT.DST_STOPPED = false) :
    (s.resyncComplete w x).xState w x = 0 ∧ (s.resyncComplete w x).xing w x = (s.xing w x).resynced w x ∧
    (s.resyncComplete w x).fld (XCTL.adr (winBase w) x) XCTL.RESYNC = 0 ∧
    (s.resyncComplete w x).fld (xCnt w x) XCNT.RESYNCS = min (2 ^ 16 - 1) (s.fld (xCnt w x) XCNT.RESYNCS + 1) := by
  have e : s.resyncComplete w x = (((s.putXing w x ((s.xing w x).resynced w x)).setXState w x 0).satF (xCnt w x)
      XCNT.RESYNCS 1).setF (XCTL.adr (winBase w) x) XCTL.RESYNC 0 := by
    rw [State.resyncComplete, if_neg (by simp [hs, hk, hd])]
    rfl
  rw [e]
  refine ⟨?_, ?_, ?_, ?_⟩
  · rw [State.xState_setF_ne _ _ _ _ _ _ (xCtl_ne_xKey w x).symm, State.satF,
      State.xState_setF_ne _ _ _ _ _ _ (xCnt_ne_xKey w x).symm, State.xState_setXState, Nat.zero_mod]
  · rw [State.xing_setF, State.xing_satF, State.xing_setXState, State.xing_putXing]
  · rw [State.fld_setF _ _ _ _ (by decide), Nat.zero_mod]
  · rw [State.fld_setF_ne _ _ _ _ _ _ (xCtl_ne_xCnt w x).symm, State.fld_satF _ _ _ _ (by decide), State.setXState,
      State.fld_setF_ne _ _ _ _ _ _ (xCnt_ne_xKey w x), State.fld_putXing_ne _ _ _ _ _ (xCnt_ne_xKey w x)]
    rfl

theorem State.resyncHoldTimeout_none (s : State) (w : Window) (x : Nat)
    (h : s.xState w x ≠ 1 ∨ xClockless w x = false ∨ (s.xing w x).waiting = []) : s.resyncHoldTimeout w x = s := by
  rcases h with h | h | h <;> simp [State.resyncHoldTimeout, h]

theorem State.resyncHoldTimeout_held (s : State) (w : Window) (x : Nat) (hs : s.xState w x = 1) (hc : xClockless w x = true)
    (hw : (s.xing w x).waiting ≠ []) : s.resyncHoldTimeout w x =
      ((s.satF (xCnt w x) XCNT.DISCARD (s.xing w x).waiting.length).putXing w x
        { s.xing w x with waiting := [], timedOut := true }).setF (xKey w x) XSTAT.TIMEOUT 1 := by
  simp [State.resyncHoldTimeout, hs, hc, hw, State.xFlag]

theorem xHoldsWriters_of_kind {w : Window} {x : Nat} (h : xKind w x ≠ 3) : xHoldsWriters w x = false :=
  xHoldsWriters_of_not fun e => h (by rw [e.1, e.2]; rfl)

/-- `f` at crossing 10, and nothing at any other crossing. -/
def atTen (w : Window) (x : Nat) (f : State → State) (s : State) : State := if w = .svc ∧ x = 10 then f s else s

theorem atTen_eq (w : Window) (x : Nat) (f : State → State) (s : State) :
    (if xHoldsWriters w x then f s else s) = atTen w x f s := by
  simp only [atTen, xHoldsWriters_iff]

theorem State.sideReset_eq (s : State) (w : Window) (x : Nat) (p : Bool) (hk : xKind w x ≠ 0) : s.sideReset w x p =
    atTen w x State.aonResync (if p = true then s.resyncStart w x p else (s.resyncStart w x p).event 7705) := by
  rw [← atTen_eq, State.sideReset, State.xSideReset, if_neg hk]

theorem State.ctlResync_eq (s : State) (w : Window) (x : Nat) (hk : xKind w x ≠ 0) : s.ctlResync w x =
    atTen w x State.aonResync ((s.resyncStart w x false).setF (XCTL.adr (winBase w) x) XCTL.RESYNC 1) := by
  rw [← atTen_eq, State.ctlResync, State.xResync, if_neg hk]

theorem State.resynced_eq (s : State) (w : Window) (x : Nat) :
    s.resynced w x = atTen w x (fun u => u.aonEnter.aonShow) (s.resyncComplete w x) := by
  rw [← atTen_eq]; rfl

theorem State.holdTimeout_eq (s : State) (w : Window) (x : Nat) :
    s.holdTimeout w x = atTen w x State.aonTimeout (s.resyncHoldTimeout w x) := by
  rw [← atTen_eq]; rfl

/-- A counter crossing goes through no resynchronisation, and no crossing of kind 0 exists (R59). -/
theorem State.none_at_noCrossing (s : State) (w : Window) (x : Nat) (p : Bool) (hk : xKind w x = 0) :
    s.dstStopped w x = s ∧ s.sideReset w x p = s ∧ s.ctlResync w x = s ∧ s.resynced w x = s := by
  have hh : xHoldsWriters w x = false := xHoldsWriters_of_kind (by omega)
  refine ⟨s.dstStopped_none w x hk, ?_, ?_, ?_⟩
  · simp [State.sideReset, State.xSideReset, hk, hh]
  · simp [State.ctlResync, State.xResync, hk, hh]
  · simp [State.resynced, hh, s.resyncComplete_stays w x (.inr (.inl hk))]

end Sys2Proof.Machine
end

section
/-!
SUPPORT. Crossing 10 of the service complex, which carries the settings of the AON domain (R290).
-/

namespace Sys2Proof.Machine

theorem wwStat_ne_ten : WW_STAT.adr ≠ xKey .svc 10 := by decide
theorem wwStat_ne_xCnt_ten : xCnt .svc 10 ≠ WW_STAT.adr := by decide

theorem wwSlot_ne_wwStat {i : Nat} (hi : i < 64) : WW_SLOT.adr i ≠ WW_STAT.adr := by
  simp only [WW_SLOT.adr, WW_STAT.adr]
  omega

theorem wwSlot_ne_ten {i : Nat} (hi : i < 64) : WW_SLOT.adr i ≠ xKey .svc 10 := by
  have e : xKey .svc 10 = 0xc09ffffa80 := by decide
  simp only [WW_SLOT.adr, e]
  omega

/-! ## What shows the crossing's contents -/

/-- Whether crossing 10 holds anything. -/
def State.aonIdle (s : State) : Bool := s.aonQueue.isEmpty && s.aonWait.isEmpty

theorem State.aonIdle_iff (s : State) : s.aonIdle = true ↔ s.aonQueue = [] ∧ s.aonWait = [] := by simp [State.aonIdle]

theorem State.aonShow_eq (s : State) : s.aonShow =
    (s.setF WW_STAT.adr WW_STAT.BUSY (b2n !s.aonIdle)).setF (xKey .svc 10) XSTAT.LEVEL (b2n (1 < s.aonQueue.length)) := rfl

theorem State.rd_aonShow (s : State) {r : Nat} (h1 : r ≠ WW_STAT.adr) (h2 : r ≠ xKey .svc 10) : s.aonShow.rd r = s.rd r := by
  rw [State.aonShow_eq, State.rd_setF_ne _ _ _ _ _ h2, State.rd_setF_ne _ _ _ _ _ h1]

theorem State.busy_aonShow (s : State) : s.aonShow.fld WW_STAT.adr WW_STAT.BUSY = b2n !s.aonIdle := by
  rw [State.aonShow_eq, State.fld_setF_ne _ _ _ _ _ _ wwStat_ne_ten, State.fld_setF _ _ _ _ (by decide)]
  cases s.aonIdle <;> rfl

theorem State.fld_aonShow_ten (s : State) (f : Fld) (hf : f.lo ≤ f.hi) (h8 : f.hi < 8) :
    s.aonShow.fld (xKey .svc 10) f = s.fld (xKey .svc 10) f := by
  refine (State.fld_setF_apart _ _ _ XSTAT.LEVEL f _ (.inl h8) hf (by decide)).trans ?_
  exact State.fld_setF_ne _ _ _ _ _ _ wwStat_ne_ten.symm

theorem State.fld_aonShow_xCnt (s : State) (f : Fld) : s.aonShow.fld (xCnt .svc 10) f = s.fld (xCnt .svc 10) f := by
  rw [State.fld, s.rd_aonShow wwStat_ne_xCnt_ten (xCnt_ne_xKey .svc 10), State.fld]

/-! ## RESYNC and time-out -/

theorem State.aonResync_facts (s : State) : s.aonResync.aonQueue = [] ∧ s.aonResync.aonWait = s.aonWait ∧
    s.aonResync.fld (xCnt .svc 10) XCNT.DISCARD = min (2 ^ 32 - 1) (s.fld (xCnt .svc 10) XCNT.DISCARD + s.aonQueue.length) := by
  refine ⟨rfl, rfl, ?_⟩
  rw [State.aonResync, State.fld_aonShow_xCnt]
  exact s.fld_satF _ _ _ (by decide)

theorem State.aonTimeout_none (s : State) (h : s.xState .svc 10 ≠ 1 ∨ s.aonWait = []) : s.aonTimeout = s := by
  rcases h with h | h <;> simp [State.aonTimeout, h]

/-- The settings held at crossing 10 are answered and counted, and their requesters find the answer (R60). -/
theorem State.aonTimeout_held (s : State) (hs : s.xState .svc 10 = 1) (hw : s.aonWait ≠ []) :
    s.aonTimeout.aonWait = [] ∧ s.aonTimeout.fld (xKey .svc 10) XSTAT.TIMEOUT = 1 ∧
    s.aonTimeout.fld (xCnt .svc 10) XCNT.DISCARD = min (2 ^ 32 - 1) (s.fld (xCnt .svc 10) XCNT.DISCARD + s.aonWait.length) ∧
    ∀ a ∈ s.aonWait, a.asks = true → ⟨a.who, a.addr, false⟩ ∈ s.aonTimeout.aonAcks := by
  obtain ⟨u, hu, e⟩ : ∃ u : State, u.ctrl =
      ((s.satF (xCnt .svc 10) XCNT.DISCARD s.aonWait.length).setF (xKey .svc 10) XSTAT.TIMEOUT 1).ctrl ∧
      s.aonTimeout = ({ u with
        aonAcks := s.aonAcks ++ (s.aonWait.filter AonSetting.asks).map fun a => ⟨a.who, a.addr, false⟩, aonWait := [] } : State).aonShow := by
    refine ⟨_, ?_, if_pos (by simp [hs, hw])⟩
    rfl
  have fld (a : Nat) (f : Fld) : u.fld a f =
      ((s.satF (xCnt .svc 10) XCNT.DISCARD s.aonWait.length).setF (xKey .svc 10) XSTAT.TIMEOUT 1).fld a f := by
    simp only [State.fld, State.rd, hu]
  rw [e]
  refine ⟨rfl, ?_, ?_, fun a ha hasks => ?_⟩
  · rw [State.fld_aonShow_ten _ _ (by decide) (by decide)]
    refine (fld _ _).trans ?_
    rw [State.fld_setF _ _ _ _ (by decide)]
    rfl
  · rw [State.fld_aonShow_xCnt]
    refine (fld _ _).trans ?_
    rw [State.fld_setF_ne _ _ _ _ _ _ (xCnt_ne_xKey .svc 10), State.fld_satF _ _ _ _ (by decide)]
    rfl
  · exact List.mem_append_right _ (List.mem_map.mpr ⟨a, List.mem_filter.mpr ⟨ha, hasks⟩, rfl⟩)

/-! ## Writes that enter -/

theorem aonSetting_iff (a : Nat) : aonSetting a = true ↔
    (0xC050300000 ≤ a ∧ a < 0xC050300200 ∧ a % 8 = 0) ∨ a = AON_ALARM.adr ∨ a = BRD_SMB.adr := by
  simp only [aonSetting, AON_ALARM.adr, BRD_SMB.adr, Bool.or_eq_true, Bool.and_eq_true, decide_eq_true_eq, beq_iff_eq,
    and_assoc, or_assoc]

section Write
variable {s : State} (who : Who) (a : Nat) (v : Word)

/-- A write of which the requester asks for no later answer comes to crossing 10 as it then stands. -/
theorem State.aonWrite_away (hs : (s.xWarm .svc 10).xState .svc 10 = 1) (ht : ((s.xWarm .svc 10).xing .svc 10).timedOut = true) :
    (s.aonWrite who a v false).1 =
      ((s.xWarm .svc 10).satF (xCnt .svc 10) XCNT.DISCARD 1).setF (xKey .svc 10) XSTAT.TIMEOUT 1 := by
  simp [State.aonWrite, hs, ht, State.xFlag]

theorem State.aonWrite_held (h : ((s.xWarm .svc 10).xState .svc 10 = 1 ∧ ((s.xWarm .svc 10).xing .svc 10).timedOut = false) ∨
      ((s.xWarm .svc 10).xState .svc 10 ≠ 1 ∧ 2 ≤ (s.xWarm .svc 10).aonQueue.length)) : (s.aonWrite who a v false).1 =
      ({ s.xWarm .svc 10 with aonWait := (s.xWarm .svc 10).aonWait ++ [⟨who, a, v, false⟩] } : State).aonShow := by
  rcases h with ⟨h1, h2⟩ | ⟨h1, h2⟩ <;> simp [State.aonWrite, h1, h2]

theorem State.aonWrite_entered (hs : (s.xWarm .svc 10).xState .svc 10 ≠ 1) (hq : (s.xWarm .svc 10).aonQueue.length < 2) :
    (s.aonWrite who a v false).1 =
      ({ s.xWarm .svc 10 with aonQueue := (s.xWarm .svc 10).aonQueue ++ [⟨who, a, v, false⟩] } : State).aonShow := by
  have : ¬ 2 ≤ (s.xWarm .svc 10).aonQueue.length := by omega
  simp [State.aonWrite, hs, this]

/-- While a setting is on its way BUSY shows it. -/
theorem State.busy_of_not_idle (s : State) (h : s.aonIdle = false) : s.aonShow.fld WW_STAT.adr WW_STAT.BUSY = 1 := by
  rw [State.busy_aonShow, h]; rfl

end Write

/-! ## Settings that are taken -/

theorem State.aonTake_none (s : State) (h : s.aonQueue = [] ∨ (s.xState .svc 10 ≠ 0 ∧ (s.xing .svc 10).cold = false)) :
    s.aonTake = s := by
  unfold State.aonTake
  rcases h with h | ⟨h1, h2⟩
  · simp [h]
  · split
    · rfl
    · exact if_pos (by simp [h1, h2])

/-- `s` with the setting `g` taken by the AON domain, and `r` behind it (R290). -/
def State.aonTaken (s : State) (g : AonSetting) (r : List AonSetting) : State :=
  let s := ({ s with aonQueue := r } : State).aonEnter
  let s := (s.wr g.addr (aonValue (s.rd g.addr) g.addr g.value)).aonShow
  if g.addr = AON_ALARM.adr then { s with clock := { s.clock with aonArmed := true } } else s

theorem State.aonTake_taken (s : State) {g : AonSetting} {r : List AonSetting} (hq : s.aonQueue = g :: r)
    (hs : s.xState .svc 10 = 0 ∨ (s.xing .svc 10).cold = true) :
    s.aonTake = if (s.aonTaken g r).isOn 301 = true then (s.aonTaken g r).fireLevels else s.aonTaken g r := by
  unfold State.aonTake
  rw [hq]
  refine if_neg ?_
  rcases hs with h | h <;> simp [h]

/-- Arming the alarm changes the clock alone. -/
theorem State.aonTaken_eq (s : State) (g : AonSetting) (r : List AonSetting) : s.aonTaken g r =
    { ((({ s with aonQueue := r } : State).aonEnter).wr g.addr (aonValue (s.rd g.addr) g.addr g.value)).aonShow with
      clock := if g.addr = AON_ALARM.adr then { s.clock with aonArmed := true } else s.clock } := by
  unfold State.aonTaken
  dsimp only
  split <;> rfl

/-- How many settings enter behind those that wait to be taken (R290). -/
def State.aonRoom (s : State) (r : List AonSetting) : Nat := if s.xState .svc 10 = 1 then 0 else 2 - r.length

theorem State.aonTaken_queue (s : State) (g : AonSetting) (r : List AonSetting) :
    (s.aonTaken g r).aonQueue = r ++ s.aonWait.take (s.aonRoom r) := by rw [State.aonTaken_eq]; rfl
theorem State.aonTaken_wait (s : State) (g : AonSetting) (r : List AonSetting) :
    (s.aonTaken g r).aonWait = s.aonWait.drop (s.aonRoom r) := by rw [State.aonTaken_eq]; rfl
theorem State.aonTaken_clock (s : State) (g : AonSetting) (r : List AonSetting) :
    (s.aonTaken g r).clock = if g.addr = AON_ALARM.adr then { s.clock with aonArmed := true } else s.clock := by
  rw [State.aonTaken_eq]

theorem State.rd_aonTaken (s : State) (g : AonSetting) (r : List AonSetting) (h1 : g.addr ≠ WW_STAT.adr) (h2 : g.addr ≠ xKey .svc 10) :
    (s.aonTaken g r).rd g.addr = aonValue (s.rd g.addr) g.addr g.value := by
  rw [State.aonTaken_eq]
  refine (State.rd_aonShow _ h1 h2).trans ?_
  rw [State.rd_wr_self]

theorem State.busy_aonTaken (s : State) (g : AonSetting) (r : List AonSetting) :
    (s.aonTaken g r).fld WW_STAT.adr WW_STAT.BUSY = 0 ↔ r = [] ∧ s.aonWait = [] := by
  have e : (s.aonTaken g r).fld WW_STAT.adr WW_STAT.BUSY = b2n !(s.aonTaken g r).aonIdle := by
    rw [State.aonTaken_eq]; exact State.busy_aonShow _
  have hb (b : Bool) : b2n (!b) = 0 ↔ b = true := by cases b <;> decide
  rw [e, hb, State.aonIdle_iff, State.aonTaken_queue, State.aonTaken_wait, List.append_eq_nil_iff, and_assoc,
    ← List.append_eq_nil_iff, List.take_append_drop]

/-! ## Watcher slots -/

/-- Each of the 64 watcher slots has its ENABLE, ACTION and SOURCE, all of which a write stores. -/
theorem regAt_wwSlot {i : Nat} (hi : i < 64) :
    (regAt (WW_SLOT.adr i)).map (fun h => h.row.fields) = some [⟨63, 63, .rw⟩, ⟨59, 58, .rw⟩, ⟨12, 0, .rw⟩] := by
  decide +revert

theorem aonValue_slot (old v : Word) {i : Nat} (hi : i < 64) : aonValue old (WW_SLOT.adr i) v =
    if fget WW_SLOT.ACTION v = 3 then fput WW_SLOT.ACTION (fget WW_SLOT.ACTION old) (fput WW_SLOT.SOURCE (fget WW_SLOT.SOURCE v)
      (fput WW_SLOT.ACTION (fget WW_SLOT.ACTION v) (fput WW_SLOT.ENABLE (fget WW_SLOT.ENABLE v) old)))
    else fput WW_SLOT.SOURCE (fget WW_SLOT.SOURCE v)
      (fput WW_SLOT.ACTION (fget WW_SLOT.ACTION v) (fput WW_SLOT.ENABLE (fget WW_SLOT.ENABLE v) old)) := by
  obtain ⟨h, he, hf⟩ := Option.map_eq_some_iff.mp (regAt_wwSlot hi)
  have hin : (decide (0xC050300000 ≤ WW_SLOT.adr i) && decide (WW_SLOT.adr i < 0xC050300200)) = true :=
    Bool.and_eq_true_iff.mpr ⟨decide_eq_true (by unfold WW_SLOT.adr; omega), decide_eq_true (by unfold WW_SLOT.adr; omega)⟩
  unfold aonValue
  rw [he]
  simp only [hf, hin, Bool.true_and, decide_eq_true_eq]
  rfl

/-- A taken slot has the written SOURCE and ENABLE, and the written ACTION unless that is 3 (R290). -/
theorem aonValue_slot_fields (old v : Word) {i : Nat} (hi : i < 64) :
    fget WW_SLOT.SOURCE (aonValue old (WW_SLOT.adr i) v) = fget WW_SLOT.SOURCE v ∧
    fget WW_SLOT.ENABLE (aonValue old (WW_SLOT.adr i) v) = fget WW_SLOT.ENABLE v ∧
    fget WW_SLOT.ACTION (aonValue old (WW_SLOT.adr i) v) =
      if fget WW_SLOT.ACTION v = 3 then fget WW_SLOT.ACTION old else fget WW_SLOT.ACTION v := by
  have same (f : Fld) (n w : Word) (h : f.lo ≤ f.hi ∧ f.hi < 64) : fget f (fput f (fget f n) w) = fget f n := by
    rw [fget_fput f _ _ h, Nat.mod_eq_of_lt (fget_lt f n)]
  have sa (n : Nat) (w : Word) : fget WW_SLOT.SOURCE (fput WW_SLOT.ACTION n w) = fget WW_SLOT.SOURCE w :=
    fget_fput_ne _ _ _ _ (by decide) (by decide) (by decide)
  have es (n : Nat) (w : Word) : fget WW_SLOT.ENABLE (fput WW_SLOT.SOURCE n w) = fget WW_SLOT.ENABLE w :=
    fget_fput_ne _ _ _ _ (by decide) (by decide) (by decide)
  have ea (n : Nat) (w : Word) : fget WW_SLOT.ENABLE (fput WW_SLOT.ACTION n w) = fget WW_SLOT.ENABLE w :=
    fget_fput_ne _ _ _ _ (by decide) (by decide) (by decide)
  have as (n : Nat) (w : Word) : fget WW_SLOT.ACTION (fput WW_SLOT.SOURCE n w) = fget WW_SLOT.ACTION w :=
    fget_fput_ne _ _ _ _ (by decide) (by decide) (by decide)
  have sok : WW_SLOT.SOURCE.lo ≤ WW_SLOT.SOURCE.hi ∧ WW_SLOT.SOURCE.hi < 64 := by decide
  have eok : WW_SLOT.ENABLE.lo ≤ WW_SLOT.ENABLE.hi ∧ WW_SLOT.ENABLE.hi < 64 := by decide
  have aok : WW_SLOT.ACTION.lo ≤ WW_SLOT.ACTION.hi ∧ WW_SLOT.ACTION.hi < 64 := by decide
  rw [aonValue_slot old v hi]
  split
  · exact ⟨by rw [sa, same _ _ _ sok], by rw [ea, es, ea, same _ _ _ eok], same _ _ _ aok⟩
  · exact ⟨same _ _ _ sok, by rw [es, ea, same _ _ _ eok], by rw [as, same _ _ _ aok]⟩

end Sys2Proof.Machine
end

section
/-!
SUPPORT. Register writes through their gates (R11, R38, R290).
-/

namespace Sys2Proof.Machine

/-! ## A write of control space -/

/-- A write that is held waits its turn, any other is done with.  The definition is opened where it stands alone: an
application of it would be compared by evaluating the write of an address that is no number. -/
theorem State.regWrite_of {s z : State} {who : Who} {a : Nat} {v : Word} {e : Ans} (h : s.ctrlWrite who a ⟨v, false⟩ = (z, e)) :
    (e = .held → s.regWrite who a v = { z with ctrlHeld := z.ctrlHeld ++ [⟨who, a, v⟩] }) ∧
    (e ≠ .held → s.regWrite who a v = z) := by
  obtain ⟨f, hf⟩ : ∃ f, f = @State.regWrite := ⟨_, rfl⟩
  rw [← hf]
  delta State.regWrite at hf
  rw [hf]
  dsimp only
  generalize s.ctrlWrite who a ⟨v, false⟩ = p at h
  subst h
  cases e
  case held => exact ⟨fun _ => rfl, fun e => absurd rfl e⟩
  all_goals exact ⟨fun e => (nomatch e), fun _ => rfl⟩

theorem State.regWrite_unassigned {s : State} {who : Who} {a : Nat} {v : Word} (h : blkOf a = .none) : s.regWrite who a v = s := by
  refine (State.regWrite_of (e := .noResp) ?_).2 (by decide)
  unfold State.ctrlWrite
  rw [if_pos h]

/-- The outbound window lies in the PCIe block (R489). -/
theorem blkOf_outWindow {a : Nat} (h1 : 0xC0A4000000 ≤ a) (h2 : a < 0xC0A8000000) : blkOf a = .pcie := by
  obtain ⟨n, rfl⟩ := Nat.exists_eq_add_of_le h1
  have e : 0xC0A4000000 + n - 0xC000000000 = 0xA4000000 + n := by omega
  unfold blkOf
  rw [e]
  simp only [Bool.and_eq_true, decide_eq_true_eq]
  repeat rw [if_neg (by omega)]
  rw [if_pos (by omega), if_neg (by omega)]

theorem not_outWindow {a : Nat} (hn : ¬ (0xC0A4000000 ≤ a ∧ a < 0xC0A8000000)) :
    ¬ (blkOf a = .pcie && 0xC0A4000000 ≤ a && a < 0xC0A8000000) = true := by
  simp only [Bool.and_eq_true, decide_eq_true_eq]
  exact fun ⟨⟨_, h1⟩, h2⟩ => hn ⟨h1, h2⟩

section Write
variable {s u z : State} {who : Who} {a : Nat} {x : PW} {gs : Gates} (hb : blkOf a ≠ .none) (hg : s.ctrlGates who a = (u, gs))
include hb hg

/-- A gate on the way answers the write or holds it. -/
theorem State.ctrlWrite_stopped {r : Ans} (he : u.enter who true a gs = (z, some r)) : s.ctrlWrite who a x = (z, r) := by
  unfold State.ctrlWrite
  rw [if_neg hb, hg]
  dsimp only
  rw [he]

variable (he : u.enter who true a gs = (z, none))
include he

/-- A write that has passed the gates leaves through the outbound window, or comes to a register. -/
theorem State.ctrlWrite_window (h1 : 0xC0A4000000 ≤ a) (h2 : a < 0xC0A8000000) :
    s.ctrlWrite who a x = (z.pcieWinWrite (a - 0xC0A0000000) x, .ok) := by
  unfold State.ctrlWrite
  rw [if_neg hb, hg]
  dsimp only
  rw [he]
  dsimp only
  rw [if_pos (by simp [blkOf_outWindow h1 h2, h1, h2])]

variable (hn : ¬ (0xC0A4000000 ≤ a ∧ a < 0xC0A8000000))
include hn

theorem State.ctrlWrite_noRegister (h : replicaOf a ≠ a ∨ regAt a = none) : s.ctrlWrite who a x = (z, .ok) := by
  unfold State.ctrlWrite
  rw [if_neg hb, hg]
  dsimp only
  rw [he]
  dsimp only
  rw [if_neg (not_outWindow hn)]
  rcases h with h | h
  · rw [if_pos h]
  · simp only [h, ite_self]

variable {h : RegHit} (hr : replicaOf a = a) (hh : regAt a = some h)
include hr hh

/-- A register outside the AON domain's settings is written; one that only service cores write ignores any other (R219). -/
theorem State.ctrlWrite_register (hs : aonSetting a = false ∨ (svcWriteOnly a h = true ∧ ∀ i, who ≠ .svc i)) :
    s.ctrlWrite who a x = (z.writeReg who a h x.val, .ok) := by
  unfold State.ctrlWrite
  rw [if_neg hb, hg]
  dsimp only
  rw [he]
  dsimp only
  rw [if_neg (not_outWindow hn),
    if_neg (Classical.not_not.mpr hr), hh]
  dsimp only
  refine if_neg ?_
  rcases hs with hs | ⟨hs, hw⟩
  · simp [hs]
  · rw [hs]
    cases who
    case svc i => exact absurd rfl (hw i)
    all_goals simp

/-- A setting comes to crossing 10, which answers for it (R290). -/
theorem State.ctrlWrite_setting (hs : aonSetting a = true) (hw : svcWriteOnly a h = false ∨ ∃ i, who = .svc i) {y : State} {e : AonAns}
    (hy : z.aonWrite who a x.val true = (y, e)) :
    ∃ r : Ans, s.ctrlWrite who a x = (y, r) ∧ (r = .held ↔ e = .held) := by
  unfold State.ctrlWrite
  rw [if_neg hb, hg]
  dsimp only
  rw [he]
  dsimp only
  rw [if_neg (not_outWindow hn),
    if_neg (Classical.not_not.mpr hr), hh]
  dsimp only
  rw [if_pos, hy]
  case hc => rcases hw with hw | ⟨i, rfl⟩ <;> simp [*]
  cases e
  · exact ⟨.ok, rfl, by decide⟩
  · exact ⟨.held, rfl, by decide⟩
  · exact ⟨.off, rfl, by decide⟩

end Write

/-- A register that only service cores write ignores any other writer. -/
theorem State.writeReg_ignored (z : State) {who : Who} {a : Nat} {h : RegHit} (v : Word) (hs : svcWriteOnly a h = true)
    (hw : ∀ i, who ≠ .svc i) : z.writeReg who a h v = z := by
  unfold State.writeReg
  extract_lets m
  refine if_pos ?_
  rw [hs]
  cases who
  case svc i => exact absurd rfl (hw i)
  all_goals rfl

end Sys2Proof.Machine
end

section
/-!
SUPPORT. Field access codes (R11), a plain register on its way through its gate, and the tile map (R220).
-/

namespace Sys2Proof.Machine

/-! ## Access codes -/

theorem fmask_outside (f : Fld) (i : Nat) (hf : f.lo ≤ f.hi) (h : i < f.lo ∨ f.hi < i) : (fmask f).getLsbD i = false := by
  by_cases h64 : i < 64
  · rw [fmask_bit f i h64]
    have : ¬ (f.lo ≤ i ∧ i < f.lo + (f.hi - f.lo + 1)) := by omega
    simpa using this
  · exact BitVec.getLsbD_of_ge _ _ (by omega)

theorem fmask_inside (f : Fld) (i : Nat) (h64 : f.hi < 64) (h1 : f.lo ≤ i) (h2 : i ≤ f.hi) : (fmask f).getLsbD i = true := by
  rw [fmask_bit f i (by omega)]
  simp only [Bool.and_eq_true, decide_eq_true_eq]
  omega

/-- What a write can leave in a field's register: a value put into the field, bits of the field set or cleared, or nothing
new. -/
theorem FieldRow.write_cases (f : FieldRow) (al : Alias) (v old : Word) :
    (∃ n, f.write al v old = fput ⟨f.hi, f.lo⟩ n old) ∨ f.write al v old = old ||| (v &&& fmask ⟨f.hi, f.lo⟩) ∨
    f.write al v old = old &&& ~~~ (v &&& fmask ⟨f.hi, f.lo⟩) ∨ f.write al v old = old := by
  unfold FieldRow.write
  dsimp only
  split
  · exact .inl ⟨_, rfl⟩
  · exact .inl ⟨_, rfl⟩
  · exact .inl ⟨_, rfl⟩
  · exact .inr (.inl rfl)
  · exact .inr (.inl rfl)
  · exact .inr (.inl rfl)
  · exact .inr (.inl rfl)
  · exact .inr (.inr (.inl rfl))
  · exact .inr (.inr (.inl rfl))
  · exact .inr (.inr (.inl rfl))
  · exact .inr (.inr (.inl rfl))
  · exact .inr (.inr (.inr rfl))

/-- No write of a field changes a bit outside it. -/
theorem FieldRow.write_outside (f : FieldRow) (al : Alias) (v old : Word) (i : Nat) (hf : f.lo ≤ f.hi) (h : i < f.lo ∨ f.hi < i) :
    (f.write al v old).getLsbD i = old.getLsbD i := by
  have hm := fmask_outside ⟨f.hi, f.lo⟩ i hf h
  rcases f.write_cases al v old with ⟨n, e⟩ | e | e | e <;> rw [e]
  · exact fput_other _ n old i hf h
  · simp [hm]
  · by_cases h64 : i < 64
    · rw [BitVec.getLsbD_and, BitVec.getLsbD_not, BitVec.getLsbD_and, hm]
      simp [h64]
    · simp [BitVec.getLsbD_of_ge old i (by omega)]

section Codes
variable {f : FieldRow} (hlo : f.lo ≤ f.hi) (hhi : f.hi < 64) (v old : Word)
include hlo hhi

/-- RW stores. -/
theorem FieldRow.write_rw (h : f.acc = .rw) : fget ⟨f.hi, f.lo⟩ (f.write .main v old) = fget ⟨f.hi, f.lo⟩ v := by
  rw [show f.write .main v old = fput ⟨f.hi, f.lo⟩ (fget ⟨f.hi, f.lo⟩ v) old by simp [FieldRow.write, h],
    fget_fput _ _ _ ⟨hlo, hhi⟩]
  exact Nat.mod_eq_of_lt (fget_lt _ _)

/-- WA subtracts. -/
theorem FieldRow.write_wa (h : f.acc = .wa) :
    fget ⟨f.hi, f.lo⟩ (f.write .main v old) = fget ⟨f.hi, f.lo⟩ old - fget ⟨f.hi, f.lo⟩ v := by
  rw [show f.write .main v old = fput ⟨f.hi, f.lo⟩ (fget ⟨f.hi, f.lo⟩ old - fget ⟨f.hi, f.lo⟩ v) old by simp [FieldRow.write, h],
    fget_fput _ _ _ ⟨hlo, hhi⟩]
  exact Nat.mod_eq_of_lt (Nat.lt_of_le_of_lt (Nat.sub_le _ _) (fget_lt ⟨f.hi, f.lo⟩ old))

omit hlo hhi in
/-- RO ignores. -/
theorem FieldRow.write_ro (h : f.acc = .ro) (al : Alias) : f.write al v old = old := by
  cases al <;> simp [FieldRow.write, h]

omit hlo in
/-- WS sets through its set address. -/
theorem FieldRow.write_ws (h : f.acc = .ws) : f.write .main v old = old ∧
    ∀ i, f.lo ≤ i → i ≤ f.hi → (f.write .set v old).getLsbD i = (old.getLsbD i || v.getLsbD i) := by
  refine ⟨by simp [FieldRow.write, h], fun i h1 h2 => ?_⟩
  have hm := fmask_inside ⟨f.hi, f.lo⟩ i hhi h1 h2
  rw [show f.write .set v old = old ||| (v &&& fmask ⟨f.hi, f.lo⟩) by simp [FieldRow.write, h]]
  simp [hm]

omit hlo in
/-- WC clears through its clear address. -/
theorem FieldRow.write_wc (h : f.acc = .wc) : f.write .main v old = old ∧
    ∀ i, f.lo ≤ i → i ≤ f.hi → (f.write .clr v old).getLsbD i = (old.getLsbD i && !v.getLsbD i) := by
  refine ⟨by simp [FieldRow.write, h], fun i h1 h2 => ?_⟩
  have hm := fmask_inside ⟨f.hi, f.lo⟩ i hhi h1 h2
  have h64 : i < 64 := by omega
  rw [show f.write .clr v old = old &&& ~~~ (v &&& fmask ⟨f.hi, f.lo⟩) by simp [FieldRow.write, h],
    BitVec.getLsbD_and, BitVec.getLsbD_not, BitVec.getLsbD_and, hm]
  simp [h64]

end Codes

/-! ## PCIE_OUT_ADDR -/

/-- A field as wide as the register takes all of it. -/
theorem fput_full (v old : Word) : fput ⟨63, 0⟩ (fget ⟨63, 0⟩ v) old = v := by
  apply BitVec.eq_of_getLsbD_eq
  intro i hi
  rw [fput_bit _ _ _ i hi, if_pos ⟨Nat.zero_le i, by simp only; omega⟩, fget_bit]
  simp [hi]

/-- A service core's write of PCIE_OUT_ADDR while the PCIe domain is on and nothing is held stores all 64 bits. -/
theorem State.regWrite_pcieOutAddr (s : State) (i : Nat) (v : Word) (hg : s.gate 300 = .opened) (hh : s.power.held = []) :
    s.regWrite (.svc i) PCIE_OUT_ADDR.adr v = s.wr PCIE_OUT_ADDR.adr v := by
  have gates : s.ctrlGates (.svc i) PCIE_OUT_ADDR.adr = (s, [(300, .opened)]) := by
    have : s.ctrlGates (.svc i) PCIE_OUT_ADDR.adr = (s, [(300, s.gate 300)]) := rfl
    rw [this, hg]
  have entered : s.enter (.svc i) true PCIE_OUT_ADDR.adr [(300, .opened)] = (s, none) := by
    have : s.enter (.svc i) true PCIE_OUT_ADDR.adr [(300, .opened)] = (s.unhold (.svc i) true PCIE_OUT_ADDR.adr, none) := rfl
    rw [this, State.unhold, hh, List.filter_nil, ← hh]
  have written : s.ctrlWrite (.svc i) PCIE_OUT_ADDR.adr ⟨v, false⟩ =
      (s.writeReg (.svc i) PCIE_OUT_ADDR.adr ⟨⟨0xc0a0000048, [], 0, 0, false, .val 0, [⟨63, 0, .rw⟩]⟩, .main, []⟩ v, .ok) :=
    State.ctrlWrite_register (by decide) gates entered (by decide) (by decide) (by decide) (.inl (by decide))
  have stored : s.writeReg (.svc i) PCIE_OUT_ADDR.adr ⟨⟨0xc0a0000048, [], 0, 0, false, .val 0, [⟨63, 0, .rw⟩]⟩, .main, []⟩ v =
      s.wr PCIE_OUT_ADDR.adr (fput ⟨63, 0⟩ (fget ⟨63, 0⟩ v) (s.rd PCIE_OUT_ADDR.adr)) := rfl
  rw [(State.regWrite_of written).2 (by decide), stored, fput_full]

/-! ## The tile map -/

theorem State.physTile_congr {s t : State} (h : t.ctrl = s.ctrl) (j : Nat) : t.physTile j = s.physTile j := by
  unfold State.physTile State.rd
  rw [h]

theorem State.ctrl_foldl {β : Type} (f : State → β → State) (h : ∀ (s : State) (x : β), (f s x).ctrl = s.ctrl) (l : List β)
    (s : State) : (l.foldl f s).ctrl = s.ctrl := by
  induction l generalizing s with
  | nil => rfl
  | cons x r ih => exact (ih _).trans (h s x)

/-- Cores that take other numbers change no register. -/
theorem State.recore_ctrl (s old : State) (d : Nat) : (s.recore old d).ctrl = s.ctrl := by
  have moveAll (a : Nat → Nat) (f : Nat → State → Nat → State) (h : ∀ p s k, (f p s k).ctrl = s.ctrl) (s : State) (l : List Nat) :
      (l.foldl (fun s p => (numsFrom (a p) 16).foldl (f p) s) s).ctrl = s.ctrl :=
    State.ctrl_foldl _ (fun s p => State.ctrl_foldl _ (h p) _ s) l s
  unfold State.recore
  dsimp only
  generalize List.filter _ (numsFrom (d * 17) 17) = moved
  split
  · rw [moveAll (fun _ => 0), moveAll]
    · exact fun _ s _ => s.setCore_ctrl _ _
    · exact fun _ s _ => s.setCore_ctrl _ _
  · dsimp only
    rw [moveAll (fun _ => 0), moveAll]
    · exact fun _ s _ => s.setCore_ctrl _ _
    · exact fun _ s _ => s.setCore_ctrl _ _

/-- The kept bits of a tile map word. -/
theorem tileMap_kept (v : Word) (f : Fld) (hf : f = TILE_MAP.ABSENT ∨ f = TILE_MAP.POSITION) :
    fget f (v &&& (fmask TILE_MAP.ABSENT ||| fmask TILE_MAP.POSITION)) = fget f v := by
  apply Nat.eq_of_testBit_eq
  intro j
  rw [fget_bit, fget_bit, BitVec.getLsbD_and, BitVec.getLsbD_or]
  by_cases hj : j < f.hi - f.lo + 1
  · have : (fmask TILE_MAP.ABSENT).getLsbD (f.lo + j) = true ∨ (fmask TILE_MAP.POSITION).getLsbD (f.lo + j) = true := by
      rcases hf with rfl | rfl
      · exact .inl (fmask_inside _ _ (by decide) (Nat.le_add_right _ _) (by simp only [TILE_MAP.ABSENT] at hj ⊢; omega))
      · exact .inr (fmask_inside _ _ (by decide) (Nat.le_add_right _ _) (by simp only [TILE_MAP.POSITION] at hj ⊢; omega))
    rcases this with h | h <;> simp [h]
  · simp [hj]

/-! ### Updating a slot -/

theorem tileMap_adr_ne {d k j : Nat} (hk : k < 16) (h : j ≠ d * 16 + k) :
    TILE_MAP.adr (j / 16) (j % 16) ≠ TILE_MAP.adr d k := by
  unfold TILE_MAP.adr
  omega

section TileMap
variable (s : State) {d k : Nat} (hd : d < 8) (hk : k < 16) (v : Word)

/-- `s` with slot `k` of die `d` naming what `v` names. -/
def State.tileMapped (s : State) (d k : Nat) (v : Word) : State :=
  (s.wr (TILE_MAP.adr d k) (v &&& (fmask TILE_MAP.ABSENT ||| fmask TILE_MAP.POSITION))).recore s d

/-- A position that does not exist or serves another slot is not taken. -/
theorem State.writeTileMap_ignored (h : 16 < fget TILE_MAP.POSITION v ∨ (fset? TILE_MAP.ABSENT v = false ∧
    ∃ j, j < 16 ∧ j ≠ k ∧ s.physTile (d * 16 + j) = some (d * 17 + fget TILE_MAP.POSITION v))) :
    s.writeTileMap d k v = s := by
  unfold State.writeTileMap
  dsimp only
  split
  · rfl
  · next hp =>
    rcases h with h | ⟨ha, j, hj, hjk, e⟩
    · exact absurd h hp
    · refine if_pos ?_
      rw [ha, Bool.not_false, Bool.true_and, List.any_eq_true]
      exact ⟨j, (mem_numsFrom _ _ _).mpr (by omega), by simp [hjk, e]⟩

theorem State.writeTileMap_taken (hp : fget TILE_MAP.POSITION v ≤ 16) (h : fset? TILE_MAP.ABSENT v = true ∨
    ∀ j, j < 16 → j ≠ k → s.physTile (d * 16 + j) ≠ some (d * 17 + fget TILE_MAP.POSITION v)) :
    s.writeTileMap d k v = s.tileMapped d k v := by
  unfold State.writeTileMap
  dsimp only
  rw [if_neg (by omega)]
  refine if_neg fun e => ?_
  rw [Bool.and_eq_true, List.any_eq_true] at e
  obtain ⟨ha, j, hj, hjk⟩ := e
  rw [mem_numsFrom] at hj
  rcases h with h | h
  · simp [h] at ha
  · simp only [Bool.and_eq_true, bne_iff_ne, beq_iff_eq] at hjk
    exact h j (by omega) hjk.1 hjk.2

include hd hk in
/-- The slot is served by the position it names, or by none. -/
theorem State.physTile_tileMapped_self (hp : fget TILE_MAP.POSITION v ≤ 16) : (s.tileMapped d k v).physTile (d * 16 + k) =
    if fset? TILE_MAP.ABSENT v = true then none else some (d * 17 + fget TILE_MAP.POSITION v) := by
  have e : State.physTile (s.wr (TILE_MAP.adr d k) (v &&& (fmask TILE_MAP.ABSENT ||| fmask TILE_MAP.POSITION))) (d * 16 + k) =
      if fset? TILE_MAP.ABSENT v = true then none else some (d * 17 + fget TILE_MAP.POSITION v) := by
    have h1 : (d * 16 + k) / 16 = d := by omega
    have h2 : (d * 16 + k) % 16 = k := by omega
    have h3 : ¬ 128 ≤ d * 16 + k := by omega
    have h4 : ¬ 17 ≤ fget TILE_MAP.POSITION v := by omega
    have ha : fset? TILE_MAP.ABSENT (v &&& (fmask TILE_MAP.ABSENT ||| fmask TILE_MAP.POSITION)) = fset? TILE_MAP.ABSENT v :=
      congrArg (· != 0) (tileMap_kept v _ (.inl rfl))
    unfold State.physTile
    rw [h1, h2, State.rd_wr_self]
    dsimp only
    rw [ha, tileMap_kept v _ (.inr rfl)]
    cases fset? TILE_MAP.ABSENT v <;> simp [h3, h4]
  exact (State.physTile_congr (State.recore_ctrl _ _ _) _).trans e

include hk in
/-- Every other slot is served as before. -/
theorem State.physTile_tileMapped_other {j : Nat} (h : j ≠ d * 16 + k) : (s.tileMapped d k v).physTile j = s.physTile j := by
  refine (State.physTile_congr (State.recore_ctrl _ _ _) _).trans ?_
  unfold State.physTile
  rw [State.rd_wr_ne _ _ _ _ (tileMap_adr_ne hk h)]

end TileMap

end Sys2Proof.Machine
end

section
/-!
SUPPORT. What each command of the handshake windows, of crossing 10 and of register writes runs, for a window or a
crossing that the device has.
-/

namespace Sys2Proof.Machine

section Windows
variable (s : State) {w : Window} (h : w.ok = true)
include h

theorem exec_calIntervalExpiry : exec (.calIntervalExpiry w) s = .next (s.calInterval (winBase w) (winDom w)) := if_pos h
theorem exec_calStep : exec (.calStep w) s = .next (s.calStep (winBase w) (winDom w)) := if_pos h
theorem exec_calTrimWrite (v : Word) : exec (.calTrimWrite w v) s = .next (s.calTrim (winBase w) v) := if_pos h
theorem exec_nearMiss (i : Nat) : exec (.nearMiss w i) s = .next (s.nearMiss (winBase w) i) := if_pos h

end Windows

section CrossingRows
variable (s : State) {w : Window} {x : Nat} (h : w.xOk x = true)
include h

theorem exec_hfrOffer (v : Word) : exec (.hfrOffer w x v) s = .next (s.hfrOffer w x v) := if_pos h
theorem exec_hfrAck : exec (.hfrAck w x) s = .next (s.hfrTaken w x) := if_pos h
theorem exec_pulseEvent : exec (.pulseEvent w x) s = .next (s.pulseEvent w x) := if_pos h
theorem exec_pulseHandshakeDone : exec (.pulseHandshakeDone w x) s = .next (s.pulseDone w x) := if_pos h
theorem exec_pulseCountDelivery : exec (.pulseCountDelivery w x) s = .next (s.pulseLand w x) := if_pos h
theorem exec_queueCrossingWrite (v : Word) : exec (.queueCrossingWrite w x v) s = .next (s.xWrite w x v) := if_pos h
theorem exec_queueCrossingRead : exec (.queueCrossingRead w x) s = .next (s.xRead w x) := if_pos h
theorem exec_dstStopped : exec (.dstStopped w x) s = .next (s.dstStopped w x) := if_pos h
theorem exec_dstClockReturn : exec (.dstClockReturn w x) s = .next (s.dstReturn w x) := if_pos h
theorem exec_crossingSideReset (p : Bool) : exec (.crossingSideReset w x p) s = .next (s.sideReset w x p) := if_pos h
theorem exec_xctlResync : exec (.xctlResync w x) s = .next (s.ctlResync w x) := if_pos h
theorem exec_resyncComplete : exec (.resyncComplete w x) s = .next (s.resynced w x) := if_pos h
theorem exec_resyncHoldTimeout : exec (.resyncHoldTimeout w x) s = .next (s.holdTimeout w x) := if_pos h

end CrossingRows

theorem exec_aonSettingWrite_off (s : State) (who : Who) (a : Nat) (v : Word) (h : s.isOn 301 = false ∨ aonSetting a = false) :
    exec (.aonSettingWrite who a v) s = .next s := by
  refine (show exec (.aonSettingWrite who a v) s = execAonSettingWrite who a v s from rfl).trans ?_
  unfold execAonSettingWrite
  rcases h with h | h
  · simp only [State.atHub, State.hubOn, h, Bool.false_eq_true, if_false, ite_self]
  · rw [h]; rfl

theorem exec_aonSettingWrite (s : State) (who : Who) (a : Nat) (v : Word) (hon : s.isOn 301 = true) (ha : aonSetting a = true) :
    exec (.aonSettingWrite who a v) s = .next (s.aonWrite who a v false).1 := by
  refine (show exec (.aonSettingWrite who a v) s = execAonSettingWrite who a v s from rfl).trans ?_
  rw [execAonSettingWrite, if_pos ha, State.atHub, State.hubOn, if_pos hon]

theorem exec_aonSettingTaken (s : State) : exec .aonSettingTaken s = .next s.aonTake := rfl

theorem exec_registerWrite (s : State) (who : Who) (a : Nat) (v : Word) :
    exec (.registerWrite who a v) s = .next (s.regWrite who a v) := rfl

theorem exec_tileMapUpdate (s : State) {d k : Nat} (hd : d < 8) (hk : k < 16) (v : Word) :
    exec (.tileMapUpdate d k v) s = .next (s.writeTileMap d k v) :=
  if_pos (Bool.and_eq_true_iff.mpr ⟨decide_eq_true hd, decide_eq_true hk⟩)

end Sys2Proof.Machine
end

section
/-!
OBLIGATION O60: delay lines, crossings, settings for the AON domain, and register writes.
-/

namespace Sys2Proof.Machine

/-- Settles O60: each clause from the equations of the operation that its command runs. -/
theorem crossingsCalibrationAndRegisters : Obligations.CrossingsCalibrationAndRegisters := by
  unfold Obligations.CrossingsCalibrationAndRegisters
  refine ⟨?calibration, ?hfr, ?pulse, ?queue, ?resync, ?ten, ?settingWrite, ?settingNone, ?settingTaken, ?registerWrite,
    ?accessCodes, ?outAddr, ?tileMap⟩
  case calibration =>
    intro s w b hw hb
    subst hb
    intro passed
    simp only [exec_calStep _ hw, exec_calIntervalExpiry _ hw, exec_calTrimWrite _ hw, exec_nearMiss _ hw]
    refine ⟨fun h => congrArg _ (s.calStep_off _ _ h), fun h => congrArg _ (s.calInterval_off _ _ h), ?_, ?_, ?_, fun i => ⟨?_, ?_⟩⟩
    · exact fun h1 h2 h3 h4 => ⟨_, congrArg _ (s.calInterval_on _ _ h1 h2 h3 h4), s.passed_calRun hw⟩
    · rintro hf hd u rfl
      rw [s.calStep_on _ _ hf hd]
      exact ⟨fun h => by rw [if_neg h], fun h => ⟨_, by rw [if_pos h], State.passed_calRun _ hw⟩⟩
    · rintro v i rfl
      refine ⟨fun h => congrArg _ (s.calTrim_of_ge _ v h), fun h => ?_⟩
      obtain ⟨t, e, facts⟩ := s.calTrim_of_lt _ v h
      exact ⟨t, congrArg _ e, facts⟩
    · exact fun h => congrArg _ (s.nearMiss_of_ge _ i h)
    · exact fun h => congrArg _ (s.nearMiss_of_lt _ i h)
  case hfr =>
    rintro s w x v c hx hk rfl
    simp only [exec_hfrOffer _ hx, exec_hfrAck _ hx, exec_aonSettingTaken]
    refine ⟨fun hs hn => ⟨?_, ?_⟩, fun hs => ⟨?_, ?_, ?_, ?_⟩, ?_, ?_, fun h => ⟨?_, ?_⟩⟩
    · exact congrArg _ (State.hfrOffer_resync hk v hs (xHoldsWriters_of_not hn))
    · rw [State.hfrTaken_value (.inl hn), State.hfrAck_idle (.inl (by omega))]
    · exact fun h => congrArg _ (State.hfrOffer_empty hk v hs h)
    · exact fun h hn => congrArg _ (State.hfrOffer_pending hk v hs h hn)
    · exact fun h hn ht => congrArg _ (State.hfrOffer_overrun hk v hs h hn (xHoldsWriters_of_not ht))
    · exact fun h hn hw hx => congrArg _ (State.hfrOffer_behind hk v hs h hn (xHoldsWriters_of ⟨hw, hx⟩))
    · exact fun hs hw hx => congrArg _ (State.hfrOffer_resync_held hk v hs (xHoldsWriters_of ⟨hw, hx⟩))
    · exact fun hw hx hq => congrArg _ (State.hfrTaken_setting ⟨hw, hx⟩ hq)
    · exact fun hi => by rw [State.hfrTaken_value h, State.hfrAck_idle hi]
    · exact fun a hs he => by rw [State.hfrTaken_value h, State.hfrAck_held hk hs he]
  case pulse =>
    rintro s w x c hx hk rfl
    simp only [exec_pulseEvent _ hx, exec_pulseCountDelivery _ hx, exec_pulseHandshakeDone _ hx]
    refine ⟨?_, ?_, ?_, ?_, fun hp hs => ⟨s.pulseTaken w x, rfl, ?_, ?_, ?_, ?_⟩, ?_, ?_, ?_, ?_, ?_, ?_⟩
    · exact fun h => congrArg _ (State.pulseEvent_full hk h)
    · exact fun h hb => congrArg _ (State.pulseEvent_counted hk h hb)
    · exact fun h hp hs => congrArg _ (State.pulseEvent_raised hk h hp hs)
    · exact fun h => congrArg _ (State.pulseLand_wait h)
    · intro hn hw hno
      rw [← State.pulseDeliver_taken hk hp hs hn] at hno ⊢
      rw [State.pulseLand_delivered hw hno]
    · rintro rfl rfl hon
      rw [State.pulseLand_aon hk hp hs hon]
    · rintro rfl evt rfl
      rw [State.pulseLand_pcie hk hp hs]
      refine ⟨?_, fun h5 => congrArg _ (State.pciePulse_named _ x _ h5), _, rfl⟩
      rintro rfl h1
      obtain ⟨f, hf, e⟩ := (s.pulseTaken .pcie 5).pciePulse_error
      exact ⟨f, hf, by rw [h1, e]; rfl⟩
    · intro n hn
      obtain ⟨hw, h12⟩ := pulseSource_some hn
      rw [State.pulseLand_delivered hw fun h => h12 ⟨h.1, h.2.1⟩, State.pulseDeliver_source hk hp hs hn]
    · rintro d rfl h4
      exact pulseSource_mc hx h4
    · rintro n rfl h6
      exact pulseSource_link hx h6
    · rintro rfl
      exact pulseSource_time hx hk
    · exact fun h => congrArg _ (State.pulseDone_wait h)
    · exact fun h hc => congrArg _ (State.pulseDone_idle hk h hc)
    · exact fun h hc hs => congrArg _ (State.pulseDone_raised hk h hc hs)
  case queue =>
    rintro s w x v c hx hk rfl
    simp only [exec_queueCrossingWrite _ hx, exec_queueCrossingRead _ hx]
    refine ⟨?_, ?_, ?_, ?_, ?_, ?_, ?_, ?_, ?_⟩
    · exact fun hs => congrArg _ (State.xWrite_entered hk v hs)
    · exact fun hs he hl => congrArg _ (State.xWrite_room hk v hs he hl)
    · exact fun hs hl => congrArg _ (State.xWrite_full hk v hs hl)
    · exact fun hs h => congrArg _ (State.xWrite_held hk v hs h)
    · exact fun hs ht hc => congrArg _ (State.xWrite_answered hk v hs ht hc)
    · exact fun h => congrArg _ (State.xRead_wait h)
    · exact fun a r hs h => congrArg _ (State.xRead_taken hk hs h)
    · exact fun a r hs h he => congrArg _ (State.xRead_alone hk hs h he)
    · exact fun a r y l hs h hd he => congrArg _ (State.xRead_admits hk hs h hd he)
  case resync =>
    rintro s w x p c k hx rfl rfl ten hten
    have ht (f : State → State) (u : State) : ten f u = atTen w x f u := by rw [hten]; rfl
    simp only [exec_dstStopped _ hx, exec_dstClockReturn _ hx, exec_crossingSideReset _ hx, exec_xctlResync _ hx,
      exec_resyncComplete _ hx, exec_resyncHoldTimeout _ hx, ht]
    refine ⟨fun hk => ?_, fun hk => ⟨?_, ?_, ?_, ?_, ?_, ⟨_, rfl, s.resyncStart_facts w x p hk⟩, ?_, fun hs hd => ?_⟩, ?_, ?_, ?_, ?_⟩
    · obtain ⟨h1, h2, h3, h4⟩ := s.none_at_noCrossing w x p hk
      exact ⟨congrArg _ h1, congrArg _ h2, congrArg _ h3, congrArg _ h4⟩
    · exact fun hs hd => congrArg _ (s.dstStopped_holding w x hk hs hd)
    · exact fun h => congrArg _ (s.dstStopped_empty w x hk h)
    · exact congrArg _ (s.sideReset_eq w x true hk)
    · exact congrArg _ (s.sideReset_eq w x false hk)
    · exact congrArg _ (s.ctlResync_eq w x hk)
    · intro h
      rw [s.resynced_eq, s.resyncComplete_stays w x (h.imp_right .inr)]
    · obtain ⟨state, xing, ctl, count⟩ := s.resyncComplete_facts w x hk hs hd
      refine ⟨_, congrArg _ (s.resynced_eq w x), state, ctl, count, fun h3 hn => ?_, fun h2 => ?_, fun h4 hc hp => ?_⟩
      · rw [xing, Crossing.resynced_hfr _ h3 (xHoldsWriters_of_not hn)]
      · rw [xing, Crossing.resynced_queue _ h2 (xHoldsWriters_of_kind (by omega))]
      · rw [xing]
        exact Crossing.resynced_pulse _ h4 (xHoldsWriters_of_kind (by omega)) hc hp
    · intro h
      rw [s.dstReturn_eq, if_pos h]
      rfl
    · intro h
      rw [s.dstReturn_eq, if_neg h]
      rfl
    · intro h
      rw [s.holdTimeout_eq, s.resyncHoldTimeout_none w x h]
    · intro h1 h2 h3
      rw [s.holdTimeout_eq, s.resyncHoldTimeout_held w x h1 h2 h3]
      rfl
  case ten =>
    rintro s k d rfl rfl
    obtain ⟨queue, wait, count⟩ := s.aonResync_facts
    exact ⟨queue, wait, count, s.aonTimeout_none, s.aonTimeout_held⟩
  case settingWrite =>
    rintro s u who a v g rfl rfl
    refine ⟨exec_aonSettingWrite_off s who a v, aonSetting_iff a, fun hon ha => ?_⟩
    simp only [exec_aonSettingWrite s who a v hon ha]
    refine ⟨fun hs ht => congrArg _ (State.aonWrite_away who a v hs ht), fun h => ?_, fun hs hq => ?_⟩
    · refine ⟨_, congrArg _ (State.aonWrite_held who a v h), rfl, State.busy_of_not_idle _ ?_⟩
      simp [State.aonIdle]
    · refine ⟨_, congrArg _ (State.aonWrite_entered who a v hs hq), rfl, State.busy_of_not_idle _ ?_, fun r h1 h2 => ?_⟩
      · simp [State.aonIdle]
      · exact State.rd_aonShow _ h1 h2
  case settingNone =>
    exact fun s h => congrArg _ (s.aonTake_none h)
  case settingTaken =>
    rintro s g r n hq hs rfl
    refine ⟨s.aonTaken g r, congrArg _ (s.aonTake_taken hq hs), s.aonTaken_queue g r, s.aonTaken_wait g r, s.busy_aonTaken g r,
      fun h => ?_, fun h => ?_, fun i hi h => ?_⟩
    · rw [s.aonTaken_clock, if_neg h]
    · rw [s.aonTaken_clock, if_pos h]
    · rw [s.rd_aonTaken g r (h ▸ wwSlot_ne_wwStat hi) (h ▸ wwSlot_ne_ten hi), h]
      exact aonValue_slot_fields _ _ hi
  case registerWrite =>
    intro s u who a v gs hg
    simp only [exec_registerWrite]
    refine ⟨fun hb => congrArg _ (State.regWrite_unassigned hb), fun hb z o he => ⟨?_, ?_, ?_, fun ho hn => ⟨?_, ?_⟩, ?_⟩⟩
    · rintro rfl
      exact congrArg _ ((State.regWrite_of (State.ctrlWrite_stopped hb hg he)).1 rfl)
    · intro ho hne
      obtain ⟨r, rfl⟩ := Option.ne_none_iff_exists'.mp hne
      exact congrArg _ ((State.regWrite_of (State.ctrlWrite_stopped hb hg he)).2 fun e => ho (congrArg some e))
    · rintro rfl h1 h2
      exact congrArg _ ((State.regWrite_of (State.ctrlWrite_window hb hg he h1 h2)).2 (by decide))
    · subst ho
      exact fun h => congrArg _ ((State.regWrite_of (State.ctrlWrite_noRegister hb hg he hn h)).2 (by decide))
    · subst ho
      intro h hr hh
      refine ⟨fun hs => ?_, fun hs hw y e hy => ?_⟩
      · exact congrArg _ ((State.regWrite_of (State.ctrlWrite_register hb hg he hn hr hh hs)).2 (by decide))
      · obtain ⟨r, hc, hheld⟩ := State.ctrlWrite_setting (x := ⟨v, false⟩) hb hg he hn hr hh hs hw hy
        obtain ⟨held, done⟩ := State.regWrite_of hc
        exact ⟨fun h => congrArg _ (held (hheld.mpr h)), fun h => congrArg _ (done fun e => h (hheld.mp e))⟩
    · exact fun h hs hw => z.writeReg_ignored v hs hw
  case accessCodes =>
    rintro f fl v old hlo hhi rfl
    exact ⟨fun al i h => f.write_outside al v old i hlo h, f.write_rw hlo hhi v old, f.write_ro v old, f.write_wa hlo hhi v old,
      f.write_ws hhi v old, f.write_wc hhi v old⟩
  case outAddr =>
    rintro s who v i - hg hh rfl
    exact congrArg _ (s.regWrite_pcieOutAddr i v hg hh)
  case tileMap =>
    rintro s u d k v hd hk rfl
    simp only [exec_tileMapUpdate s hd hk]
    exact ⟨fun h => congrArg _ (s.writeTileMap_ignored v h), fun hp h => ⟨congrArg _ (s.writeTileMap_taken v hp h),
      s.physTile_tileMapped_self hd hk v hp, fun j hj => s.physTile_tileMapped_other hk v hj⟩⟩

end Sys2Proof.Machine
end
